-- ==== Sys2Proof/Word.lean ====
section
/-! DEFINITION. The word types of the block: 8-byte register and packet words (00_scope.md, Conventions), 32-bit
words, bytes, and the plain finite maps that the state is made of. -/

namespace Sys2Proof

/-- A register or packet word: every register is 64 bits wide. -/
abbrev W64 := BitVec 64

/-- A 32-bit value: tags, ring counts, FP32 patterns. -/
abbrev W32 := BitVec 32

/-- One byte of memory. -/
abbrev Byte := BitVec 8

/-- A finite map from numbers, held as a list of key and value. -/
abbrev AMap (α : Type) := List (Nat × α)

end Sys2Proof
end

