-- ==== Sys2Proof/Syntax.lean ====
section
/-! DEFINITION. The commands of the block: one constructor of `Instr` for each row of spec/opcode_table.json, with its
operands, and the types of those operands. Every operand type is plain data. A host opcode (CTX_OPEN to DEVICE_RESET)
carries no operand: its packet stands in the fetch buffer of its queue, where FETCH_ATTEMPT put it (R102, R109). -/

namespace Sys2Proof

/-- How a register request reaches Distaff (Table 01-2): its byte enables and DF_REQ_PRIV. -/
structure Access where
  be   : BitVec 8
  priv : Bool
  deriving DecidableEq, Repr

/-- The three ring registers of a context block (R100). -/
inductive RingReg where
  | ring | reply | mirror
  deriving DecidableEq, Repr

/-- The two registers of the row CX_PEER_SIGRANGE (R151). -/
inductive RangeReg where
  | peer | sigrange
  deriving DecidableEq, Repr

/-- The two registers of the row FLOWRANGE_DLY_CTRL (R185). -/
inductive FlowDlyReg where
  | flowrange (ctx : Nat)
  | dlyCtrl
  deriving DecidableEq, Repr

/-- The two registers of the row CLIP_CTRL_CUT (R358). -/
inductive ClipReg where
  | clipCtrl
  | cut (ctx k : Nat)
  deriving DecidableEq, Repr

/-- The three registers of the row TEST_LOOPBACK_REGISTERS (R395). -/
inductive TestReg where
  | tlReel
  | stubCtrl
  | tlLink (port : Nat)
  deriving DecidableEq, Repr

/-- What a BIST or a known-answer test found (R391 to R393): a pass or a fail, rows repaired, the numbers of the
banks found bad in the graph store, banks found bad elsewhere, lanes that differed. -/
structure TestOutcome where
  pass      : Bool
  repaired  : Nat
  badGraph  : List Nat
  badOther  : Nat
  badLanes  : Nat
  deriving DecidableEq, Repr

/-- One element of a partial result of a reduction (R261, R262, R265): present or absent, the canonical node value,
the exact accumulator in units of 2^-149 (or of one, for integers) and its four sticky bits. -/
structure Partial where
  present    : Bool
  canon      : BitVec 32
  acc        : Int
  posInf     : Bool
  negInf     : Bool
  nan        : Bool
  allNegZero : Bool
  deriving DecidableEq, Repr

/-- The key of a contribution that crosses a link (R268): the group, whether it is a Carder exchange, the slot or table
number, the generation. -/
structure PlyKey where
  group   : Nat
  isTable : Bool
  slot    : Nat
  gen     : Nat
  deriving DecidableEq, Repr

/-- The parameters a contribution carries beside its key (R268). -/
structure PlyParams where
  op      : Nat
  fn      : Nat
  mode    : Nat
  inFmt   : Nat
  count   : Nat
  nLeaves : Nat
  deriving DecidableEq, Repr

/-- What a contribution holds (R253, R256, Table 12-5): of a segment of 1024 elements, a fragment or node (v, i) on its way to where
its parent is computed, the root, or the exclusive prefix handed down to a node, each with NAN and OVF of all that led to it; or the
data, length and index entries of one leaf (R267). -/
inductive PlyData where
  | frag (v i seg : Nat) (nan ovf : Bool) (elems : List Partial)
  | root (seg : Nat) (nan ovf : Bool) (elems : List Partial)
  | below (v i seg : Nat) (nan ovf : Bool) (elems : List Partial)
  | leaf (l : Nat) (present : Bool) (len : Nat) (bytes : List Byte) (idx : List W64)
  deriving DecidableEq, Repr

/-- A contribution to a collective or to a Carder exchange. -/
structure PlyMsg where
  key    : PlyKey
  params : PlyParams
  data   : PlyData
  deriving DecidableEq, Repr

/-- The fields of a message record that its sender writes (Table 09-3), and its payload. -/
structure MsgRec where
  kind      : Nat
  handler   : Nat
  fenceEn   : Bool
  fenceChan : Nat
  len       : Nat
  fence     : W64
  sig       : Nat
  value     : W64
  user      : W64
  payload   : List Byte
  deriving DecidableEq, Repr

/-- What a channel frame carries between a send end and a receive end (R238 to R241). -/
inductive ChanBody where
  | record (epoch : Nat) (padBytes : Nat) (msg : MsgRec) (index : Nat)
  | openNotice (epoch ringLog2 : Nat)
  | closeNotice (reason : Nat)
  | credit (epoch : Nat) (consumed : Nat) (delivered : Nat)
  | refusal (epoch : Nat) (reason : Nat)
  deriving DecidableEq, Repr

/-- A channel frame: the channel end it is for and the end it comes from. -/
structure ChanMsg where
  toChan   : Nat
  fromPos  : Nat
  fromChan : Nat
  body     : ChanBody
  deriving DecidableEq, Repr

/-- A CLIP frame (R345, R347, R348, R350): its key (clip count, round), whether it goes up or down the tree, and the
value it combines: ordinals per context, cut flag, frame sums, ok flag and greatest count. -/
structure ClipMsg where
  clipCount : Nat
  round     : Nat
  up        : Bool
  fromIdx   : Nat
  ords      : List Nat
  flag      : Bool
  tx        : Nat
  rx        : Nat
  count     : Nat
  deriving DecidableEq, Repr

/-- The beacon payload (Table 12-7). -/
structure Beacon where
  count    : Nat
  phase    : Nat
  refIdx   : Nat
  hops     : Nat
  aligned  : Bool
  taken    : Bool
  port     : Nat
  kind     : Nat
  self     : Nat
  domainId : Nat
  planRev  : Nat
  deriving DecidableEq, Repr

/-- A PROBE frame (R313, R388): a probe that is returned with the times at which the far end received and sent it (in
1/256 DCLK), a fresh probe, or a test frame with its sequence number and words 1 to 63 of its payload. -/
inductive ProbeMsg where
  | fresh (id : Nat)
  | returned (id : Nat) (farIn farOut : Nat) (sentAt gotAt : Nat)
  | test (seq : Nat) (words : List W64)
  deriving DecidableEq, Repr

/-- The payload of a frame, by its type (Table 12-5). -/
inductive Payload where
  | ply (m : PlyMsg)
  | chan (m : ChanMsg)
  | sigadd (sig : Nat) (value : W64)
  | clip (m : ClipMsg)
  | psync (last : Nat) (port : Nat)
  | beacon (b : Beacon)
  | probe (m : ProbeMsg)
  | ack
  | reserved (type : Nat)
  deriving DecidableEq, Repr

/-- A frame as it arrives on or leaves a link port (R299, Table 12-4): header, payload and trailer, with the CRC that the trailer
holds. -/
structure Frame where
  dest        : Nat
  src         : Nat
  seq         : Nat
  vl          : Nat
  pleach      : Bool
  destLogical : Nat
  resume      : Nat
  payload     : Payload
  ackSeq      : Nat
  ackVl       : Nat
  ackValid    : Bool
  nak         : Bool
  crc         : BitVec 32
  deriving DecidableEq, Repr

/-- Where a frame comes from: a link port, or this chip itself, whose oldest frame of the row's kind that was delivered
with no link (R310) is then taken. -/
inductive Arrival where
  | link (port : Nat) (frame : Frame)
  | here
  deriving DecidableEq, Repr

/-- The commands, in the order of spec/opcode_table.json. -/
inductive Instr where
  /-- CTX_OPEN (R87). -/
  | ctxOpen
  /-- CTX_CLOSE (R87). -/
  | ctxClose
  /-- HANDLE_FLUSH (R121). -/
  | handleFlush
  /-- NOP (R87). -/
  | nop
  /-- SKEIN_LOAD (R132). -/
  | skeinLoad
  /-- SKEIN_UNLOAD (R133). -/
  | skeinUnload
  /-- SKEIN_PATCH (R87). -/
  | skeinPatch
  /-- LAUNCH (R87). -/
  | launch
  /-- LAUNCH_AT (R277). -/
  | launchAt
  /-- REPLAY (R150). -/
  | replay
  /-- CANCEL (R148). -/
  | cancel
  /-- STOP_AT (R90). -/
  | stopAt
  /-- RESUME (R87). -/
  | resume
  /-- SYNC_SET (R220). -/
  | syncSet
  /-- SYNC_WAIT (R224). -/
  | syncWait
  /-- SYNC_ALLOC (R219). -/
  | syncAlloc
  /-- SYNC_FREE (R219). -/
  | syncFree
  /-- CHAN_OPEN (R233). -/
  | chanOpen
  /-- CHAN_CLOSE (R87). -/
  | chanClose
  /-- CHAN_RESET (R87). -/
  | chanReset
  /-- MOE_TABLE_LOAD (R187). -/
  | moeTableLoad
  /-- MOE_TABLE_UNLOAD (R87). -/
  | moeTableUnload
  /-- MOE_STATS (R213). -/
  | moeStats
  /-- FABRIC_PLAN_LOAD (R298). -/
  | fabricPlanLoad
  /-- ROUTE_LOAD (R308). -/
  | routeLoad
  /-- SPARE_MAP (R319). -/
  | spareMap
  /-- LINK_ACCEPT (R306). -/
  | linkAccept
  /-- CLIP_AT (R343). -/
  | clipAt
  /-- CLIP_ABORT (R344). -/
  | clipAbort
  /-- RESTORE (R356). -/
  | restore
  /-- LOOPBACK_SET (R380). -/
  | loopbackSet
  /-- SELFTEST (R391). -/
  | selftest
  /-- FW_LOAD (R371). -/
  | fwLoad
  /-- DEBUG_UNLOCK (R375). -/
  | debugUnlock
  /-- QUERY (R88). -/
  | query
  /-- DEVICE_RESET (R89). -/
  | deviceReset
  /-- DEVICE_RESET_ENTRY (R89). -/
  | deviceResetEntry
  /-- DOORBELL (R103). -/
  | doorbell (queue : Nat) (value : W64) (acc : Access) (stores : List Host.Cell)
  /-- FETCHER_GRANT (R108). -/
  | fetcherGrant
  /-- FETCH_ATTEMPT (R106). -/
  | fetchAttempt
  /-- FETCH_SLICE_END (R108). -/
  | fetchSliceEnd
  /-- CHECK (R105). -/
  | checkEnd (queue : Nat)
  /-- FRONT_END_CHECKS (R109). -/
  | frontEndChecks (queue : Nat)
  /-- HALT_REPLY (R107). -/
  | haltReply (queue : Nat)
  /-- REPLY_WRITE (R111). -/
  | replyWrite (queue : Nat)
  /-- RPL_FREE (R110). -/
  | rplFree (queue : Nat) (value : W64) (acc : Access)
  /-- RING_CONFIGURATION (R101). -/
  | ringConfiguration (queue : Nat) (which : RingReg) (value : W64) (acc : Access)
  /-- INSTANCE_START (R135). -/
  | instanceStart (ctx : Nat) (tag : Nat)
  /-- DELAY_LIST_RELEASE (R158). -/
  | delayListRelease (list : Nat)
  /-- SPINDLE_SELECTION (R168). -/
  | spindleSelection (spindle : Nat)
  /-- RECORD_PRESENTATION (R169). -/
  | recordPresentation (port : Nat)
  /-- RAMP_WINDOW (R64). -/
  | rampWindow
  /-- RAMP_GRANT (R64). -/
  | rampGrant
  /-- YIELD_REQUEST (R179). -/
  | yieldRequest (port : Nat)
  /-- SLICE_END (R113). -/
  | sliceEnd (spindle : Nat)
  /-- DONE (R37). -/
  | engDone (port : Nat) (tag : Nat) (stores : List Host.Cell)
  /-- YIELDED (R180). -/
  | engYielded (port : Nat) (tag : Nat) (stores : List Host.Cell)
  /-- FAULT (R147). -/
  | engFault (port : Nat) (tag : Nat) (code : Nat) (stores : List Host.Cell)
  /-- SAVED (R349). -/
  | engSaved (port : Nat) (tag : Nat) (stores : List Host.Cell)
  /-- TASK_COMPLETION (R142). -/
  | taskCompletion
  /-- DEVICE_SIDE_ENQUEUE (R144). -/
  | deviceSideEnqueue
  /-- COMPLETION_EDGES (R130). -/
  | completionEdges
  /-- SIGNAL_WORD_WRITE (R138). -/
  | signalWordWrite (index : Nat) (value : W64) (acc : Access)
  /-- POLLED_WAIT_READ (R139). -/
  | polledWaitRead (ctx : Nat) (skein : Nat) (node : Nat)
  /-- SYNC_OBJECT_EVALUATION (R222). -/
  | syncObjectEvaluation
  /-- PAGE_REFILL (R134). -/
  | pageRefill (ctx : Nat) (skein : Nat) (page : Nat)
  /-- DEADLINE (R282). -/
  | deadline (ctx : Nat) (tag : Nat) (node : Nat) (port : Nat)
  /-- STOP_COUNT (R90). -/
  | stopCount (ctx : Nat)
  /-- REEL_RESPONSE (R34): channel, tag, direction, status, the stores of other agents that are visible with it, and lines that answer
  otherwise from now on, none unless given. -/
  | reelResponse (chan : Nat) (tag : Nat) (write : Bool) (status : Nat) (stores : List Host.Cell) (bad : List (Nat × Nat) := [])
  /-- STEP_EXCHANGE (R196). -/
  | stepExchange (table : Nat)
  /-- STEP_DECIDE (R198). -/
  | stepDecide (table : Nat)
  /-- STEP_COMMIT (R191). -/
  | stepCommit (table : Nat)
  /-- STEP_ROUTED (R190). -/
  | stepRouted (table : Nat)
  /-- COLLECTIVE_START (R259). -/
  | collectiveStart (ctx : Nat) (slot : Nat)
  /-- COLLECTIVE_EXCHANGE (R260). -/
  | collectiveExchange (ctx : Nat) (slot : Nat)
  /-- COLLECTIVE_WRITE (R260). -/
  | collectiveWrite (ctx : Nat) (slot : Nat)
  /-- COLLECTIVE_DONE (R260). -/
  | collectiveDone (ctx : Nat) (slot : Nat)
  /-- PLY_FRAME (R268). -/
  | plyFrame (arrival : Arrival)
  /-- MESSAGE_SEND (R237). -/
  | messageSend (chan : Nat)
  /-- SEND_SLOT_READ (R243). -/
  | sendSlotRead (chan : Nat)
  /-- CHANNEL_RECORD (R238). -/
  | channelRecord (arrival : Arrival)
  /-- RECORD_DELIVERED (R245). -/
  | recordDelivered (chan : Nat)
  /-- SIGNAL_APPLY (R245). -/
  | signalApply (chan : Nat)
  /-- HANDLER_CREATE (R247). -/
  | handlerCreate (chan : Nat)
  /-- OPEN_NOTICE (R240). -/
  | openNotice (arrival : Arrival)
  /-- CLOSE_NOTICE (R240). -/
  | closeNotice (arrival : Arrival)
  /-- CREDIT_NOTICE (R239). -/
  | creditNotice (arrival : Arrival)
  /-- SEND_REFUSAL (R241). -/
  | sendRefusal (arrival : Arrival)
  /-- CONSUMED_WORD_READ (R236). -/
  | consumedWordRead (chan : Nat)
  /-- SIGADD (R312). -/
  | sigaddFrame (arrival : Arrival)
  /-- SZ_SM_GRANT (R227). -/
  | szSmGrant (value : W64) (acc : Access)
  /-- GRANT_VERIFIED (R227). -/
  | grantVerified
  /-- MANUAL_READ (R228). -/
  | manualRead (acc : Access)
  /-- MANUAL_SET (R228). -/
  | manualSet (acc : Access)
  /-- MANUAL_ADD (R228). -/
  | manualAdd (acc : Access)
  /-- MANUAL_SIGNAL (R228). -/
  | manualSignal (acc : Access)
  /-- LINK_LOCK_LOSS (R303). -/
  | linkLockLoss (link : Nat)
  /-- PHY_UP_LOCKED (R303). -/
  | phyUpLocked (link : Nat)
  /-- PHY_UP_TIMEOUT (R303). -/
  | phyUpTimeout (link : Nat)
  /-- CODEWORD_LOCK (R303). -/
  | codewordLock (link : Nat) (skew : Nat)
  /-- ALIGN_TIMEOUT (R303). -/
  | alignTimeout (link : Nat)
  /-- IDENT_TIMEOUT (R303). -/
  | identTimeout (link : Nat)
  /-- MEASURE_TIMEOUT (R303). -/
  | measureTimeout (link : Nat)
  /-- FAILED_RETRY (R303). -/
  | failedRetry (link : Nat)
  /-- BEACON (R315). -/
  | beaconFrame (link : Nat) (frame : Frame)
  /-- BEACON_SEND (R304). -/
  | beaconSend
  /-- PROBE (R313). -/
  | probeFrame (link : Nat) (frame : Frame)
  /-- LATENCY_MEASURED (R313). -/
  | latencyMeasured (link : Nat)
  /-- ACK (R301). -/
  | ackFrame (link : Nat) (frame : Frame)
  /-- ACK_TIMER (R301). -/
  | ackTimer (link : Nat)
  /-- UNACKNOWLEDGED_TIMEOUT (R302). -/
  | unacknowledgedTimeout (link : Nat)
  /-- PSYNC (R316). -/
  | psyncFrame (arrival : Arrival)
  /-- PSYNC_TIMEOUT (R316). -/
  | psyncTimeout (link : Nat)
  /-- RETRAIN (R303). -/
  | retrain (link : Nat) (value : W64) (acc : Access)
  /-- OOS (R322). -/
  | oos (link : Nat) (value : W64) (acc : Access)
  /-- HOLDOVER (R276). -/
  | holdover
  /-- REFERENCE_CANDIDATE (R314). -/
  | referenceCandidate
  /-- CLIP (R348). -/
  | clipFrame (arrival : Arrival)
  /-- CLIP_COUNT (R344). -/
  | clipCount
  /-- ROUND_A_RESULT (R345). -/
  | roundAResult
  /-- INSTANCE_CUT (R346). -/
  | instanceCut (ctx : Nat) (tag : Nat)
  /-- ROUND_B_START (R347). -/
  | roundBStart
  /-- ROUND_B_RESULT (R347). -/
  | roundBResult
  /-- CLIP_SAVE_DONE (R349). -/
  | clipSaveDone
  /-- ROUND_C_RESULT (R350). -/
  | roundCResult
  /-- CONTINUE_COUNT (R350). -/
  | continueCount
  /-- DRAIN_LIMIT (R352). -/
  | drainLimit
  /-- RESTORE_APPLY (R357). -/
  | restoreApply
  /-- RESUME_COUNT (R357). -/
  | resumeCount
  /-- POWER_ON_RESET (R56). -/
  | powerOnReset
  /-- PORST_N_DEASSERT (R56). -/
  | porstNDeassert
  /-- SYS_RST_N (R55). -/
  | sysRstN
  /-- LOCK_LOSS (R53). -/
  | lockLoss
  /-- LOCK_REGAINED (R53). -/
  | lockRegained
  /-- CLK_START (R56). -/
  | clkStart
  /-- DRAIN (R58). -/
  | drainEnd
  /-- KEY_READ (R44). -/
  | keyRead (lcsCode : Nat) (slots : List (Nat × BitVec 32))
  /-- MEM_INIT (R56). -/
  | memInit
  /-- DRIFT_WINDOW (R54): the count of the window. -/
  | driftWindow (measured : Nat)
  /-- REF_ABSENT (R54). -/
  | refAbsent
  /-- POWER_REQUEST (R68). -/
  | powerRequest
  /-- POWER_REQUEST_DUE (R92). -/
  | powerRequestDue (ctx : Nat) (tag : Nat)
  /-- GRANT (R69). -/
  | powerGrant (amps : Nat)
  /-- THROTTLE_RISE (R62). -/
  | throttleRise
  /-- THROTTLE_FALL (R69). -/
  | throttleFall
  /-- HEDGE_SELFTEST_END (R368). -/
  | hedgeSelftestEnd (pass : Bool)
  /-- HEALTH_TEST_FAIL (R369). -/
  | healthTestFail
  /-- TS_SCAN_MODE (R367). -/
  | tsScanMode
  /-- WATCH_PERIOD_END (R331). -/
  | watchPeriodEnd
  /-- STASH_PTRS (R334). -/
  | stashPtrs (value : W64) (acc : Access)
  /-- EVT_PTRS (R340). -/
  | evtPtrs (value : W64) (acc : Access)
  /-- WATCH_CTRL (R340). -/
  | watchCtrl (value : W64) (acc : Access)
  /-- RAMP_CTRL (R66). -/
  | rampCtrl (value : W64) (acc : Access)
  /-- CX_PEER_SIGRANGE (R151). -/
  | cxPeerSigrange (ctx : Nat) (which : RangeReg) (value : W64) (acc : Access)
  /-- FLOWRANGE_DLY_CTRL (R185). -/
  | flowrangeDlyCtrl (which : FlowDlyReg) (value : W64) (acc : Access)
  /-- SLACK_DEFAULT (R293). -/
  | slackDefault (value : W64) (acc : Access)
  /-- CLIP_CTRL_CUT (R358). -/
  | clipCtrlCut (which : ClipReg) (value : W64) (acc : Access)
  /-- PLY_SLOT (R255). -/
  | plySlot (ctx : Nat) (slot : Nat) (word : Nat) (value : W64) (acc : Access)
  /-- TEST_LOOPBACK_REGISTERS (R395). -/
  | testLoopbackRegisters (which : TestReg) (value : W64) (acc : Access)
  /-- WORST_DIFF_READ (R20): a read at an offset, that of SZ_CLK_DRIFT unless given, with its request tag and whether it is privileged. -/
  | worstDiffRead (offset : Nat := 0x10008) (tag : Nat := 0) (priv : Bool := true)
  /-- REGISTER_WRITE (R20). -/
  | registerWrite (offset : Nat) (value : W64) (acc : Access)
  /-- ENGINE_WIRE_TIMEOUT (R387). -/
  | engineWireTimeout (port : Nat)
  /-- SELFTEST_END (R391). -/
  | selftestEnd (outcome : TestOutcome)
  /-- ENGINE_START (R36). -/
  | engineStart (port : Nat)
  /-- UNCORRECTABLE_CODEWORD (R42): a codeword with wrong symbols: the lanes that lost a frame with it, and how many symbols were wrong,
  beyond the 15 that are corrected unless given. -/
  | uncorrectableCodeword (link : Nat) (lost : List Nat) (errors : Nat := 16)
  /-- BIST_INSTRUMENT (R367). -/
  | bistInstrument (outcome : TestOutcome)
  deriving DecidableEq, Repr

end Sys2Proof
end

