-- ==== Sys2Proof/WellFormed.lean ====
section
/-! DEFINITION. Which operands a command can have: every number fits the place the spec gives it (Table 00-3, Table 01-5,
Table 17-1). An operand that does not fit names nothing in the block. -/

namespace Sys2Proof

/-- Lines of the address space, each with what its accesses are answered with from now on: DECODE_ERR, POISON on a read, POISON on a
write (Table 01-6). -/
def badWf (bad : List (Nat × Nat)) : Bool := bad.all fun l => decide (l.1 < 2 ^ 42) && decide (1 ≤ l.2) && decide (l.2 ≤ 3)

/-- Cells stored by an agent beside the block: inside the address space of the three tiers (Table 01-5). -/
def storesWf (cells : List Host.Cell) : Bool := cells.all fun p => decide (p.1 < 2 ^ 47)

/-- The numbers of a payload of a fixed layout fit their fields (Tables 12-5, 12-7, R312, R316). -/
def Payload.wf : Payload → Bool
  | .ply _ => true
  | .chan _ => true
  | .sigadd sig _ => decide (sig < 4096)
  | .clip _ => true
  | .psync last port => decide (last < 4096) && decide (port < 8)
  | .beacon b =>
    decide (b.count < 2 ^ 64) && decide (b.phase < 256) && decide (b.refIdx < 4) && decide (b.hops < 256)
      && decide (b.port < 8) && decide (b.kind < 16) && decide (b.self < 2 ^ 16) && decide (b.domainId < 2 ^ 16)
      && decide (b.planRev < 2 ^ 32)
  | .probe (.test seq words) => decide (seq < 2 ^ 64) && words.length == 63
  | .probe _ => true
  | .ack => true
  | .reserved type => decide (type < 32) && !([1, 2, 3, 4, 5, 16, 17, 18].contains type)

/-- The numbers of a frame's header, payload and trailer fit their fields (R299, Table 12-4). -/
def Frame.wf (f : Frame) : Bool :=
  decide (f.dest < 2 ^ 16) && decide (f.src < 2 ^ 16) && decide (f.seq < 2 ^ 12) && decide (f.vl < 4)
    && decide (f.destLogical < 2 ^ 16) && decide (f.resume < 2 ^ 16) && decide (f.ackSeq < 2 ^ 12)
    && decide (f.ackVl < 4) && f.payload.wf

/-- An arrival on one of the eight link ports, or from this chip itself. -/
def Arrival.wf : Arrival → Bool
  | .link p f => decide (p < 8) && f.wf
  | .here => true

/-- A flow range register of one of 64 contexts, or the delay control. -/
def FlowDlyReg.wf : FlowDlyReg → Bool
  | .flowrange n => decide (n < 64)
  | .dlyCtrl => true

/-- The clip control register, or one of 32 cut entries of a context. -/
def ClipReg.wf : ClipReg → Bool
  | .clipCtrl => true
  | .cut n k => decide (n < 64) && decide (k < 32)

/-- A loop-back register: of one of eight link ports, or one of two that stand alone. -/
def TestReg.wf : TestReg → Bool
  | .tlReel => true
  | .stubCtrl => true
  | .tlLink p => decide (p < 8)

/-- Whether every operand of a command fits. -/
def Instr.wf : Instr → Bool
  | .ctxOpen => true
  | .ctxClose => true
  | .handleFlush => true
  | .nop => true
  | .skeinLoad => true
  | .skeinUnload => true
  | .skeinPatch => true
  | .launch => true
  | .launchAt => true
  | .replay => true
  | .cancel => true
  | .stopAt => true
  | .resume => true
  | .syncSet => true
  | .syncWait => true
  | .syncAlloc => true
  | .syncFree => true
  | .chanOpen => true
  | .chanClose => true
  | .chanReset => true
  | .moeTableLoad => true
  | .moeTableUnload => true
  | .moeStats => true
  | .fabricPlanLoad => true
  | .routeLoad => true
  | .spareMap => true
  | .linkAccept => true
  | .clipAt => true
  | .clipAbort => true
  | .restore => true
  | .loopbackSet => true
  | .selftest => true
  | .fwLoad => true
  | .debugUnlock => true
  | .query => true
  | .deviceReset => true
  | .deviceResetEntry => true
  | .doorbell queue _ _ stores => decide (queue < 64) && storesWf stores
  | .fetcherGrant => true
  | .fetchAttempt => true
  | .fetchSliceEnd => true
  | .checkEnd queue => decide (queue < 64)
  | .frontEndChecks queue => decide (queue < 64)
  | .haltReply queue => decide (queue < 64)
  | .replyWrite queue => decide (queue < 64)
  | .rplFree queue _ _ => decide (queue < 64)
  | .ringConfiguration queue _ _ _ => decide (queue < 64)
  | .instanceStart ctx tag => decide (ctx < 64) && decide (tag < 2 ^ 32)
  | .delayListRelease list => decide (list < 4)
  | .spindleSelection spindle => decide (spindle < 16)
  | .recordPresentation port => decide (port < 1024)
  | .rampWindow => true
  | .rampGrant => true
  | .yieldRequest port => decide (port < 1024)
  | .sliceEnd spindle => decide (spindle < 16)
  | .engDone port tag stores => decide (port < 1024) && decide (tag < 2 ^ 16) && storesWf stores
  | .engYielded port tag stores => decide (port < 1024) && decide (tag < 2 ^ 16) && storesWf stores
  | .engFault port tag code stores => decide (port < 1024) && decide (tag < 2 ^ 16) && decide (code < 8) && storesWf stores
  | .engSaved port tag stores => decide (port < 1024) && decide (tag < 2 ^ 16) && storesWf stores
  | .taskCompletion => true
  | .deviceSideEnqueue => true
  | .completionEdges => true
  | .signalWordWrite index _ _ => decide (index < 4096)
  | .polledWaitRead ctx skein node => decide (ctx < 64) && decide (skein < 1024) && decide (node < 2 ^ 20)
  | .syncObjectEvaluation => true
  | .pageRefill ctx skein page => decide (ctx < 64) && decide (skein < 1024) && decide (page < 2 ^ 13)
  | .deadline ctx tag node port => decide (ctx < 64) && decide (tag < 2 ^ 32) && decide (node < 2 ^ 20) && decide (port < 1024)
  | .stopCount ctx => decide (ctx < 64)
  | .reelResponse chan tag _ status stores bad =>
    decide (chan < 2) && decide (tag < 256) && decide (status < 4) && storesWf stores && badWf bad
  | .stepExchange table => decide (table < 64)
  | .stepDecide table => decide (table < 64)
  | .stepCommit table => decide (table < 64)
  | .stepRouted table => decide (table < 64)
  | .collectiveStart ctx slot => decide (ctx < 64) && decide (slot < 64)
  | .collectiveExchange ctx slot => decide (ctx < 64) && decide (slot < 64)
  | .collectiveWrite ctx slot => decide (ctx < 64) && decide (slot < 64)
  | .collectiveDone ctx slot => decide (ctx < 64) && decide (slot < 64)
  | .plyFrame arrival => arrival.wf
  | .messageSend chan => decide (chan < 4096)
  | .sendSlotRead chan => decide (chan < 4096)
  | .channelRecord arrival => arrival.wf
  | .recordDelivered chan => decide (chan < 4096)
  | .signalApply chan => decide (chan < 4096)
  | .handlerCreate chan => decide (chan < 4096)
  | .openNotice arrival => arrival.wf
  | .closeNotice arrival => arrival.wf
  | .creditNotice arrival => arrival.wf
  | .sendRefusal arrival => arrival.wf
  | .consumedWordRead chan => decide (chan < 4096)
  | .sigaddFrame arrival => arrival.wf
  | .szSmGrant _ _ => true
  | .grantVerified => true
  | .manualRead _ => true
  | .manualSet _ => true
  | .manualAdd _ => true
  | .manualSignal _ => true
  | .linkLockLoss link => decide (link < 8)
  | .phyUpLocked link => decide (link < 8)
  | .phyUpTimeout link => decide (link < 8)
  | .codewordLock link _ => decide (link < 8)
  | .alignTimeout link => decide (link < 8)
  | .identTimeout link => decide (link < 8)
  | .measureTimeout link => decide (link < 8)
  | .failedRetry link => decide (link < 8)
  | .beaconFrame link frame => decide (link < 8) && frame.wf
  | .beaconSend => true
  | .probeFrame link frame => decide (link < 8) && frame.wf
  | .latencyMeasured link => decide (link < 8)
  | .ackFrame link frame => decide (link < 8) && frame.wf
  | .ackTimer link => decide (link < 8)
  | .unacknowledgedTimeout link => decide (link < 8)
  | .psyncFrame arrival => arrival.wf
  | .psyncTimeout link => decide (link < 8)
  | .retrain link _ _ => decide (link < 8)
  | .oos link _ _ => decide (link < 8)
  | .holdover => true
  | .referenceCandidate => true
  | .clipFrame arrival => arrival.wf
  | .clipCount => true
  | .roundAResult => true
  | .instanceCut ctx tag => decide (ctx < 64) && decide (tag < 2 ^ 32)
  | .roundBStart => true
  | .roundBResult => true
  | .clipSaveDone => true
  | .roundCResult => true
  | .continueCount => true
  | .drainLimit => true
  | .restoreApply => true
  | .resumeCount => true
  | .powerOnReset => true
  | .porstNDeassert => true
  | .sysRstN => true
  | .lockLoss => true
  | .lockRegained => true
  | .clkStart => true
  | .drainEnd => true
  | .keyRead lcsCode slots => decide (lcsCode < 16) && slots.all fun p => decide (p.1 < 256)
  | .memInit => true
  | .driftWindow _ => true
  | .refAbsent => true
  | .powerRequest => true
  | .powerRequestDue ctx tag => decide (ctx < 64) && decide (tag < 2 ^ 32)
  | .powerGrant _ => true
  | .throttleRise => true
  | .throttleFall => true
  | .hedgeSelftestEnd _ => true
  | .healthTestFail => true
  | .tsScanMode => true
  | .watchPeriodEnd => true
  | .stashPtrs _ _ => true
  | .evtPtrs _ _ => true
  | .watchCtrl _ _ => true
  | .rampCtrl _ _ => true
  | .cxPeerSigrange ctx _ _ _ => decide (ctx < 64)
  | .flowrangeDlyCtrl which _ _ => which.wf
  | .slackDefault _ _ => true
  | .clipCtrlCut which _ _ => which.wf
  | .plySlot ctx slot word _ _ => decide (ctx < 64) && decide (slot < 64) && decide (word < 8)
  | .testLoopbackRegisters which _ _ => which.wf
  | .worstDiffRead offset tag _ => decide (offset < 2 ^ 26) && decide (tag < 64)
  | .registerWrite offset _ _ => decide (offset < 0x4000000)
  | .engineWireTimeout port => decide (port < 1024)
  | .selftestEnd _ => true
  | .engineStart port => decide (port < 1024)
  | .uncorrectableCodeword link _ _ => decide (link < 8)
  | .bistInstrument _ => true

end Sys2Proof
end

