-- ==== Sys2Proof/Decode.lean ====
section
/-! DEFINITION. The command that a word spells by the bits of the command table. No row of the table of this hardware
gives bits: a command is an event at a port of the block, and no word spells one. (A packet of the host carries an
opcode in its header, R70; that is decoded where the front end checks it, in Operands.lean.) -/

namespace Sys2Proof

/-- The command a word of `nbits` bits spells: none, for no row of the table gives bits. -/
def decodeTableWord (_nbits _w : Nat) : Option Instr := none

end Sys2Proof
end

