-- ==== Sys2Proof/Config.lean ====
section
/-! DEFINITION. What an implementation fixes: the sizes of the configurations C1 to C4 (Table 00-3, R6, R7), and the
values the spec leaves open, as constants without a body: no proof can see what they are (notes/assumptions/4). -/

namespace Sys2Proof

/-- The four configurations of the macro (R6). -/
inductive Cfg where
  | c1 | c2 | c3 | c4
  deriving DecidableEq, Repr

/-- One of four numbers, by configuration. -/
def Cfg.pick (k : Cfg) (a b c d : Nat) : Nat :=
  match k with
  | .c1 => a
  | .c2 => b
  | .c3 => c
  | .c4 => d

/-- Configuration code (Table 00-3). -/
def Cfg.code (k : Cfg) : Nat := k.pick 1 2 3 4
/-- Engine ports (Table 00-3). -/
def Cfg.enginePorts (k : Cfg) : Nat := k.pick 128 256 512 1024
/-- Spindles (Table 00-3). -/
def Cfg.spindles (k : Cfg) : Nat := k.pick 2 4 8 16
/-- Base-2 logarithm of the resident descriptors (Table 17-4). -/
def Cfg.descLog2 (k : Cfg) : Nat := k.pick 17 18 19 20
/-- Physical synchronisation objects (Table 00-3). -/
def Cfg.syncObjects (k : Cfg) : Nat := k.pick 32768 65536 131072 262144
/-- Message channels (Table 00-3). -/
def Cfg.channels (k : Cfg) : Nat := k.pick 512 1024 2048 4096
/-- Link ports (Table 00-3). -/
def Cfg.linkPorts (k : Cfg) : Nat := k.pick 4 6 8 8
/-- Carder slices (Table 00-3). -/
def Cfg.carderSlices (k : Cfg) : Nat := k.pick 2 4 8 16
/-- Ply canonical-tree FP32 lanes (Table 00-3). -/
def Cfg.plyLanes (k : Cfg) : Nat := k.pick 64 128 256 512
/-- Graph store pages of 4 KiB (Tables 17-5, 17-6). -/
def Cfg.storePages (k : Cfg) : Nat := k.pick 0x400 0x800 0x1000 0x2000
/-- State words of the graph store (Table 05-11). -/
def Cfg.stateWords (k : Cfg) : Nat := k.pick (2 ^ 18) (2 ^ 19) (2 ^ 20) (2 ^ 21)

/-- A free word: the n-th value that the spec leaves open (notes/assumptions/4). -/
opaque Config.freeWord : Nat → W64
/-- A free byte: what a POISON write leaves under its mask (R409; notes/assumptions/4). -/
opaque Config.freeByte : Nat → Byte
/-- A free choice between two outcomes (R338, R409; notes/assumptions/4). -/
opaque Config.freeBool : Nat → Bool
/-- The SHA-384 digest of a byte string, as 12 words of 32 bits (R362). -/
opaque Config.sha384 : List Byte → List W32
/-- ECDSA P-384 verification: public key, digest, signature (R362). -/
opaque Config.ecdsaVerify : List Byte → List W32 → List Byte → Bool
/-- The stream that AES-256-GCM adds to a text: key words, nonce bytes, position (R362, R363). -/
opaque Config.gcmStream : List W32 → List Byte → Nat → Byte
/-- The AES-256-GCM tag: key words, nonce bytes, associated data, text (R362, R363). -/
opaque Config.gcmTag : List W32 → List Byte → List Byte → List Byte → List Byte
/-- Key derivation: the device key and a label with its context bytes (R363). -/
opaque Config.kdf : List W32 → List Byte → List W32
/-- The state from which the PRBS31 sequence of a test stream starts, for a number of it: R383 gives no seed, and R388 does not say how a
64-bit number becomes a state of 31 bits. -/
opaque Config.prbsSeed : Nat → Nat → BitVec 31
/-- Whether the first bit of PRBS31 takes the highest place of a word, or the lowest; the spec does not say (R383). -/
opaque Config.prbsMsb : Bool
/-- On which of the positions of a slice Ply computes a node of a group for a segment (R253): by group, n_leaves, node and segment. -/
opaque Config.plyNode : Nat → Nat → Nat → Nat → Nat → Nat
/-- The pattern of a NaN in E4M3 or E5M2 as the output of MAX or MIN, which R261 and R264 do not give: by format code
(notes/assumptions/4). -/
opaque Config.narrowNan : Nat → Byte
/-- The pattern that stands for an infinity in E4M3, which has none (Table 10-7): by sign (notes/assumptions/4). -/
opaque Config.narrowInf : Bool → Byte
/-- The layout of a QUERY record that the spec does not give: selector and word number choose a word from the listed
figures (R88; notes/assumptions/4). -/
opaque Config.queryWord : Nat → Nat → List Nat → W64

/-- Which of the slots that it uses Serzo asks for at a time in KEY_READ, if any: R44 gives no order and no time. -/
opaque Config.keyTurn : Nat → Option Nat
/-- What LKp_RATE holds while a port that has been in service is PARKED, which R303 does not give: by port and time. -/
opaque Config.parkedRate : Nat → Nat → Nat
/-- What the test port shifts out on TS_TDO and on TS_SO line l: the network's scan registers and the scan chains are not given
(R46, notes/assumptions/103); by line and time. -/
opaque Config.testBit : Nat → Nat → Bool

/-- S_e of the engine on a port, in ECLK: the licensee states it per engine type (R174). -/
opaque Config.engS : Nat → Nat

end Sys2Proof
end

