-- ==== Sys2Proof/Machine/FrontTypes.lean ====
section
/-! DEFINITION. The pieces of the state that belong to reset, clocks, power, the queues, replies, the Reel port, the
event log and the stash (02, 03, 04, 13, 15). Plain data. -/

namespace Sys2Proof.Machine

/-- The reset states of Table 02-5. -/
inductive Phase where
  | hold | clkStart | drain | keyRead | memInit | boot | run
  deriving DecidableEq, Repr

/-- The states of Hedge (Table 15-14). -/
inductive HgState where
  | keys | selftest | ready | booted | error | dead
  deriving DecidableEq, Repr

/-- The lifecycle states of Table 01-17. -/
inductive Lcs where
  | manufacture | development | locked | decommissioned
  deriving DecidableEq, Repr

/-- The key store of Hedge (Table 01-16, R361): zeroed is the empty list. -/
structure Keys where
  fwKey  : List W32
  devKey : List W32
  dbgKey : List W32
  floor  : Nat
  deriving DecidableEq, Repr

/-- The part of the state that reset, boot and lifecycle govern (R53 to R60, R361 to R379). -/
structure Sys where
  phase        : Phase
  since        : Nat
  porst        : Bool
  holdLock     : Bool
  resetAt      : Option Nat
  resetCount   : Nat
  lastCause    : Nat
  devResetAt   : Option Nat
  drainOwed    : List (Nat × Nat)
  drainLate    : List (Nat × Nat)
  hg           : HgState
  lcs          : Lcs
  bootFails    : Nat
  fwVersion    : Nat
  secVersion   : Nat
  keys         : Keys
  unlockNet    : Bool
  unlockScan   : Bool
  scanned      : Bool
  unlockAt     : Option Nat
  scanRise     : Option Nat
  repairs      : Nat
  bistResult   : Option (Bool × Nat)
  deriving DecidableEq, Repr

/-- The status codes of Table 03-3a (R74). -/
inductive Status where
  | ok | accepted | refusedFull | refusedClosed | stateError | engineAbsent | badHandle | badOpcode | badLength
  | badParam | limitExceeded | authFail | isolation | faulted | resetPending
  deriving DecidableEq, Repr

/-- What a check or a command answers: the status and the 24-bit detail of its reply (R73, Table 03-4). -/
structure Verdict where
  status : Status
  detail : Nat
  deriving DecidableEq, Repr

/-- A command packet as whole words, header included (R70). -/
abbrev Packet := List W64

/-- What an instance whose final reply is finalised still holds until that reply is written, for until then it is unfinished (R91):
its skein, its power figure (R68), the addresses of the memory bytes written for it (R338), and what it has reserved. -/
structure RunRest where
  skein     : Nat
  figure    : Nat
  wrote     : List Nat
  handleIdx : List Nat
  delayRes  : List Nat
  watchRes  : Nat
  storeRes  : Nat
  deriving DecidableEq, Repr

/-- A reply that has been finalised (R73, R75). `irq`: a final reply of a packet with the IRQ flag; `gives`: the front
packet of the queue gives way when it is written (R98); `rest`: of the final reply of a run, what is kept until it is
written; `halts`: the reply of a packet that has halted the fetch, after which q_fault is set (R107). -/
structure Reply where
  tag    : Nat
  status : Status
  detail : Nat
  count  : Nat
  final  : Bool
  irq    : Bool
  gives  : Bool
  rest   : Option RunRest := none
  halts  : Bool := false
  deriving DecidableEq, Repr

/-- The fetch states of Table 04-10. -/
inductive FetchState where
  | off | idle | armed | fetch | check | room | halted
  deriving DecidableEq, Repr

/-- Where the packet that a queue is working on stands (R98, R109): none, offered to the control processor, held by a
SYNC_WAIT on an object or on a signal word, held until an unfinished run with that tag of that context has its final
reply (CANCEL, and CTX_CLOSE of the expert form), held until the replies of the closed context are written, held by a long command, or waiting for its reply to be written. -/
inductive QCur where
  | none
  | offered (p : Packet)
  | syncWait (p : Packet) (vid : Nat)
  | sigWait (p : Packet) (sig : Nat) (threshold : W64)
  | cancelWait (p : Packet) (tag : Nat)
  | closeWait (p : Packet) (target : Nat)
  | closeReply (p : Packet) (target : Nat)
  | working (p : Packet)
  | replying
  deriving DecidableEq, Repr

/-- One of the 64 queues (04). `passedAt`: the PCLK in which the packet that is offered passed step 7 (R109). -/
structure Queue where
  ring    : W64
  reply   : W64
  mirror  : W64
  head    : Nat
  tail    : Nat
  rplTail : Nat
  rplFree : Nat
  p       : Bool
  status  : W64
  fetch   : FetchState
  checkAt : Nat
  buf     : List Packet
  cur     : QCur
  compl   : Nat
  replies : List Reply
  writing : Option Reply
  mirrors : Nat
  haltWith : Option Reply
  passedAt : Nat
  deriving DecidableEq, Repr

/-- The replies of a queue that are not yet written: those finalised, and the one whose write is outstanding. -/
def Queue.unwritten (q : Queue) : List Reply := q.replies ++ q.writing.toList

/-- What instances whose final replies a queue has not yet written still hold. -/
def Queue.rests (q : Queue) : List RunRest := q.unwritten.filterMap (·.rest)

/-- The fetch attempt under way (R104, R106, R108): the words before the sampled tail, how many lines of the packet have been asked
for, and the eight words of each line that has arrived. -/
structure RingFetch where
  avail : Nat
  asked : Nat
  got   : AMap (List W64)
  deriving DecidableEq, Repr

/-- The shared front end (R94, R95, R108, R109). `tookAt`: the PCLK in which a command last took effect. -/
structure FrontEnd where
  ctrl      : W64
  holder    : Option Nat
  grantedAt : Nat
  sliceOver : Bool
  rot       : Nat
  stopped   : Bool
  offered   : List Nat
  fetch     : Option RingFetch
  tookAt    : Option Nat
  deriving DecidableEq, Repr

/-- The context states of R82. -/
inductive CtxState where
  | closed | opened | stopped | halted
  deriving DecidableEq, Repr

/-- The point of an armed STOP_AT (R90). -/
inductive StopPoint where
  | atCount (c : Nat)
  | atNode (skein node : Nat)
  deriving DecidableEq, Repr

/-- An armed STOP_AT (R90): its point and the tag and IRQ flag of its packet. -/
structure StopArm where
  point : StopPoint
  tag   : Nat
  irq   : Bool
  deriving DecidableEq, Repr

/-- A task of an unfinished run: context, run tag, node, and the sequence number of a dynamic task (R145). -/
structure TaskRef where
  ctx  : Nat
  tag  : Nat
  node : Nat
  dyn  : Option Nat
  deriving DecidableEq, Repr

/-- What a Reel request serves, so that its response can be taken (R34, R111, R139, R143). -/
inductive Serves where
  | ringRead (queue : Nat) (line : Nat)
  | reply (queue : Nat) (r : Reply)
  | mirror (queue : Nat) (irq : Bool) (word : W64) (tag : Nat)
  | memWrite (t : TaskRef) (target value : W64)
  | peerWrite (t : TaskRef) (target value : W64)
  | polled (t : TaskRef)
  | stepWrite (table : Nat)
  | collWrite (ctx slot : Nat)
  | chanPayload (chan : Nat)
  | chanHeader (chan : Nat)
  | consumed (chan : Nat)
  | testWrite (chan : Nat) (loc pos : Nat)
  | testRead (chan : Nat) (loc pos : Nat)
  deriving DecidableEq, Repr

/-- A Reel request (R31 to R34): tier, byte address, and for a write the bytes under its mask, a run inside one
64-byte line that begins at the address. A read is of the whole line (R32). -/
structure ReelReq where
  chan   : Nat
  tag    : Nat
  write  : Bool
  tier   : Nat
  addr   : Nat
  data   : List Byte
  serves : Serves
  deriving DecidableEq, Repr

/-- The Reel port: requests outstanding, and requests that wait under R33 or R34. -/
structure Reel where
  out  : List ReelReq
  wait : List ReelReq
  deriving DecidableEq, Repr

/-- The global count and its alignment (11 R273 to R276, 12 R314, R315). `anchors`: counts and the times at which they
were taken, newest first, one after each correction; between them the count follows DCLK. -/
structure GCount where
  count      : Nat
  anchors    : List (Nat × Nat)
  status     : W64
  hold       : Nat
  lastCorr   : Option Nat
  offsets    : List Int
  realign    : Bool
  lastBeacon : Nat
  deriving DecidableEq, Repr

/-- Clock monitoring (Tables 02-1 to 02-3). `winAt`: the DCLK at which the present drift window began (R54); `setAt`,
`before`: the PCLK in which SZ_CLK_DRIFT was last written by a window, and what it held before (R20). -/
structure Clk where
  status : W64
  drift  : W64
  ctrl   : W64
  winAt  : Nat
  setAt  : Option Nat
  before : W64
  deriving DecidableEq, Repr

/-- What waits for a grant of the ramp governor (R63, R64): the rise of ENG_EN, or the first beat of a record. -/
inductive StartKind where
  | enable | beat
  deriving DecidableEq, Repr

/-- A waiting start (R64): the window since which it waits, its engine port, and whether it has failed the budget and
budget_low has said so (R65). -/
structure StartReq where
  window : Nat
  port   : Nat
  kind   : StartKind
  told   : Bool := false
  deriving DecidableEq, Repr

/-- The ramp governor and the power port (R62 to R69). `granted`: the start granted in the present ECLK, which a rise of
PW_THROTTLE in that ECLK withdraws (R69); `fellAt`: the time at which PW_REQ_VALID last fell (R68). -/
structure Pwr where
  ramp       : W64
  status     : W64
  reqValid   : Bool
  reqDropAt  : Option Nat
  sumSent    : Nat
  grantNext  : Option (Nat × Nat)
  windowAt   : Option Nat
  startsUsed : Nat
  grantAt    : Option Nat
  resumeAt   : Option Nat
  granted    : Option StartReq
  fellAt     : Option Nat
  waits      : List StartReq
  deriving DecidableEq, Repr

/-- One record of the event log (R325): its class, its number, the four words, and the DCLK in which it was taken. -/
structure EvtRec where
  cls : Nat
  num : Nat
  w0  : W64
  w1  : W64
  w2  : W64
  w3  : W64
  at_ : Nat
  deriving DecidableEq, Repr

/-- The event log (R325, R326): what entry n mod 1024 was last written with, and its pointers. -/
structure EvtLog where
  recs : AMap EvtRec
  wr   : Nat
  rd   : Nat
  deriving DecidableEq, Repr

/-- Which completion, channel, port or queue waits for a stash entry (R335); a queue with its reply or with its mirror
word, which is followed by an interrupt or not. -/
inductive StashWaiter where
  | task (t : TaskRef)
  | chan (c : Nat)
  | port (p : Nat)
  | queue (q : Nat)
  | mirror (q : Nat) (irq : Bool)
  deriving DecidableEq, Repr

/-- An undeliverable item (Table 13-7), and the DCLK in which it found the stash full (R335). -/
structure StashItem where
  tag    : Nat
  status : Status
  reason : Nat
  source : Nat
  ctx    : Nat
  target : W64
  value  : W64
  at_    : Nat := 0
  deriving DecidableEq, Repr

/-- An entry of the stash as written: the four words of Table 13-7. -/
structure StashEnt where
  w0 : W64
  w1 : W64
  w2 : W64
  w3 : W64
  deriving DecidableEq, Repr

/-- The undeliverable stash (R333 to R335). -/
structure Stash where
  ents    : AMap StashEnt
  wr      : Nat
  rd      : Nat
  status  : W64
  waiting : List (StashItem × StashWaiter)
  deriving DecidableEq, Repr

/-- A write-one-to-clear bit that was set: the PCLK at whose edge the set takes effect, the offset of the register and the bit (R20,
R327). -/
structure SetMark where
  pclk : Nat
  off  : Nat
  bit  : Nat
  deriving DecidableEq, Repr

/-- A register read accepted at the Distaff port and not yet answered (R28): its tag, the value it returns, and the time of its
acceptance. -/
structure RegRead where
  tag  : Nat
  data : W64
  at_  : Nat
  deriving DecidableEq, Repr

/-- The response side of the Distaff port (Table 01-2): the reads not yet answered, oldest first, and the response of the
present PCLK (DF_RSP_VALID, DF_RSP_TAG, DF_RSP_RDATA). -/
structure Distaff where
  reads : List RegRead
  rsp   : Option (Nat × W64)
  deriving DecidableEq, Repr

/-- Fault, stall and watch registers (Tables 13-12 to 13-14, R331). -/
structure Watch where
  fault    : W64
  stall    : W64
  ctrl     : W64
  endAt    : Nat
  deriving DecidableEq, Repr

end Sys2Proof.Machine
end

