-- ==== Sys2Proof/Machine/GraphTypes.lean ====
section
/-! DEFINITION. The pieces of the state that belong to task graphs and to dispatch (05, 06, 11). Plain data. -/

namespace Sys2Proof.Machine

/-- A record of a skein image: 256 bits, word n in bits 64n + 63 to 64n (R126). -/
abbrev Rec256 := BitVec 256

/-- A loaded skein (R125, R132, R133): the header fields, the handle list, every record, the pages resident in the
graph store and how many are reserved, where its spill stands, the salt of its spill key (R363), its replay program
and parameter registers (R150), and its power figure (R68). -/
structure Skein where
  ctx        : Nat
  id         : Nat
  nodeCount  : Nat
  handles    : List Nat
  constLen   : Nat
  enqLimit   : Nat
  hasReplay  : Bool
  replayPrio : Nat
  replaySteps : Nat
  replayAt   : Nat
  recs       : List Rec256
  resident   : List Nat
  reserved   : Nat
  noSpill    : Bool
  spillAt    : Nat
  spillLen   : Nat
  salt       : List Byte
  params     : AMap W64
  figure     : Nat
  deriving DecidableEq, Repr

/-- The task states of Table 05-12. -/
inductive TaskSt where
  | loaded | waiting | ready | issued | running | done | cancelled | faulted
  deriving DecidableEq, Repr

/-- How a task came to be: a head of the launched graph, a dynamic task (R144), a handler task of a message (R247), or
a step of a replay (R150). -/
inductive TaskKind where
  | static | dynamic | handler | replayStep
  deriving DecidableEq, Repr

/-- A task of an unfinished run (R135 to R140, R154 to R180): state, dependence counter, whether a live decrement came,
its wait, ready count and rank, delay-list entry, tile counts in force and per port (records presented, records
returned), tiles held after a yield, what the deadline check has done and whether a clip exempts it (R350), the last TILE
record presented on each port (R283) and the ECLK in which a record last returned on it (R282), its fault, and the DCLK in which it became eligible where it then issues nothing, elided or
with zero tiles (R136). -/
structure Task where
  node      : Nat
  dyn       : Option Nat
  kind      : TaskKind
  arg       : Nat
  tripTop   : Nat
  st        : TaskSt
  ctr       : Nat
  live      : Bool
  elided    : Bool
  armed     : Bool
  satisfied : Bool
  readyAt   : Nat
  rank      : Nat
  delay     : Option (Nat × Nat)
  tiles     : Option Nat
  sent      : AMap Nat
  back      : AMap Nat
  held      : List (Nat × Nat)
  issuedAt  : Option Nat
  dlMissed  : List Nat
  dlTold    : Bool
  exempt    : Bool
  lastTile  : AMap Nat
  backAt    : AMap Nat
  fault     : Option (Status × Nat)
  ripeAt    : Option Nat
  deriving DecidableEq, Repr

/-- What started a run (R87, R150). -/
inductive RunKind where
  | launch | replay
  deriving DecidableEq, Repr

/-- A bound send of a run (R243): the channel and the range of nodes bound to it. -/
structure SendBind where
  chan  : Nat
  first : Nat
  last  : Nat
  deriving DecidableEq, Repr

/-- An unfinished run of a skein: what LAUNCH, LAUNCH_AT and REPLAY create (R87, R91, R93, R120, R123, R281), with its
tasks, its reservations (R139, R146, R160), the flags of its final reply, and its part in a clip (R341, R346); `shifts`: the
local cut count and the shift of each clip that it has come through (R350); `wrote`: the addresses of the memory bytes
written for it, which a reset leaves undefined (R338); `cancelAt`: the DCLK in which a CANCEL took effect on it (R91). -/
structure Run where
  ctx       : Nat
  tag       : Nat
  skein     : Nat
  kind      : RunKind
  irq       : Bool
  start     : Nat
  started   : Bool
  cbuf      : Option (Nat × Nat)
  slackE8   : Nat
  slackEclk : Nat
  halt      : Bool
  checksOff : Bool
  timing    : Bool
  cancelled : Bool
  cancelAt  : Option Nat
  deadline  : Bool
  firstFault : Option (Nat × Nat)
  stopping  : Bool
  dynNext   : Nat
  handleIdx : List Nat
  delayRes  : List Nat
  watchRes  : Nat
  storeRes  : Nat
  figure    : Nat
  counted   : Bool
  binds     : List SendBind
  passed    : List (Nat × Nat)
  cutAt     : Option Nat
  cut       : Bool
  shifts    : List (Nat × Nat)
  pc        : Nat
  steps     : List (List W64)
  wrote     : List Nat
  tasks     : List Task
  deriving DecidableEq, Repr

/-- The steps of a completion (R142) and where it can wait: due, deferred (R189, R243, R259, R346), in the enqueue
step, before or after its action, waiting for an acknowledgement or a stash entry, in its edges. -/
inductive CompStage where
  | due | deferred | enq | action | ack | stash | edges
  deriving DecidableEq, Repr

/-- A completion under way (R142): the DCLK in which it was taken, its task, its stage, the first DCLK in which that
stage may act, whether it is elided, whether its sequence is fully exited (R137), the edges applied, and whether what it
starts (steps, collectives, sends) has been matched (R189, R243, R259). -/
structure Comp where
  d       : Nat
  task    : TaskRef
  skein   : Nat
  stage   : CompStage
  since   : Nat
  elided  : Bool
  exited  : Bool
  applied : Nat
  matched : Bool
  deriving DecidableEq, Repr

/-- An entry of the relocation store (R120): context, table index, the resolved region, or none where a HANDLE_FLUSH
found it no longer resolvable (R121). -/
structure RelocEnt where
  ctx    : Nat
  idx    : Nat
  gen    : Nat
  region : Option (Bool × Nat × Nat)
  deriving DecidableEq, Repr

/-- A watch entry of a polled wait (R139). -/
structure WatchEnt where
  task : TaskRef
  addr : Nat
  next : Nat
  deriving DecidableEq, Repr

/-- An add to a signal word in the present DCLK, with what orders it (R138): a Distaff write, a local add, a ring add. -/
inductive SigAdd where
  | write (sig : Nat) (v : W64)
  | add (sig : Nat) (v : W64)
  deriving DecidableEq, Repr

/-- Why a record was presented, and what its completion belongs to. -/
inductive RecUse where
  | task (t : TaskRef) (tile : Nat)
  | save
  | load
  | wire
  deriving DecidableEq, Repr

/-- A record at an engine port (R171): its bits, its kind, what it serves, when it was selected and presented, and
whether the engine has started it. -/
structure PortRec where
  bits    : BitVec 256
  kind    : Nat
  use     : RecUse
  last    : Bool
  at_     : Nat
  started : Bool
  deriving DecidableEq, Repr

/-- An engine port and its controls (01 R36 to R40, 06): its enable and reset, the record outstanding, the record selected,
whether that waits for a ramp grant, its issue tag, whose context it has latched with how many constants, its bindings
(R167), the DCLK in which a yield was decided (R179), the ECLK edge of its last completion, the DCLK from which it is free after a
withdrawn record (R170), and whether it has had an issue
since its enable rose (R63). -/
structure EngPort where
  en      : Bool
  rstN    : Bool
  rstAt   : Nat
  out     : Option PortRec
  sel     : Option PortRec
  waiting : Bool
  tag     : Nat
  setup   : Option TaskRef
  consts  : Nat
  bind    : Option TaskRef
  bind0   : Option TaskRef
  yield   : Option Nat
  doneAt  : Option Nat
  freeFrom : Nat
  issued  : Bool
  deriving DecidableEq, Repr

/-- A Spindle: its slice holder, the one before it, the end of the slice, the DCLK of its last selection (R113, R168). -/
structure Spindle where
  holder   : Option Nat
  prev     : Nat
  sliceEnd : Nat
  selAt    : Option Nat
  deriving DecidableEq, Repr

/-- The atomic flows: physical flow and holder (R163), flows freed in the present DCLK, and the claimants of free flows in the present
DCLK (R164). -/
structure Flows where
  held   : List (Nat × TaskRef)
  freed  : List Nat
  claims : List (Nat × TaskRef)
  deriving DecidableEq, Repr

/-- The graph store and everything that runs in it (05). -/
structure Graph where
  skeins    : List Skein
  runs      : List Run
  comps     : List Comp
  edgesUsed : Nat
  reloc     : List RelocEnt
  watches   : List WatchEnt
  poll      : W64
  badBanks  : List Nat
  dlyCtrl   : W64
  dlyAt     : AMap Nat
  slack     : W64
  sigs      : AMap W64
  sigAdds   : List SigAdd
  deriving DecidableEq, Repr

/-- Pages withdrawn: the 16 of each bad bank of the graph store (R392). -/
def Graph.badPages (g : Graph) : Nat := 16 * g.badBanks.length

/-- Dispatch (06). -/
structure Disp where
  ports    : AMap EngPort
  spindles : AMap Spindle
  flows    : Flows
  deriving DecidableEq, Repr

end Sys2Proof.Machine
end

