-- ==== Sys2Proof/Machine/ExpertTypes.lean ====
section
/-! DEFINITION. The pieces of the state that belong to expert routing and to synchronisation objects (07, 08).
Plain data. -/

namespace Sys2Proof.Machine

/-- The step states of Table 07-4. -/
inductive StepSt where
  | idle | loc | exchange | decide | commit | routed | abandoned
  deriving DecidableEq, Repr

/-- An expert entry of a table image (Table 07-2). -/
structure ExpertEnt where
  early : Nat
  late  : Nat
  capEn : Bool
  cap   : Nat
  deriving DecidableEq, Repr

/-- The counts of one expert in a step (Table 07-10): T[e], over[e], over[e] - grant[e], n[e]. -/
structure ExpertCnt where
  routed   : Nat
  overCap  : Nat
  dropped  : Nat
  accepted : Nat
  deriving DecidableEq, Repr

/-- A step block (Table 07-10), and the exit results L[s] of the step (R209). -/
structure StepBlock where
  gen        : Nat
  selections : Nat
  nan        : Nat
  exited     : Nat
  pooled     : Nat
  dropped    : Nat
  experts    : List ExpertCnt
  slots      : List Nat
  deriving DecidableEq, Repr

/-- What a token selected: the experts and gates of its filled slots, in slot order (R193, R195). -/
abbrev TokenSel := List (Nat × W32)

/-- The working data of a step (R189 to R199): the route node's task, the DCLK d of its completion and of its entry to
LOCAL, what each token selected, the counts of this chip, the tokens that stay live and those that exit, whether LOCAL is done, the
answer of Ply (totals and prefixes), the block to commit with its dispatch lists, and the DCLK in which its state was entered. -/
structure StepWork where
  task      : TaskRef
  d         : Nat
  entered   : Nat
  sels      : List (Option TokenSel)
  nan       : Nat
  renormBad : Nat
  slotBad   : Nat
  exited    : Nat
  live      : List Bool
  gone      : List Bool
  ready     : Bool
  vec       : List Nat
  totals    : List Nat
  below     : List Nat
  block     : Option StepBlock
  lists     : List (List (W32 × Nat))
  sinceAt   : Nat
  deriving DecidableEq, Repr

/-- A loaded expert table (R186, R187, R190, R204, R213). -/
structure MoeTable where
  ctx        : Nat
  experts    : Nat
  k          : Nat
  scoreFp32  : Bool
  renorm     : Bool
  grouped    : Bool
  groups     : Nat
  topGroups  : Nat
  capacity   : Nat
  pool       : Nat
  lookahead  : Bool
  lookaheadN : Nat
  routeSkein : Nat
  routeNode  : Nat
  nLocal     : Nat
  tileTokens : Nat
  tokBase    : Nat
  plyGroup   : Nat
  threshold  : W32
  mapEn      : Bool
  exitEn     : Bool
  exitReset  : Bool
  mapId      : Nat
  nSeq       : Nat
  scoreAt    : Nat
  dispAt     : Nat
  confAt     : Option Nat
  seqAt      : Option Nat
  statsAt    : Option Nat
  entries    : List ExpertEnt
  deriving DecidableEq, Repr

/-- The page of an expert table: its parameters while loaded, its generation, step, history, the early fetches granted
in the running run with the DCLK of the grant, the early fetch nodes that became eligible in a DCLK before the step's entry to LOCAL
in it was settled (R206), the results that came in the DCLK of a CANCEL or fault (R212), and its registers (Tables 07-12 to 07-16). -/
structure Moe where
  tab     : Option MoeTable
  gen     : Nat
  st      : StepSt
  work    : Option StepWork
  hist    : List StepBlock
  granted : List (Nat × Nat)
  early   : Nat × Nat
  late    : Nat
  evt     : W64
  cnt0    : W64
  cnt1    : W64
  cnt2    : W64
  deriving DecidableEq, Repr

/-- A live map (R188): the context that holds it, the n_local it was taken with, and its bits. -/
structure LiveMap where
  ctx    : Nat
  nLocal : Nat
  bits   : List Bool
  deriving DecidableEq, Repr

/-- A waiter of an object (R221): a task with its skein, or the SYNC_WAIT of a queue, and the condition it waits for. -/
structure SyncWaiter where
  who       : StashWaiter
  skein     : Nat
  equal     : Bool
  threshold : W64
  deriving DecidableEq, Repr

/-- The operations of Table 08-2. -/
inductive SyncOp where
  | set | add | signal
  deriving DecidableEq, Repr

/-- An update of an object in the present DCLK; `rank` gives its place in step 3 of R222: 0 the manual operation, 1 the
command, 2 an action. -/
structure SyncUpd where
  rank : Nat
  op   : SyncOp
  val  : W64
  deriving DecidableEq, Repr

/-- A mapped physical object (R216 to R222): index, owner record, kind, value, waiters in queue order, and of the present DCLK the
updates, the waits armed, the waiters released, and whether R223 counted the release. -/
structure SyncObj where
  phys    : Nat
  ctx     : Nat
  vid     : Nat
  token   : Bool
  value   : W64
  waiters : List SyncWaiter
  upds    : List SyncUpd
  arms    : List SyncWaiter
  out     : List SyncWaiter := []
  counted : Bool := false
  deriving DecidableEq, Repr

/-- The manual-access window (Tables 08-4 to 08-8), the PCLK in which its nonce was last replaced with what it was before (Table 15-7), the token address under verification (R227), and the operation under way, which
waits to read its entry, with SZ_SM_TARGET and SZ_SM_DATA as they stood at its write (R228). -/
structure ManualWin where
  nonce     : W64
  was       : Option (Nat × W64)
  status    : W64
  target    : W64
  data      : W64
  grantAddr : Option Nat
  under     : Option (Nat × W64 × W64) := none
  deriving DecidableEq, Repr

/-- Synchronisation objects and the manual window. -/
structure SyncPart where
  objs   : List SyncObj
  evalAt : Option Nat
  win    : ManualWin
  deriving DecidableEq, Repr

/-- Carder: the tables and the live maps. -/
structure Carder where
  tables : AMap Moe
  maps   : AMap LiveMap
  deriving DecidableEq, Repr

end Sys2Proof.Machine
end

