-- ==== Sys2Proof/Machine/CommTypes.lean ====
section
/-! DEFINITION. The pieces of the state that belong to message channels, to Ply and to the ring fabric (09, 10, 12).
Plain data. -/

namespace Sys2Proof.Machine

/-- The send-end states of Table 09-4. -/
inductive TxSt where
  | noReader | opened | closed
  deriving DecidableEq, Repr

/-- A record that waits to be sent, or that was sent and is not yet known delivered or refused (R243): its task, its
index in the slot, whether its turn has come and it had to wait, whether that wait was counted as a stall, and the record. -/
structure TxRec where
  task    : TaskRef
  index   : Nat
  tried   : Bool
  stalled : Bool
  msg     : MsgRec
  deriving DecidableEq, Repr

/-- An open send end (R233, R240 to R244): its route, the reader it sees, the tasks whose slots are still to be read with the
DCLK of their deferral, the records waiting, and the records out with the epoch they carried. -/
structure ChanTx where
  ctx       : Nat
  st        : TxSt
  destPos   : Nat
  destChan  : Nat
  skein     : Nat
  slotLog2  : Nat
  first     : Nat
  last      : Nat
  areaAt    : Nat
  areaLen   : Nat
  stallLimit : Nat
  ringLog2  : Nat
  epoch     : Nat
  wr        : Nat
  consumed  : Nat
  delivered : Nat
  sentRecs  : Nat
  reason    : Nat
  slots     : List (Nat × TaskRef)
  waiting   : List TxRec
  sent      : List (Nat × TxRec)
  deriving DecidableEq, Repr

/-- Where a record stands at the receive end (R238, R245, R247). -/
inductive RxStage where
  | queued | payload | header | written | handler
  deriving DecidableEq, Repr

/-- A record at the receive end: its place in the ring, the pad before it, its stage, whether its hold was counted,
and the DCLK since which its fence is seen met. -/
structure RxRec where
  pad    : Nat
  offset : Nat
  seq    : Nat
  stage  : RxStage
  heldIt : Bool
  metAt  : Option Nat
  msg    : MsgRec
  deriving DecidableEq, Repr

/-- An open receive end (R233, R236 to R247). `due`: a read of the consumed word is owed beside the polls. -/
structure ChanRx where
  ctx      : Nat
  srcPos   : Nat
  srcChan  : Nat
  skein    : Nat
  handlers : List Nat
  consAt   : Nat
  ringAt   : Nat
  ringLog2 : Nat
  wr       : Nat
  consumed : Nat
  seqNext  : Nat
  recs     : List RxRec
  dlvd     : Nat
  nextPoll : Nat
  polling  : Bool
  due      : Bool
  deriving DecidableEq, Repr

/-- A receive end in the DCLK of its close (R239, R241): the end, its epoch, the reason, and the messages that arrived after the
close, each by the position, channel and epoch it came with. -/
structure ChanEnd where
  rx     : ChanRx
  epoch  : Nat
  reason : Nat
  late   : List (Nat × Nat × Nat)
  deriving DecidableEq, Repr

/-- A channel: its two ends, a receive end that closes in this DCLK, the last epoch and close reason of the receive end, its
counters and flags. -/
structure Chan where
  tx       : Option ChanTx
  rx       : Option ChanRx
  closing  : Option ChanEnd
  epoch    : Nat
  lastReason : Nat
  txMsgs   : Nat
  txBytes  : Nat
  refused  : Nat
  stalls   : Nat
  rxMsgs   : Nat
  rxBytes  : Nat
  discarded : Nat
  held     : Nat
  evt      : W64
  deriving DecidableEq, Repr

/-- The collective states of Table 10-5. -/
inductive CollSt where
  | idle | loc | exchange | write | done | abandoned
  deriving DecidableEq, Repr

/-- The working data of a collective (R259 to R267): its trigger, the DCLK d, whether this chip contributes, the length
a binding gives, the rows out of range on this chip, its flags, the root elements that were absent, the entries that lost a
collision, whether the status line is still to be written, the terms of the held leaves of a PREFIX, and the DCLK in which it
reached DONE. -/
structure CollWork where
  task    : TaskRef
  d       : Nat
  absent  : Bool
  len     : Nat
  oob     : Nat
  flags   : Nat
  empties : Nat
  collide : Nat
  status  : Bool
  own     : List (List Partial)
  endedAt : Option Nat
  deriving DecidableEq, Repr

/-- A contribution held (R268): the position that sent it, none for this chip's own, and the DCLK in which it came. -/
structure PlyHeld where
  msg   : PlyMsg
  src   : Option Nat
  since : Nat
  deriving DecidableEq, Repr

/-- The run of a slot: state, generation, working data (R260). -/
structure CollRun where
  st   : CollSt
  gen  : Nat
  work : Option CollWork
  deriving DecidableEq, Repr

/-- The Ply page of a context (R255, R272): the words of its slots, their runs, flags and counters. -/
structure PlyPage where
  slots : AMap (AMap W64)
  runs  : AMap CollRun
  flags : W64
  cnt0  : W64
  cnt1  : W64
  cnt2  : W64
  cnt3  : W64
  deriving DecidableEq, Repr

/-- A port entry of the plan (Table 12-2). -/
structure PlanPort where
  present : Bool
  role    : Nat
  nbrPort : Nat
  lanes   : Nat
  rate    : Nat
  asym    : Int
  deriving DecidableEq, Repr

/-- The plan in force (Tables 12-1, 12-2). -/
structure Plan where
  rev      : Nat
  domain   : Nat
  self     : Nat
  nAxes    : Nat
  dims     : List Nat
  spares   : List (List Nat)
  refs     : List Nat
  datelines : List Nat
  ports    : List PlanPort
  deriving DecidableEq, Repr

/-- A route entry (Table 12-10). -/
structure RouteEnt where
  valid   : Bool
  transit : Bool
  role    : Nat
  deriving DecidableEq, Repr

/-- A Ply group entry (Table 10-1). -/
structure GroupEnt where
  group   : Nat
  ctx     : Nat
  nLeaves : Nat
  first   : Nat
  count   : Nat
  deriving DecidableEq, Repr

/-- The routing image in force (Tables 12-9, 12-10, 10-1). -/
structure Route where
  sliceEn : Bool
  sliceId : Nat
  ctxMask : W64
  lens    : List Nat
  starts  : List Nat
  table   : List RouteEnt
  groups  : List GroupEnt
  deriving DecidableEq, Repr

/-- The link states of Table 12-6. -/
inductive LinkSt where
  | parked | phyUp | align | ident | held | measure | active | failed
  deriving DecidableEq, Repr

/-- One virtual lane of a port (R301): the next sequence number sent, the one expected, the frames sent and not
acknowledged, the frames waiting to be sent, the run of NAKs of one number, and whether a missing frame has been
reported. -/
structure LinkLane where
  nextSeq : Nat
  expect  : Nat
  replay  : List Frame
  waiting : List Frame
  nakSeq  : Nat
  nakRun  : Nat
  gap     : Bool
  deriving DecidableEq, Repr

/-- A link port (12). `locked`: codeword lock on every planned lane; `looped`: a loop-back is set on it, and `testLane`
is the lane of its test frames (R388). `wasBroken`: FAILED or HELD at the end of the previous DCLK (R317). -/
structure Link where
  st       : LinkSt
  kind     : Nat
  role     : Nat
  obsPos   : Nat
  obsPort  : Nat
  peerPort : Nat
  farTaken : Bool
  taken    : Bool
  accepted : Option (Nat × Nat)
  lanes    : Nat
  rate     : Nat
  retrains : Nat
  latency  : Nat
  cnt0     : W64
  cnt1     : W64
  cnt2     : W64
  oos      : Bool
  since    : Nat
  vl0      : LinkLane
  vl1      : LinkLane
  vl2      : LinkLane
  vl3      : LinkLane
  ackDue   : List Nat
  ackSince : Option Nat
  unackAt  : Option Nat
  probes   : List Nat
  probeNext : Nat
  beacon   : Option Beacon
  ctlOut   : List Frame
  pleach   : Bool
  psyncAt  : Option Nat
  wasActive : Bool
  wasBroken : Bool
  locked   : Bool
  looped   : Bool
  testLane : LinkLane
  deriving DecidableEq, Repr

/-- The fabric of the chip (12). `fresh`: frames created in this DCLK (R321); `inbox`: frames for this chip itself that no row has taken yet (R310); `held`: frames
whose role no port has at present, with role and lane; `plyHeld`: contributions that arrived (R268); `beaconAt`: the
multiple of 4,096 at which beacons were last sent (R304). -/
structure Fabric where
  plan     : Option Plan
  planAt   : Nat
  route    : Option Route
  spareMap : List (Nat × Nat)
  hops     : Nat
  refIdx   : Nat
  parent   : Option Nat
  isRef    : Bool
  refQuiet : Nat
  evt      : W64
  cnt      : W64
  fresh    : List Frame
  inbox    : List Frame
  held     : List (Nat × Nat × Frame)
  ports    : AMap Link
  plyHeld  : List PlyHeld
  beaconAt : Option Nat
  deriving DecidableEq, Repr

end Sys2Proof.Machine
end

