-- ==== Sys2Proof/Machine/ClipTypes.lean ====
section
/-! DEFINITION. Contexts, and the pieces of the state that belong to clips and to test (03 R82, 04, 13, 14, 16).
Plain data. -/

namespace Sys2Proof.Machine

/-- A context (R82, R405): its settings, range registers, determinism registers, cut entries, armed STOP_AT, and the
progress counters of its queue (R329, R331). -/
structure Ctx where
  st          : CtxState
  spindleMask : Nat
  handleLog2  : Nat
  syncLog2    : Nat
  prioCeiling : Nat
  owner       : Bool
  sliceLen    : Nat
  htab        : W64
  stab        : W64
  chanQuota   : Nat
  syncQuota   : Nat
  peer        : W64
  sigrange    : W64
  flowrange   : W64
  ndc         : Nat
  det         : W64
  cuts        : AMap W64
  stop        : Option StopArm
  cmds        : Nat
  tasks       : Nat
  assigns     : Nat
  stallRun    : Nat
  hasWork     : Bool
  progressed  : Bool
  stallTold   : Bool
  deriving DecidableEq, Repr

/-- What a clip saves of one context (R230, R354); a channel with its epoch. -/
structure CtxSave where
  num    : Nat
  regs   : Ctx
  cur    : QCur
  skeins : List (Nat × Nat)
  runs   : List Run
  comps  : List Comp
  objs   : List SyncObj
  chans  : List (Nat × Nat × Option ChanTx × Option ChanRx)
  tables : List (Nat × Moe)
  maps   : List (Nat × LiveMap)
  ply    : PlyPage
  deriving DecidableEq, Repr

/-- The sections of a blob (R354): the saved contexts, the frame counters and the local cut count. -/
structure ClipSave where
  ctxs     : List CtxSave
  tx       : W64
  rx       : W64
  localCut : Nat
  deriving DecidableEq, Repr

/-- The phases of Table 14-1 (and RESTORE, Table 14-8). -/
inductive ClipPhase where
  | armed | agree | cutting | drain | save | confirm | cont
  deriving DecidableEq, Repr

/-- A clip from CLIP_AT to its final reply (R343 to R352). `ports`: the saved ports that have not returned SAVED, each with
the address and the lines of its area; `engOff`, `text`, `areas`: where the areas begin, the encrypted sections and what
the areas held; `tx`, `rx`: the frame counters saved; `owed`: this chip's contribution to the coming round is still to be made. -/
structure ClipRun where
  phase    : ClipPhase
  count    : Nat
  mask     : W64
  blobAt   : Nat
  blobLen  : Nat
  limit    : Nat
  tag      : Nat
  irq      : Bool
  round    : Nat
  roundAt  : Nat
  owed     : Bool
  heard    : List ClipMsg
  sentUp   : Bool
  result   : Option ClipMsg
  targets  : List (Nat × Nat)
  cutCtxs  : List Nat
  localCut : Nat
  ports    : List (Nat × Nat × Nat)
  savedPorts : List Nat
  iv       : List Byte
  engOff   : Nat
  nSec     : Nat
  text     : List Byte
  areas    : List Byte
  tx       : W64
  rx       : W64
  reason   : Nat
  saveEnd  : Nat
  sliceOk  : Bool
  contAt   : Nat
  deriving DecidableEq, Repr

/-- A RESTORE from its acceptance to its final reply (R356, R357). -/
structure RestoreRun where
  mask    : W64
  blobAt  : Nat
  count   : Nat
  resume  : Nat
  tag     : Nat
  irq     : Bool
  ports   : List (Nat × Nat × Nat)
  applied : Bool
  save    : ClipSave
  deriving DecidableEq, Repr

/-- Clip registers and the running clip or restore (Tables 14-7 to 14-9). -/
structure ClipPart where
  ctrl    : W64
  status  : W64
  tx      : W64
  rx      : W64
  run     : Option ClipRun
  restore : Option RestoreRun
  deriving DecidableEq, Repr

/-- Registers of Hedge that are no part of boot (Tables 15-9 to 15-13). `was`: the PCLK in which the nonce was last replaced, and what
it was before (Table 15-7). -/
structure HedgePart where
  evt       : W64
  nonce     : W64
  was       : Option (Nat × W64)
  blobCount : Nat
  keyBlank  : Bool
  deriving DecidableEq, Repr

/-- A running SELFTEST (R391). -/
structure SelfRun where
  sel : Nat
  tag : Nat
  irq : Bool
  atTime : Nat
  deriving DecidableEq, Repr

/-- Loop-backs and tests (16). `reelBuf`: the lines of the buffers in which the boundary depth turns requests around (R385). -/
structure TestPart where
  echoOn    : Bool
  echo      : AMap W64
  reel      : W64
  reelDepth : AMap Nat
  reelCnt   : AMap W64
  reelPos   : AMap Nat
  reelBuf   : AMap (List Byte)
  stub      : W64
  engDepth  : AMap Nat
  eng0      : AMap W64
  eng1      : AMap W64
  wireTurn  : AMap Nat
  linkDepth : AMap Nat
  link0     : AMap W64
  linkTx    : AMap Nat
  linkRx    : AMap Nat
  linkBad   : AMap W64
  linkNext  : AMap Nat
  result    : W64
  self      : Option SelfRun
  deriving DecidableEq, Repr

end Sys2Proof.Machine

namespace Sys2Proof

/-- The bytes of the sections of a blob: the spec does not publish their layout (R354; notes/assumptions/4). -/
opaque Config.encodeSections : Machine.ClipSave → List Byte
/-- What the sections of a blob say when they are read back (R354, R356; notes/assumptions/4). -/
opaque Config.decodeSections : List Byte → Option Machine.ClipSave

end Sys2Proof
end

