-- ==== Sys2Proof/Machine/State.lean ====
section
/-! DEFINITION. The state of the block, its reset value, and why a step can stop. Plain data: every piece of state the
spec names is a field here or in the type files it imports. INVENTORY.md lists each with its rule. -/

namespace Sys2Proof.Machine

/-- Everything but the lifecycle part and the command queue. `free` counts the free values drawn so far (the model's
own field; notes/assumptions/4); `now` is the time in RCLK (R50). -/
structure Core where
  cfg        : Cfg
  build      : Nat
  engPresent : List Bool
  now        : Nat
  free       : Nat
  mem        : List Host.Cell
  badLines   : List (Nat × Nat)
  df         : Distaff
  sets       : List SetMark
  reel       : Reel
  gc         : GCount
  clk        : Clk
  pwr        : Pwr
  queues     : AMap Queue
  fe         : FrontEnd
  ctxs       : AMap Ctx
  graph      : Graph
  disp       : Disp
  sync       : SyncPart
  moe        : Carder
  chans      : AMap Chan
  ply        : AMap PlyPage
  fab        : Fabric
  evt        : EvtLog
  stash      : Stash
  watch      : Watch
  clip       : ClipPart
  hedge      : HedgePart
  tl         : TestPart
  deriving DecidableEq, Repr

/-- The state of the block. `pending`: the commands that wait, first in, first out. -/
structure State where
  sys     : Sys
  core    : Core
  pending : List Instr
  deriving DecidableEq, Repr

/-- Why a step can fault: nothing of this block stops on its own (R328); every fault the spec gives is a record, a flag,
a reply or a task state. -/
inductive Fault where
  /-- No step raises it. Safe: it stands here because the type needs a constructor. -/
  | none
  deriving DecidableEq, Repr

/-- Why a step can be refused. -/
inductive Refusal where
  /-- Raised by the arm of a command that has no meaning yet, by name. Safe. -/
  | notModelled (mnemonic : String)
  deriving DecidableEq, Repr

/-- A queue as a reset leaves it (Tables 04-3 to 04-8, R101). -/
def Queue.reset : Queue :=
  { ring := 0, reply := 0, mirror := 0, head := 0, tail := 0, rplTail := 0, rplFree := 0, p := false,
    status := 0x50, fetch := .off, checkAt := 0, buf := [], cur := .none, compl := 0, replies := [],
    writing := none, mirrors := 0, haltWith := none, passedAt := 0 }

/-- The front end as a reset leaves it (Table 04-9). The spec gives the rotation pointer of R108 no reset value: it stands at queue 0
(DESIGN CHOICE, notes/assumptions/84). -/
def FrontEnd.reset : FrontEnd :=
  { ctrl := 0x10, holder := none, grantedAt := 0, sliceOver := false, rot := 0, stopped := false, offered := [], fetch := none,
    tookAt := none }

/-- A context as a reset leaves it (R82, Tables 17-11 to 17-13, 11-9). -/
def Ctx.reset : Ctx :=
  { st := .closed, spindleMask := 0, handleLog2 := 0, syncLog2 := 0, prioCeiling := 0, owner := false, sliceLen := 0,
    htab := 0, stab := 0, chanQuota := 0, syncQuota := 0, peer := 0, sigrange := 0, flowrange := 0, ndc := 0,
    det := 0x8, cuts := [], stop := none, cmds := 0, tasks := 0, assigns := 0, stallRun := 0, hasWork := false,
    progressed := false, stallTold := false }

/-- A Ply page as a reset leaves it (R255, R272). -/
def PlyPage.reset : PlyPage :=
  { slots := [], runs := [], flags := 0, cnt0 := 0, cnt1 := 0, cnt2 := 0, cnt3 := 0 }

/-- A collective run that has not begun (R260). -/
def CollRun.reset : CollRun := { st := .idle, gen := 0, work := none }

/-- An expert table page with nothing loaded (R215). -/
def Moe.reset : Moe :=
  { tab := none, gen := 0, st := .idle, work := none, hist := [], granted := [], early := (0, 0), late := 0, evt := 0,
    cnt0 := 0, cnt1 := 0, cnt2 := 0 }

/-- A channel with no end open (R250). -/
def Chan.reset : Chan :=
  { tx := none, rx := none, closing := none, epoch := 0, lastReason := 0, txMsgs := 0, txBytes := 0, refused := 0, stalls := 0,
    rxMsgs := 0, rxBytes := 0, discarded := 0, held := 0, evt := 0 }

/-- A virtual lane with nothing sent (R301). -/
def LinkLane.reset : LinkLane :=
  { nextSeq := 0, expect := 0, replay := [], waiting := [], nakSeq := 0, nakRun := 0, gap := false }

/-- A parked link port (Tables 12-6, 12-17). -/
def Link.reset : Link :=
  { st := .parked, kind := 0, role := 0xF, obsPos := 0, obsPort := 0, peerPort := 0, farTaken := false,
    taken := false, accepted := none, lanes := 0, rate := 0, retrains := 0, latency := 0, cnt0 := 0, cnt1 := 0,
    cnt2 := 0, oos := false, since := 0, vl0 := .reset, vl1 := .reset, vl2 := .reset, vl3 := .reset,
    ackDue := [], ackSince := none, unackAt := none, probes := [], probeNext := 0, beacon := none, ctlOut := [],
    pleach := false, psyncAt := none, wasActive := false, wasBroken := false, locked := false, looped := false, testLane := .reset }

/-- The fabric with no plan (R298, Tables 12-13 to 12-16). -/
def Fabric.reset : Fabric :=
  { plan := none, planAt := 0, route := none, spareMap := [], hops := 0xFF, refIdx := 0, parent := none,
    isRef := false, refQuiet := 0, evt := 0x7F0000, cnt := 0, fresh := [], inbox := [], held := [], ports := [], plyHeld := [],
    beaconAt := none }

/-- An engine port in reset (R40, R175). -/
def EngPort.reset : EngPort :=
  { en := false, rstN := false, rstAt := 0, out := none, sel := none, waiting := false, tag := 0,
    setup := none, consts := 0, bind := none, bind0 := none, yield := none, doneAt := none,
    freeFrom := 0, issued := false }

/-- A Spindle with no slice (R113). -/
def Spindle.reset : Spindle := { holder := none, prev := 63, sliceEnd := 0, selAt := none }

/-- The graph part after reset (Tables 05-20, 06-12, 11-7). -/
def Graph.reset : Graph :=
  { skeins := [], runs := [], comps := [], edgesUsed := 0, reloc := [], watches := [], poll := 0x64, badBanks := [],
    dlyCtrl := 0x2D6B, dlyAt := [], slack := 0x10001000, sigs := [], sigAdds := [] }

/-- Loop-backs and tests after reset (Tables 16-5 to 16-11). -/
def TestPart.reset : TestPart :=
  { echoOn := false, echo := [], reel := 0, reelDepth := [], reelCnt := [], reelPos := [], reelBuf := [], stub := 0x40,
    engDepth := [], eng0 := [], eng1 := [], wireTurn := [], linkDepth := [], link0 := [], linkTx := [], linkRx := [],
    linkBad := [], linkNext := [], result := 0, self := none }

/-- The lifecycle part at power-on reset (R56, R361, Tables 02-4, 15-9). -/
def Sys.reset : Sys :=
  { phase := .hold, since := 0, porst := true, holdLock := false, resetAt := none,
    resetCount := 0, lastCause := 1, devResetAt := none, drainOwed := [], drainLate := [], hg := .keys,
    lcs := .manufacture, bootFails := 0, fwVersion := 0, secVersion := 0,
    keys := { fwKey := [], devKey := [], dbgKey := [], floor := 0 }, unlockNet := false, unlockScan := false,
    scanned := false, unlockAt := none, scanRise := none, repairs := 0, bistResult := none }

/-- Everything else at power-on reset, as the Reset columns give it (R401). The configuration and the build number are
constants of the macro (DESIGN CHOICE C4 and 0, notes/assumptions/5); the two nonces are drawn by Hedge (free values,
notes/assumptions/4). -/
def Core.reset : Core :=
  { cfg := .c4, build := 0, engPresent := [], now := 0, free := 2, mem := [], badLines := [],
    df := { reads := [], rsp := none }, sets := [],
    reel := { out := [], wait := [] },
    gc := { count := 0, anchors := [], status := 0x8, hold := 0, lastCorr := none, offsets := [], realign := false, lastBeacon := 0 },
    clk := { status := 0, drift := 0, ctrl := 0x3470006, winAt := 0, setAt := none, before := 0 },
    pwr := { ramp := 0x0A02080000190010, status := 0x1, reqValid := false, reqDropAt := none, sumSent := 0,
             grantNext := none, windowAt := none, startsUsed := 0, grantAt := none, resumeAt := none, granted := none,
             fellAt := none, waits := [] },
    queues := [], fe := .reset, ctxs := [], graph := .reset,
    disp := { ports := [], spindles := [], flows := { held := [], freed := [], claims := [] } },
    sync := { objs := [], evalAt := none,
              win := { nonce := Config.freeWord 0, was := none, status := 0x40, target := 0, data := 0, grantAddr := none } },
    moe := { tables := [], maps := [] }, chans := [], ply := [], fab := .reset,
    evt := { recs := [], wr := 0, rd := 0 },
    stash := { ents := [], wr := 0, rd := 0, status := 0xC, waiting := [] },
    watch := { fault := 0x700, stall := 0, ctrl := 0x11E03E8, endAt := 0 },
    clip := { ctrl := 0x059682F000100100, status := 0x10, tx := 0, rx := 0, run := none, restore := none },
    hedge := { evt := 0x3F00, nonce := Config.freeWord 1, was := none, blobCount := 0, keyBlank := false },
    tl := .reset }

/-- The block right after power-on reset (R56, R401): in HOLD with PORST_N asserted. -/
def State.reset : State := { sys := .reset, core := .reset, pending := [] }

end Sys2Proof.Machine
end

