-- ==== Sys2Proof/Machine/Ops.lean ====
section
/-! DEFINITION. The named operations that every meaning is built from: maps, bit fields, memory in its canonical form,
the event log (R323 to R326), the stash (R333 to R335), the Reel port (R31 to R34), free values, and small accessors
of the state. -/

namespace Sys2Proof.Machine

/-! Maps -/

/-- What a map holds at a key. -/
def aget {α : Type} : AMap α → Nat → Option α
  | [], _ => none
  | (k, v) :: r, n => if k = n then some v else aget r n

/-- What a map holds at a key, or a default. -/
def agetD {α : Type} (m : AMap α) (n : Nat) (d : α) : α := (aget m n).getD d

/-- A map with one key set. -/
def aset {α : Type} : AMap α → Nat → α → AMap α
  | [], n, v => [(n, v)]
  | (k, w) :: r, n, v => if k = n then (k, v) :: r else (k, w) :: aset r n v

/-- A map without a key. -/
def adel {α : Type} : AMap α → Nat → AMap α
  | [], _ => []
  | (k, w) :: r, n => if k = n then adel r n else (k, w) :: adel r n

/-! Bit fields -/

/-- The field of `len` bits from bit `lo` of a word. -/
def fld (w : W64) (lo len : Nat) : Nat := w.toNat / 2 ^ lo % 2 ^ len

/-- One bit of a word. -/
def bitAt (w : W64) (i : Nat) : Bool := w.getLsbD i

/-- The mask of a field. -/
def fldMask (lo len : Nat) : W64 := BitVec.ofNat 64 ((2 ^ len - 1) * 2 ^ lo)

/-- A word with one field replaced. -/
def setFld (w : W64) (lo len v : Nat) : W64 :=
  (w &&& ~~~fldMask lo len) ||| BitVec.ofNat 64 (v % 2 ^ len * 2 ^ lo)

/-- A word with one bit replaced. -/
def setBit (w : W64) (i : Nat) (b : Bool) : W64 := setFld w i 1 (if b then 1 else 0)

/-- A field increased, saturating at its largest value (R20). -/
def satAdd (w : W64) (lo len n : Nat) : W64 := setFld w lo len (min (fld w lo len + n) (2 ^ len - 1))

/-- A 64-bit number increased, saturating. -/
def sat64 (a n : Nat) : Nat := min (a + n) (2 ^ 64 - 1)

/-- A 32-bit number increased, saturating. -/
def sat32 (a n : Nat) : Nat := min (a + n) (2 ^ 32 - 1)

/-- A number as a register word. -/
def w64 (n : Nat) : W64 := BitVec.ofNat 64 n

/-- A number from a Bool. -/
def b2n (b : Bool) : Nat := if b then 1 else 0

/-- A flag in its place in a word. -/
def bitW (i : Nat) (b : Bool) : Nat := b2n b * 2 ^ i

/-- The difference of two 32-bit free-running counts (R102). -/
def diff32 (a b : Nat) : Nat := (a + 2 ^ 32 - b % 2 ^ 32) % 2 ^ 32

/-- A difference in two's complement of `len` bits. -/
def twos (len : Nat) (i : Int) : Nat := (i % (2 ^ len : Nat)).toNat

/-- A field read as a signed number. -/
def signed (len v : Nat) : Int := if v < 2 ^ (len - 1) then (v : Int) else (v : Int) - (2 ^ len : Nat)

/-- n / d, rounded up. -/
def ceilDiv (n d : Nat) : Nat := (n + d - 1) / d

/-- The first number from a range that satisfies a test. -/
def findBelow (n : Nat) (p : Nat → Bool) : Option Nat := (List.range n).find? p

/-- Replace the first element that satisfies a test. -/
def modifyFirst {α : Type} (p : α → Bool) (f : α → α) : List α → List α
  | [] => []
  | a :: r => if p a then f a :: r else a :: modifyFirst p f r

/-- Remove the first element that satisfies a test. -/
def removeFirst {α : Type} (p : α → Bool) : List α → List α
  | [] => []
  | a :: r => if p a then r else a :: removeFirst p r

/-- Insertion into a list ordered by a comparison: after every element that is not later. -/
def insertBy {α : Type} (before : α → α → Bool) (x : α) : List α → List α
  | [] => [x]
  | a :: r => if before x a then x :: a :: r else a :: insertBy before x r

/-- Insert before the first element that does not come before it. -/
def insertFirst {α : Type} (before : α → α → Bool) (x : α) : List α → List α
  | [] => [x]
  | a :: r => if before a x then a :: insertFirst before x r else x :: a :: r

/-- A list put in the order of a comparison; elements of which neither comes before the other keep their order. -/
def sortBy {α : Type} (before : α → α → Bool) : List α → List α
  | [] => []
  | a :: r => insertFirst before a (sortBy before r)

/-- Lexicographic order of two lists of keys: strictly before. -/
def keysLt : List Nat → List Nat → Bool
  | [], [] => false
  | [], _ :: _ => true
  | _ :: _, [] => false
  | a :: r, b :: s => if a < b then true else if b < a then false else keysLt r s

/-! Memory -/

/-- The byte a memory holds: 0 where nothing is listed (notes/assumptions/6). -/
def memGet : List Host.Cell → Nat → Byte
  | [], _ => 0
  | (k, v) :: r, a => if k = a then v else memGet r a

/-- A memory with one byte written, in canonical form: addresses rising, no listed zero. -/
def memPut : List Host.Cell → Nat → Byte → List Host.Cell
  | [], a, b => if b = 0 then [] else [(a, b)]
  | (k, v) :: r, a, b =>
    if a < k then (if b = 0 then (k, v) :: r else (a, b) :: (k, v) :: r)
    else if a = k then (if b = 0 then r else (a, b) :: r)
    else (k, v) :: memPut r a b

/-- The canonical form: every listed address is at or above a bound, they rise strictly, and no byte is 0. -/
def memOk : Nat → List Host.Cell → Bool
  | _, [] => true
  | lo, (k, v) :: r => decide (lo ≤ k) && decide (v ≠ 0) && memOk (k + 1) r

/-- The canonical form of a memory. -/
def memWf (m : List Host.Cell) : Bool := memOk 0 m

/-- A run of bytes written from an address upward. -/
def memPutBytes (m : List Host.Cell) (a : Nat) : List Byte → List Host.Cell
  | [] => m
  | b :: r => memPutBytes (memPut m a b) (a + 1) r

/-- A list of cells written in order. -/
def memPutCells (m : List Host.Cell) : List Host.Cell → List Host.Cell
  | [] => m
  | (a, b) :: r => memPutCells (memPut m a b) r

/-- n bytes read from an address upward. -/
def memBytes (m : List Host.Cell) (a : Nat) : Nat → List Byte
  | 0 => []
  | n + 1 => memGet m a :: memBytes m (a + 1) n

/-- The number that bytes spell, little-endian. -/
def bytesNat : List Byte → Nat
  | [] => 0
  | b :: r => b.toNat + 256 * bytesNat r

/-- The first `n` bytes of a number, little-endian. -/
def natBytes : Nat → Nat → List Byte
  | 0, _ => []
  | n + 1, v => BitVec.ofNat 8 v :: natBytes n (v / 256)

/-- The bytes of a word, little-endian. -/
def wordBytes (w : W64) : List Byte := natBytes 8 w.toNat

/-- The 8-byte word at an address. -/
def memWord (m : List Host.Cell) (a : Nat) : W64 := w64 (bytesNat (memBytes m a 8))

/-- n words from an address upward. -/
def memWords (m : List Host.Cell) (a : Nat) : Nat → List W64
  | 0 => []
  | n + 1 => memWord m a :: memWords m (a + 8) n

/-- The end of the address space of tiers 0 and 1 (Table 01-5). -/
def memTop : Nat := 2 ^ 43

/-- Tier 0 or 1 of an address (R172). -/
def tierOf (a : Nat) : Nat := if a < 2 ^ 40 then 0 else 1

/-- Whether n bytes at an address lie wholly in the range of a tier (Table 01-5). -/
def inTier (tier a n : Nat) : Bool :=
  if tier = 0 then decide (a + n ≤ 2 ^ 40)
  else if tier = 1 then decide (2 ^ 40 ≤ a) && decide (a + n ≤ memTop)
  else false

/-- What a read of n bytes at an address is answered with, of the first faulted line among them: 1 DECODE_ERR, 2 POISON (Table 01-6).
A line with code 3 answers its writes with POISON and its reads with OK. -/
def lineFault (bad : List (Nat × Nat)) (a n : Nat) : Option Nat :=
  (bad.find? fun l => l.2 != 3 && decide (a / 64 ≤ l.1) && decide (l.1 * 64 < a + n)).map Prod.snd

/-- The channel of a request (R32). -/
def reelChan (tier addr : Nat) : Nat := if tier = 2 then 0 else addr / 256 % 2

/-- Whether n bytes at an address have a line on a channel (R32). -/
def onChan (a n ch : Nat) : Bool := reelChan 0 a == ch || a / 256 != (a + n - 1) / 256

/-- Whether an access that a step makes to n bytes at an address cannot be issued yet: an earlier write to one of its lines is
unacknowledged (R33), or a channel that it uses has no free tag (R34). -/
def Core.lineHeld (c : Core) (a n : Nat) : Bool :=
  n != 0
    && (((c.reel.out ++ c.reel.wait).any fun o =>
          o.write && o.tier != 2 && decide (a / 64 ≤ o.addr / 64) && decide (o.addr / 64 * 64 < a + n))
        || [0, 1].any fun ch => onChan a n ch && decide (256 ≤ (c.reel.out.filter fun o => o.chan == ch).length))

/-- The answer of an access inside a step that has to wait under R33 or R34: the step as a whole then waits. -/
def heldCode : Nat := 3

/-- n words read for a command or a unit inside one step, as full lines on the channels of R32: the words, or the fault code
(Table 01-6), or that the access has to wait. Beyond the two tiers no memory answers: DECODE_ERR (R31). -/
def Core.readWords (c : Core) (a n : Nat) : Except Nat (List W64) :=
  if memTop < a + 8 * n then .error 1
  else if c.lineHeld a (8 * n) then .error heldCode
  else
    match lineFault c.badLines a (8 * n) with
    | some k => .error k
    | none => .ok (memWords c.mem a n)

/-- n bytes read inside one step: the bytes, the fault code, or that the access has to wait. -/
def Core.readBytes (c : Core) (a n : Nat) : Except Nat (List Byte) :=
  if memTop < a + n then .error 1
  else if c.lineHeld a n then .error heldCode
  else
    match lineFault c.badLines a n with
    | some k => .error k
    | none => .ok (memBytes c.mem a n)

/-- What a write of n bytes inside one step is answered with, none for OK: it has to wait, DECODE_ERR, or POISON (Table 01-6). -/
def Core.writeFault (c : Core) (a n : Nat) : Option Nat :=
  if memTop < a + n then some 1
  else if c.lineHeld a n then some heldCode
  else
    match c.badLines.find? fun l => l.2 != 2 && decide (a / 64 ≤ l.1) && decide (l.1 * 64 < a + n) with
    | some l => some (if l.2 = 1 then 1 else 2)
    | none => none

/-- A receive end whose consumed word lies in some bytes reads it again at once (R236). -/
def ChanRx.written (r : ChanRx) (a len now : Nat) : ChanRx :=
  if a < r.consAt + 8 ∧ r.consAt < a + len then { r with due := true, nextPoll := now } else r

/-- Bytes written by a command inside its step (R78); a polled word or a consumed word among them is due to be read again at
once (R139, R236). -/
def Core.writeBytes (c : Core) (a : Nat) (bs : List Byte) : Core :=
  { c with mem := memPutBytes c.mem a bs,
           graph := { c.graph with watches := c.graph.watches.map fun w =>
             if a < w.addr + 8 ∧ w.addr < a + bs.length then { w with next := c.now } else w }
           chans := c.chans.map fun h => (h.1, { h.2 with rx := h.2.rx.map fun r => r.written a bs.length c.now }) }

/-- Stores of outside agents that have become visible (R33, R102, R141): those inside the address space. A line stored
to no longer answers POISON. -/
def Core.store (c : Core) (cells : List Host.Cell) : Core :=
  let cs := cells.filter fun p => decide (p.1 < memTop)
  { c with mem := memPutCells c.mem cs,
           badLines := c.badLines.filter fun l => !(l.2 == 2 && cs.any fun p => p.1 / 64 == l.1) }

/-- The distance from b to a of two free-running 64-bit counts (R236). -/
def diff64 (a b : Nat) : Nat := (a + 2 ^ 64 - b % 2 ^ 64) % 2 ^ 64

/-! Accessors -/

/-- The time in DCLK since power-on. -/
def Core.dclk (c : Core) : Nat := c.now / 3

/-- Queue n. -/
def Core.queue (c : Core) (n : Nat) : Queue := agetD c.queues n .reset
/-- Queue n replaced. -/
def Core.setQueue (c : Core) (n : Nat) (q : Queue) : Core := { c with queues := aset c.queues n q }
/-- Context n. -/
def Core.ctx (c : Core) (n : Nat) : Ctx := agetD c.ctxs n .reset
/-- Context n replaced. -/
def Core.setCtx (c : Core) (n : Nat) (x : Ctx) : Core := { c with ctxs := aset c.ctxs n x }
/-- Engine port e. -/
def Core.port (c : Core) (e : Nat) : EngPort := agetD c.disp.ports e .reset
/-- Engine port e replaced. -/
def Core.setPort (c : Core) (e : Nat) (p : EngPort) : Core :=
  { c with disp := { c.disp with ports := aset c.disp.ports e p } }
/-- Spindle s. -/
def Core.spindle (c : Core) (s : Nat) : Spindle := agetD c.disp.spindles s .reset
/-- Spindle s replaced. -/
def Core.setSpindle (c : Core) (s : Nat) (x : Spindle) : Core :=
  { c with disp := { c.disp with spindles := aset c.disp.spindles s x } }
/-- Channel n. -/
def Core.chan (c : Core) (n : Nat) : Chan := agetD c.chans n .reset
/-- Channel n replaced. -/
def Core.setChan (c : Core) (n : Nat) (x : Chan) : Core := { c with chans := aset c.chans n x }
/-- Expert table page t. -/
def Core.table (c : Core) (t : Nat) : Moe := agetD c.moe.tables t .reset
/-- Expert table page t replaced. -/
def Core.setTable (c : Core) (t : Nat) (x : Moe) : Core :=
  { c with moe := { c.moe with tables := aset c.moe.tables t x } }
/-- The Ply page of context n. -/
def Core.plyPage (c : Core) (n : Nat) : PlyPage := agetD c.ply n .reset
/-- The Ply page of context n replaced. -/
def Core.setPlyPage (c : Core) (n : Nat) (x : PlyPage) : Core := { c with ply := aset c.ply n x }
/-- Link port p. -/
def Core.link (c : Core) (p : Nat) : Link := agetD c.fab.ports p .reset
/-- Link port p replaced. -/
def Core.setLink (c : Core) (p : Nat) (x : Link) : Core :=
  { c with fab := { c.fab with ports := aset c.fab.ports p x } }
/-- Signal word n. -/
def Core.sig (c : Core) (n : Nat) : W64 := agetD c.graph.sigs n 0

/-- Whether engine port e is present (R403): the configuration has it and its fuse bit is 1. -/
def Core.present (c : Core) (e : Nat) : Bool := decide (e < c.cfg.enginePorts) && (c.engPresent.getD e false)

/-- Contexts whose state is not CLOSED. -/
def Core.openCtxs (c : Core) : List Nat := (List.range 64).filter fun n => (c.ctx n).st != .closed

/-- Whether a context other than context 0 is not CLOSED. -/
def Core.otherOpen (c : Core) : Bool := c.openCtxs.any fun n => n != 0

/-! Free values -/

/-- Draw a free word (notes/assumptions/4). -/
def Core.drawWord (c : Core) : W64 × Core := (Config.freeWord c.free, { c with free := c.free + 1 })

/-- Draw n free bytes. -/
def Core.drawBytes (c : Core) (n : Nat) : List Byte × Core :=
  ((List.range n).map fun i => Config.freeByte (c.free + i), { c with free := c.free + n })

/-- Draw a free choice. -/
def Core.drawBool (c : Core) : Bool × Core := (Config.freeBool c.free, { c with free := c.free + 1 })

/-- Bytes given free content (R409). -/
def Core.freeBytes (c : Core) (addrs : List Nat) : Core :=
  let d := c.drawBytes addrs.length
  { d.2 with mem := memPutCells d.2.mem (addrs.zip d.1) }

/-! Status codes, records and the event log -/

/-- The code of a status (Table 03-3a). -/
def Status.code : Status → Nat
  | .ok => 0x00
  | .accepted => 0x01
  | .refusedFull => 0x10
  | .refusedClosed => 0x11
  | .stateError => 0x20
  | .engineAbsent => 0x21
  | .badHandle => 0x22
  | .badOpcode => 0x23
  | .badLength => 0x24
  | .badParam => 0x25
  | .limitExceeded => 0x26
  | .authFail => 0x30
  | .isolation => 0x31
  | .faulted => 0x40
  | .resetPending => 0x41

/-- The present PCLK. -/
def Core.pclk (c : Core) : Nat := c.now / 4

/-- The PCLK at whose edge a set of the present DCLK takes effect: the first edge at or after that of the DCLK (R327). -/
def Core.setPclk (c : Core) : Nat := (3 * (c.now / 3) + 3) / 4

/-- A write-one-to-clear bit of the register at an offset is set with effect at a PCLK (R20, R327). -/
def Core.markAt (c : Core) (pclk off bit : Nat) : Core :=
  { c with sets := { pclk := pclk, off := off, bit := bit } :: c.sets.filter fun m => decide (c.pclk ≤ m.pclk) }

/-- A set produced in the DCLK, ECLK or SCLK domain. -/
def Core.mark (c : Core) (off bit : Nat) : Core := c.markAt c.setPclk off bit

/-- A set produced in the PCLK domain. -/
def Core.markNow (c : Core) (off bit : Nat) : Core := c.markAt c.pclk off bit

/-- The bits of the register at an offset whose set takes effect in the present PCLK, or is still to take effect. -/
def Core.marked (c : Core) (off : Nat) : W64 :=
  (c.sets.filter fun m => decide (c.pclk ≤ m.pclk) && m.off == off).foldl (fun a m => a ||| fldMask m.bit 1) 0

/-- Of the write-one-to-clear bits of a register, those that a write clears now: a set in the same PCLK wins (R20, R327). -/
def Core.clearable (c : Core) (off : Nat) (w1c : W64) : W64 := w1c &&& ~~~c.marked off

/-- Set a flag of SZ_FAULT_STATUS: the flag and fault_count (Table 13-12, R327). -/
def Core.setFault (c : Core) (bit : Nat) : Core :=
  { c with watch := { c.watch with fault := satAdd (setBit c.watch.fault bit true) 16 16 1 } }.mark 0x2400008 bit

/-- What orders the records of one DCLK: class, context, unit (R325); a TASK record has no unit, and its node stands for it, as R284 orders
DEADLINE faults (DEDUCED, notes/assumptions/99). -/
def EvtRec.key (r : EvtRec) : List Nat := [r.cls, fld r.w0 0 6, if r.cls = 1 then fld r.w1 44 20 else fld r.w0 6 10]

/-- Put a record at number n, or, while the record before belongs to the same DCLK and comes after it, before that one (R325);
`held` is how many records before n the log still holds. -/
def logInsert (r : EvtRec) : Nat → Nat → AMap EvtRec → AMap EvtRec
  | 0, n, recs => aset recs (n % 1024) { r with num := n }
  | held + 1, n, recs =>
    let m := (n + 2 ^ 32 - 1) % 2 ^ 32
    match aget recs (m % 1024) with
    | none => aset recs (n % 1024) { r with num := n }
    | some p =>
      if p.at_ = r.at_ ∧ keysLt r.key p.key = true then logInsert r held m (aset recs (n % 1024) { p with num := n })
      else aset recs (n % 1024) { r with num := n }

/-- Put a record into the event log, or discard it when the log is full (R325, R326). -/
def Core.logRaw (c : Core) (cls : Nat) (w0 w1 w3 : W64) : Core :=
  if diff32 c.evt.wr c.evt.rd < 1024 then
    { c with evt := { recs := logInsert { cls := cls, num := c.evt.wr, w0 := w0, w1 := w1, w2 := w64 c.gc.count, w3 := w3, at_ := c.dclk }
                        (diff32 c.evt.wr c.evt.rd) c.evt.wr c.evt.recs,
                      wr := (c.evt.wr + 1) % 2 ^ 32, rd := c.evt.rd } }
  else
    let c1 := c.setFault 2
    { c1 with watch := { c1.watch with fault := satAdd c1.watch.fault 32 32 1 } }

/-- Word 0 of a generic record (Table 13-2). -/
def genW0 (detail status reason unit ctx : Nat) : W64 :=
  w64 (detail % 2 ^ 32 * 2 ^ 32 + status % 256 * 2 ^ 24 + reason % 256 * 2 ^ 16 + unit % 1024 * 2 ^ 6 + ctx % 64)

/-- A generic record of a class (R324). -/
def Core.log (c : Core) (cls reason unit ctx status detail : Nat) (subject value : W64) : Core :=
  c.logRaw cls (genW0 detail status reason unit ctx) subject value

/-- A flag of SZ_HG_EVT and its count (Table 15-13). -/
def Core.hedgeFlag (c : Core) (bit : Nat) : Core :=
  { c with hedge := { c.hedge with evt := satAdd (setBit c.hedge.evt bit true) 48 16 1 } }

/-- Set a flag of SZ_HG_EVT. -/
def Core.setHedge (c : Core) (bit : Nat) : Core := (c.hedgeFlag bit).mark 0x20020 bit

/-- A HEDGE record (R379). -/
def Core.logHedge (c : Core) (reason status detail ctx : Nat) : Core := c.log 0x0B reason 0 ctx status detail 0 0

/-- A PORT record and its flag (Table 13-3). -/
def Core.logPort (c : Core) (reason unit subject value : Nat) : Core :=
  (c.log 0x03 reason unit 0 0 0 (w64 subject) (w64 value)).setFault 1

/-- An ACCESS record (R324, R397): an ISOLATION also sets its flag of SZ_HG_EVT. -/
def Core.logAccess (c : Core) (reason offset : Nat) (priv write : Bool) (value : W64) : Core :=
  let st := if reason = 4 then Status.isolation.code else 0
  let c1 := c.log 0x04 reason 0 0 st (b2n priv + 2 * b2n write) (w64 offset) (if write then value else 0)
  if reason = 4 then (c1.hedgeFlag 5).markNow 0x20020 5 else c1

/-- A UNIT record for a flag of a unit's register (Table 13-1). -/
def Core.logUnit (c : Core) (bit unit ctx offset : Nat) : Core := c.log 0x0D (bit + 1) unit ctx 0 0 (w64 offset) 0

/-- Add to the non-determinism counter of a context (R286). -/
def Core.ndInc (c : Core) (n k : Nat) : Core :=
  let x := c.ctx n
  c.setCtx n { x with ndc := sat64 x.ndc k }

/-! The stash -/

/-- The four words of a stash entry (Table 13-7). -/
def stashWords (i : StashItem) (count : Nat) : StashEnt :=
  { w0 := w64 (i.tag % 2 ^ 32 * 2 ^ 32 + i.status.code * 2 ^ 24 + i.reason % 256 * 2 ^ 16 + i.source % 16 * 2 ^ 12
               + i.ctx % 64),
    w1 := i.target, w2 := w64 count, w3 := i.value }

/-- Entries held (R334). -/
def Core.stashHeld (c : Core) : Nat := diff32 c.stash.wr c.stash.rd

/-- An item enters the stash: its entry, the flag and a STASH record (R333, Table 13-1). -/
def Core.stashEnter (c : Core) (i : StashItem) : Core :=
  let e := stashWords i c.gc.count
  let idx := c.stash.wr % 64
  let c1 := { c with stash := { c.stash with ents := aset c.stash.ents idx e, wr := (c.stash.wr + 1) % 2 ^ 32,
                                             status := setBit c.stash.status 0 true } }.mark 0x2400028 0
  c1.log 0x05 i.reason idx i.ctx i.status.code 0 e.w1 e.w3

/-- The order of items that wait (R335): the DCLK in which they found the stash full, then source, then context. -/
def stashBefore (a b : StashItem × StashWaiter) : Bool :=
  keysLt [a.1.at_, a.1.source, a.1.ctx] [b.1.at_, b.1.source, b.1.ctx]

/-- An item goes to the stash: it enters, or it finds 64 entries held and waits (R335). -/
def Core.stashPut (c : Core) (i : StashItem) (w : StashWaiter) : Core × Bool :=
  if c.stashHeld < 64 ∧ c.stash.waiting = [] then (c.stashEnter i, true)
  else
    ({ c with stash := { c.stash with
        waiting := insertBy stashBefore ({ i with at_ := c.dclk }, w) c.stash.waiting,
        status := satAdd (setBit c.stash.status 1 true) 32 32 1 } }.mark 0x2400028 1, false)

/-! The Reel port -/

/-- Whether a request may be issued: no unacknowledged write to its line on its channel (R33) and a free tag (R34). -/
def Core.reelFree (c : Core) (r : ReelReq) : Bool :=
  (c.reel.out.all fun o => !(o.chan == r.chan && o.write && o.tier == r.tier && o.addr / 64 == r.addr / 64))
    && decide ((c.reel.out.filter fun o => o.chan == r.chan).length < 256)

/-- The tag a request takes: the lowest that is not outstanding on its channel (DESIGN CHOICE, notes/assumptions/10). -/
def Core.reelTag (c : Core) (chan : Nat) : Nat :=
  (findBelow 256 fun t => c.reel.out.all fun o => !(o.chan == chan && o.tag == t)).getD 0

/-- A request put on its channel. -/
def Core.reelSend (c : Core) (r : ReelReq) : Core :=
  { c with reel := { c.reel with out := c.reel.out ++ [{ r with tag := c.reelTag r.chan }] } }

/-- Issue a request, or let it wait behind those of its channel (R33, R34). -/
def Core.reelIssue (c : Core) (write : Bool) (tier addr : Nat) (data : List Byte) (s : Serves) : Core :=
  let r : ReelReq := { chan := reelChan tier addr, tag := 0, write := write, tier := tier, addr := addr, data := data,
                       serves := s }
  if c.reelFree r && (c.reel.wait.all fun o => o.chan != r.chan) then c.reelSend r
  else { c with reel := { c.reel with wait := c.reel.wait ++ [r] } }

/-- Requests that wait are issued in order, each channel stopping at the first that cannot be. -/
def Core.reelPumpList (c : Core) : List ReelReq → List Nat → Core
  | [], _ => c
  | r :: rest, blocked =>
    if blocked.contains r.chan || !c.reelFree r then
      Core.reelPumpList { c with reel := { c.reel with wait := c.reel.wait ++ [r] } } rest (r.chan :: blocked)
    else Core.reelPumpList (c.reelSend r) rest blocked

/-- Issue what no longer has to wait. -/
def Core.reelPump (c : Core) : Core :=
  Core.reelPumpList { c with reel := { c.reel with wait := [] } } c.reel.wait []

/-- A read of the line that holds an address. -/
def Core.reelRead (c : Core) (addr : Nat) (s : Serves) : Core := c.reelIssue false (tierOf addr) addr [] s

/-- A write of a run of bytes, cut into its lines (R32). -/
def reelPieces : Nat → Nat → List Byte → List (Nat × List Byte)
  | 0, _, _ => []
  | n + 1, a, bs =>
    if bs.isEmpty then []
    else
      let k := 64 - a % 64
      (a, bs.take k) :: reelPieces n (a + k) (bs.drop k)

/-- Write a run of bytes to tier 0 or 1, one request a line. -/
def Core.reelWrite (c : Core) (addr : Nat) (bs : List Byte) (s : Serves) : Core :=
  (reelPieces (bs.length / 64 + 2) addr bs).foldl (fun d p => d.reelIssue true (tierOf p.1) p.1 p.2 s) c

/-- Whether a request that serves something is outstanding or waits. -/
def Core.reelServing (c : Core) (p : Serves → Bool) : Bool :=
  (c.reel.out.any fun r => p r.serves) || (c.reel.wait.any fun r => p r.serves)

/-! The frame of a step -/

/-- A step's outcome with everything but the command queue's part replaced. -/
def State.put (s : State) (c : Core) : Host.Outcome State Fault Refusal := .next { s with core := c }

/-- An effect that the block has only in RUN; in any other state of reset nothing changes (notes/assumptions/3). -/
def onRun (s : State) (f : Sys → Core → Core) : Host.Outcome State Fault Refusal :=
  if s.sys.phase = .run then s.put (f s.sys s.core) else .next s

/-- An effect that the block has in BOOT and in RUN (R57). -/
def onBootRun (s : State) (f : Sys → Core → Core) : Host.Outcome State Fault Refusal :=
  if s.sys.phase = .run ∨ s.sys.phase = .boot then s.put (f s.sys s.core) else .next s

end Sys2Proof.Machine
end

