-- ==== Sys2Proof/Machine/Flags.lean ====
section
/-! DEFINITION. Registers and flags: what a read of each register returns (17, with the tables of the other chapters),
the interrupt lines (R48, R404), write-one-to-clear fields (R20, R327), and the checks of an access (R397). -/

namespace Sys2Proof.Machine

/-- What a write leaves in a register with read-write and write-one-to-clear fields (R20, R21). -/
def writeFields (rw w1c old v : W64) : W64 := ((old &&& ~~~rw) ||| (v &&& rw)) &&& ~~~(v &&& w1c)

/-! Values derived from the state -/

/-- SZ_VERSION (Table 00-7). -/
def regVersion (c : Core) : W64 := w64 (c.build % 2 ^ 16 * 2 ^ 48 + c.cfg.code * 2 ^ 32 + 0x0402005A)

/-- SZ_CAPS (Table 17-4). -/
def regCaps (c : Core) : W64 :=
  w64 (c.cfg.linkPorts * 2 ^ 56 + c.cfg.spindles * 2 ^ 48 + c.cfg.carderSlices * 2 ^ 40 + c.cfg.descLog2 * 2 ^ 32
       + c.cfg.enginePorts * 2 ^ 16 + c.cfg.plyLanes)

/-- SZ_CAPS2 (Table 17-5). -/
def regCaps2 (c : Core) : W64 := w64 (c.cfg.syncObjects * 2 ^ 32 + c.cfg.channels * 2 ^ 16 + c.cfg.storePages)

/-- The code of a reset state in SZ_DEV_STATE (Table 17-7). -/
def Phase.code : Phase → Nat
  | .hold => 0
  | .clkStart => 1
  | .drain => 2
  | .keyRead => 3
  | .memInit => 4
  | .boot => 5
  | .run => 6

/-- The code of a Hedge state (Table 15-9). -/
def HgState.code : HgState → Nat
  | .keys => 0
  | .selftest => 1
  | .ready => 2
  | .booted => 3
  | .error => 4
  | .dead => 5

/-- The code of a lifecycle state (Table 15-9). -/
def Lcs.code : Lcs → Nat
  | .manufacture => 0
  | .development => 1
  | .locked => 2
  | .decommissioned => 3

/-- The code of a fetch state (Table 04-10). -/
def FetchState.code : FetchState → Nat
  | .off => 0
  | .idle => 1
  | .armed => 2
  | .fetch => 3
  | .check => 4
  | .room => 5
  | .halted => 6

/-- The code of a context state (Table 17-11). -/
def CtxState.code : CtxState → Nat
  | .closed => 0
  | .opened => 1
  | .stopped => 2
  | .halted => 3

/-- The code of a link state (Table 12-17). -/
def LinkSt.code : LinkSt → Nat
  | .parked => 0
  | .phyUp => 1
  | .align => 2
  | .ident => 3
  | .held => 4
  | .measure => 5
  | .active => 6
  | .failed => 7

/-- approved (R378): neither ERROR nor DEAD, and LOCKED. -/
def approved (s : Sys) : Bool := s.hg != .error && s.hg != .dead && s.lcs == .locked

/-- Word k of the engine-present mask (R403). -/
def regEngPresent (c : Core) (k : Nat) : W64 :=
  w64 ((List.range 64).foldl (fun a j => a + bitW j (c.present (64 * k + j))) 0)

/-- Runs of a context whose final reply is not yet finalised. -/
def Core.runsOf (c : Core) (n : Nat) : List Run := c.graph.runs.filter fun r => r.ctx == n

/-- What all the instances hold whose final replies are finalised and not yet written (R91). -/
def Core.rests (c : Core) : List RunRest := c.queues.flatMap fun q : Nat × Queue => q.2.rests

/-- Unfinished instances of a context: an instance is one until its final reply is written (R91). -/
def Core.unfinished (c : Core) (n : Nat) : Nat := (c.runsOf n).length + (c.queue n).rests.length

/-- Whether a context has no unfinished instance. -/
def Core.noRuns (c : Core) (n : Nat) : Bool := (c.runsOf n).isEmpty && (c.queue n).rests.isEmpty

/-- Entries of the relocation store that no unfinished instance uses are dropped. -/
def Core.relocTrim (c : Core) : Core :=
  { c with graph := { c.graph with reloc := c.graph.reloc.filter fun e =>
      (c.graph.runs.any fun r => r.ctx == e.ctx && r.handleIdx.contains e.idx)
        || (c.queue e.ctx).rests.any fun r => r.handleIdx.contains e.idx } }

/-- Whether no context has an unfinished instance. -/
def Core.allIdle (c : Core) : Bool := c.graph.runs.isEmpty && c.rests.isEmpty

/-- Whether a skein has no unfinished instance. -/
def Core.skeinIdle (c : Core) (n id : Nat) : Bool :=
  !(c.graph.runs.any fun r => r.ctx == n && r.skein == id) && !((c.queue n).rests.any fun r => r.skein == id)

/-- Whether an unfinished instance of a context has a tag. -/
def Core.tagUsed (c : Core) (n tag : Nat) : Bool :=
  (c.graph.runs.any fun r => r.ctx == n && r.tag == tag) || ((c.queue n).unwritten.any fun r => r.rest.isSome && r.tag == tag)

/-- Loaded skeins of a context. -/
def Core.skeinsOf (c : Core) (n : Nat) : List Skein := c.graph.skeins.filter fun k => k.ctx == n

/-- Mapped objects of a context. -/
def Core.objsOf (c : Core) (n : Nat) : List SyncObj := c.sync.objs.filter fun o => o.ctx == n

/-- Channel ends a context holds open, each role counted once (Table 17-13). -/
def Core.chanEnds (c : Core) (n : Nat) : Nat :=
  c.chans.foldl (fun a p =>
    a + b2n (match p.2.tx with | some t => t.ctx == n | none => false)
      + b2n (match p.2.rx with | some t => t.ctx == n | none => false)) 0

/-- Expert tables a context has loaded. -/
def Core.tablesOf (c : Core) (n : Nat) : List Nat :=
  (List.range 64).filter fun t => match (c.table t).tab with | some m => m.ctx == n | none => false

/-- The sum over a list. -/
def sumBy {α : Type} (f : α → Nat) (l : List α) : Nat := l.foldl (fun a x => a + f x) 0

/-- Records of the graph store that unfinished runs reserve for dynamic tasks (R146). -/
def Core.dynRecords (c : Core) : Nat := sumBy (·.storeRes) c.graph.runs + sumBy (·.storeRes) c.rests

/-- Free state words (Table 05-21, R132, R146). -/
def Core.stateFree (c : Core) : Nat :=
  c.cfg.stateWords - sumBy (·.nodeCount) c.graph.skeins - c.dynRecords

/-- Free watch entries (Table 05-21, R139). -/
def Core.watchFree (c : Core) : Nat := 16384 - sumBy (·.watchRes) c.graph.runs - sumBy (·.watchRes) c.rests

/-- Graph store pages that nothing reserves (Table 05-21, R133, R146, R392). -/
def Core.pageFree (c : Core) : Nat :=
  c.cfg.storePages - c.graph.badPages - sumBy (·.reserved) c.graph.skeins - ceilDiv c.dynRecords 128

/-- Unreserved entries of delay list i (Tables 06-13, 06-14). -/
def Core.delayFree (c : Core) (i : Nat) : Nat :=
  65536 - sumBy (fun r => r.delayRes.getD i 0) c.graph.runs - sumBy (fun r : RunRest => r.delayRes.getD i 0) c.rests

/-- Channel quota not promised to an open context (R406). -/
def Core.chanQuotaFree (c : Core) : Nat := c.cfg.channels - sumBy (fun n => (c.ctx n).chanQuota) c.openCtxs

/-- Object quota not promised to an open context (R406). -/
def Core.syncQuotaFree (c : Core) : Nat := c.cfg.syncObjects - sumBy (fun n => (c.ctx n).syncQuota) c.openCtxs

/-- Free entries of the relocation store (R406). -/
def Core.relocFree (c : Core) : Nat := 16384 - c.graph.reloc.length

/-- SZ_CX_CFG (Table 17-11). -/
def regCxCfg (c : Core) (n : Nat) : W64 :=
  let x := c.ctx n
  if x.st = .closed then 0
  else w64 (x.spindleMask % 2 ^ 16 * 2 ^ 48 + x.st.code * 2 ^ 40 + x.handleLog2 % 256 * 2 ^ 32
            + x.syncLog2 % 256 * 2 ^ 24 + bitW 20 x.owner + x.prioCeiling % 16 * 2 ^ 16 + x.sliceLen % 2 ^ 16)

/-- A settings register of a context: zero while it is CLOSED (R405). -/
def ifOpen (c : Core) (n : Nat) (w : W64) : W64 := if (c.ctx n).st = .closed then 0 else w

/-- SZ_CX_USE (Table 17-13). -/
def regCxUse (c : Core) (n : Nat) : W64 :=
  w64 (c.chanEnds n % 2 ^ 13 * 2 ^ 51 + (c.objsOf n).length % 2 ^ 19 * 2 ^ 32
       + (c.skeinsOf n).length % 2 ^ 11 * 2 ^ 21 + c.unfinished n % 2 ^ 7 * 2 ^ 14
       + (c.tablesOf n).length % 2 ^ 7 * 2 ^ 7)

/-- Word m of SZ_PROG_n (Table 13-17). -/
def regProg (c : Core) (n m : Nat) : W64 :=
  let x := c.ctx n
  if m = 0 then w64 x.cmds
  else if m = 1 then w64 x.tasks
  else if m = 2 then w64 x.assigns
  else w64 (bitW 9 x.hasWork + bitW 8 (bitAt c.watch.stall n) + x.stallRun % 256)

/-- SZ_CH_STATE (Table 09-9). -/
def regChState (h : Chan) : W64 :=
  let t := match h.tx with
    | none => 0
    | some t =>
      (match t.st with | .noReader => 1 | .opened => 2 | .closed => 3) * 2 ^ 62 + t.ctx % 64 * 2 ^ 56
        + t.ringLog2 % 32 * 2 ^ 22 + t.epoch % 2 ^ 16
  let r := match h.rx with
    | none => 0
    | some r => bitW 55 true + r.ctx % 64 * 2 ^ 48 + r.ringLog2 % 32 * 2 ^ 27
  w64 (t + r + h.epoch % 2 ^ 16 * 2 ^ 32)

/-- SZ_MOE_STATE (Table 07-12). -/
def regMoeState (m : Moe) : W64 :=
  match m.tab with
  | none => 0
  | some t => w64 (m.gen % 2 ^ 32 * 2 ^ 32 + bitW 31 true + t.ctx % 64 * 2 ^ 24 + t.k % 32 * 2 ^ 16 + t.experts % 2 ^ 14)

/-- SZ_LK_STATE of port p (Table 12-17). -/
def regLkState (c : Core) (p : Nat) : W64 :=
  let l := c.link p
  w64 (l.obsPos % 2 ^ 16 * 2 ^ 48 + l.obsPort % 8 * 2 ^ 45 + l.kind % 16 * 2 ^ 40 + l.st.code * 2 ^ 36
       + l.role % 16 * 2 ^ 32 + l.peerPort % 8 * 2 ^ 29 + bitW 28 l.farTaken + bitW 27 l.taken + l.lanes % 32 * 2 ^ 22
       + l.rate % 4 * 2 ^ 20 + bitW 19 (c.fab.parent == some p) + l.retrains % 2 ^ 16)

/-- The logical length of axis a (R295). -/
def Plan.logLen (p : Plan) (a : Nat) : Nat := p.dims.getD a 1 - (p.spares.getD a []).length

/-- The coordinates of a number in a mixed radix (R294). -/
def coordsOf : List Nat → Nat → List Nat
  | [], _ => []
  | d :: r, p => p % d :: coordsOf r (p / d)

/-- The number of some coordinates (R294). -/
def posOf : List Nat → List Nat → Nat
  | d :: ds, x :: xs => x + d * posOf ds xs
  | _, _ => 0

/-- The logical lengths of the four axes. -/
def Plan.logDims (p : Plan) : List Nat := (List.range 4).map p.logLen

/-- The product of the logical lengths. -/
def Plan.logCount (p : Plan) : Nat := p.logDims.foldl (· * ·) 1

/-- The physical coordinates that are no spare rows on an axis, ascending (R295). -/
def Plan.homes (p : Plan) (a : Nat) : List Nat :=
  (List.range (p.dims.getD a 1)).filter fun x => !(p.spares.getD a []).contains x

/-- The home of a logical position (R295). -/
def Plan.home (p : Plan) (l : Nat) : Nat :=
  posOf p.dims ((coordsOf p.logDims l).zipIdx.map fun k => (p.homes k.2).getD k.1 0)

/-- Whether a physical position is a spare position (R295). -/
def Plan.isSpare (p : Plan) (x : Nat) : Bool :=
  (coordsOf p.dims x).zipIdx.any fun k => (p.spares.getD k.2 []).contains k.1

/-- The physical position that holds a logical position now (R295, R319). -/
def Core.holder (c : Core) (l : Nat) : Nat :=
  match c.fab.plan with
  | none => 0
  | some p => (aget c.fab.spareMap l).getD (p.home l)

/-- The logical position that this chip holds, if any (R295, R319). Without a plan it is position 0 of a domain of
one. -/
def Core.myLogical (c : Core) : Option Nat :=
  match c.fab.plan with
  | none => none
  | some p =>
    match c.fab.spareMap.find? fun m => m.2 == p.self with
    | some m => some m.1
    | none =>
      if p.isSpare p.self then none
      else
        let l := posOf p.logDims ((coordsOf p.dims p.self).zipIdx.map fun k => (p.homes k.2).idxOf k.1)
        if (aget c.fab.spareMap l).isSome then none else some l

/-- self of the plan, 0 without one. -/
def Core.self (c : Core) : Nat := (c.fab.plan.map (·.self)).getD 0

/-- SZ_FAB_STATUS (Table 12-13). -/
def regFabStatus (c : Core) : W64 :=
  w64 (c.self % 2 ^ 16 * 2 ^ 48 + c.fab.hops % 256 * 2 ^ 40 + c.fab.refIdx % 4 * 2 ^ 38
       + (c.fab.parent.getD 0) % 8 * 2 ^ 35 + bitW 34 (c.fab.parent.isSome || c.fab.isRef)
       + bitW 33 c.fab.route.isSome + bitW 32 c.fab.plan.isSome + (c.myLogical.getD 0) % 2 ^ 16 * 2 ^ 16
       + bitW 15 c.myLogical.isSome)

/-- SZ_TL_ACTIVE (Table 16-5). -/
def regTlActive (c : Core) : W64 :=
  w64 (sumBy (fun p => agetD c.tl.linkDepth p 0 % 8 * 2 ^ (40 + 3 * p)) (List.range 8)
       + sumBy (fun s => agetD c.tl.engDepth s 0 % 4 * 2 ^ (8 + 2 * s)) (List.range 16)
       + sumBy (fun n => agetD c.tl.reelDepth n 0 % 4 * 2 ^ (4 + 2 * n)) (List.range 2) + b2n c.tl.echoOn)

/-! Interrupts -/

/-- The level of IRQ_Q bit n (R48, Table 04-5, Table 02-6). -/
def irqQ (s : Sys) (c : Core) (n : Nat) : Bool :=
  let w := (c.queue n).status
  (s.phase == .run || (s.phase == .boot && n == 0))
    && ((bitAt w 0 && bitAt w 4) || (bitAt w 1 && bitAt w 5) || (bitAt w 2 && bitAt w 6))

/-- The causes of IRQ_G bit i (Tables 01-20, 17-15). -/
def irqGCause (c : Core) (i : Nat) : Bool :=
  match i with
  | 0 => (bitAt c.watch.fault 0 && bitAt c.watch.fault 8) || (bitAt c.watch.fault 1 && bitAt c.watch.fault 9)
         || (bitAt c.watch.fault 2 && bitAt c.watch.fault 10)
         || ((List.range 64).any fun n => bitAt (c.ctx n).det 2 && bitAt (c.ctx n).det 3)
  | 1 => decide (c.watch.stall ≠ 0) && bitAt c.watch.ctrl 24
  | 2 => (List.range 7).any fun k => bitAt c.fab.evt k && bitAt c.fab.evt (16 + k)
  | 3 => (bitAt c.clip.status 1 || bitAt c.clip.status 2) && bitAt c.clip.status 4
  | 4 => ((List.range 6).any fun k => bitAt c.hedge.evt k && bitAt c.hedge.evt (8 + k))
         || (bitAt c.sync.win.status 1 && bitAt c.sync.win.status 6)
  | 5 => (bitAt c.pwr.status 3 && bitAt c.pwr.status 0) || (bitAt c.pwr.status 4 && bitAt c.pwr.status 1)
  | 6 => (bitAt c.clk.status 2 && bitAt c.clk.ctrl 1) || (bitAt c.clk.status 1 && bitAt c.clk.ctrl 2)
         || (bitAt c.gc.status 2 && bitAt c.gc.status 3)
  | 7 => (bitAt c.stash.status 0 && bitAt c.stash.status 2) || (bitAt c.stash.status 1 && bitAt c.stash.status 3)
  | _ => false

/-- The level of IRQ_G bit i: all in RUN, bits 4 and 6 in BOOT, none before (Table 02-6). -/
def irqG (s : Sys) (c : Core) (i : Nat) : Bool :=
  (s.phase == .run || (s.phase == .boot && (i == 4 || i == 6))) && irqGCause c i

/-! Reading a register -/

/-- SZ_HG_STATUS (Table 15-9). -/
def regHgStatus (s : Sys) (c : Core) : W64 :=
  w64 (s.bootFails % 256 * 2 ^ 40 + s.lcs.code * 2 ^ 36 + s.hg.code * 2 ^ 32 + bitW 7 (approved s)
       + bitW 6 c.hedge.keyBlank + bitW 5 s.unlockScan + bitW 4 s.unlockNet)

/-- The registers that have a single place (Table 17-2, Tables 13-10 and 16-4). A write-only register reads zero. -/
def fixedRegs (s : Sys) (c : Core) : AMap W64 :=
  [(0x0, regVersion c), (0x8, regCaps c), (0x10, regCaps2 c), (0x18, w64 s.phase.code), (0x40, w64 c.gc.count),
   (0x48, c.gc.status),
   (0x10000, c.clk.status), (0x10008, c.clk.drift), (0x10010, c.clk.ctrl),
   (0x10020, w64 (s.resetCount % 2 ^ 16 * 2 ^ 48 + s.lastCause % 16)), (0x10030, c.pwr.ramp), (0x10038, c.pwr.status),
   (0x10040, w64 (sumBy (fun i => bitW i (irqG s c i)) (List.range 8))),
   (0x10048, w64 (sumBy (fun i => bitW i (irqQ s c i)) (List.range 64)))]
  ++
  [(0x20000, regHgStatus s c), (0x20008, c.hedge.nonce), (0x20010, w64 (s.fwVersion % 2 ^ 24)),
   (0x20018, w64 (c.hedge.blobCount % 2 ^ 16 * 2 ^ 48 + s.secVersion % 2 ^ 16 * 2 ^ 16 + s.keys.floor % 2 ^ 16)),
   (0x20020, c.hedge.evt)]
  ++
  [(0x240000, c.fe.ctrl), (0x240008, c.graph.poll),
   (0x240010, w64 (c.stateFree % 2 ^ 22 * 2 ^ 42 + c.watchFree % 2 ^ 15 * 2 ^ 27 + c.pageFree % 2 ^ 14 * 2 ^ 13)),
   (0x240018, c.graph.dlyCtrl), (0x240020, w64 (c.delayFree 1 * 2 ^ 32 + c.delayFree 0)),
   (0x240028, w64 (c.delayFree 3 * 2 ^ 32 + c.delayFree 2)), (0x240030, c.graph.slack), (0x240038, c.clip.ctrl),
   (0x240040, c.clip.status), (0x240048, c.clip.tx), (0x240050, c.clip.rx),
   (0x240058, w64 (c.chanQuotaFree % 2 ^ 13 * 2 ^ 51 + c.syncQuotaFree % 2 ^ 19 * 2 ^ 32 + c.relocFree % 2 ^ 15))]
  ++
  [(0x800000, c.sync.win.nonce), (0x800008, 0), (0x800010, c.sync.win.status), (0x800018, c.sync.win.target),
   (0x800020, c.sync.win.data), (0x800028, 0),
   (0x1400000, regFabStatus c),
   (0x1400008, w64 (match c.fab.plan with | none => 0 | some p => p.rev % 2 ^ 32 * 2 ^ 32 + p.domain % 2 ^ 16 * 2 ^ 16)),
   (0x1400010, c.fab.evt), (0x1400018, c.fab.cnt)]
  ++
  [(0x2000000, regTlActive c), (0x2000008, c.tl.result), (0x2000010, c.tl.reel),
   (0x2000018, agetD c.tl.reelCnt 0 0), (0x2000020, agetD c.tl.reelCnt 1 0), (0x2000028, c.tl.stub),
   (0x2400000, w64 (c.evt.wr * 2 ^ 32 + c.evt.rd)), (0x2400008, c.watch.fault), (0x2400010, c.watch.stall),
   (0x2400018, c.watch.ctrl), (0x2400020, w64 (c.stash.wr * 2 ^ 32 + c.stash.rd)), (0x2400028, c.stash.status)]

/-- A register of queue page n (Table 04-1). -/
def queueReg (c : Core) (n off : Nat) : Option W64 :=
  let q := c.queue n
  if off = 0 then some 0
  else if off = 0x8 then some (w64 (q.tail * 2 ^ 32 + q.head))
  else if off = 0x10 then some (w64 (q.rplTail * 2 ^ 32 + q.rplFree))
  else if off = 0x18 then some (setFld q.status 32 3 q.fetch.code)
  else none

/-- A register of context block n (Table 17-3). -/
def ctxReg (c : Core) (n off : Nat) : Option W64 :=
  let q := c.queue n
  let x := c.ctx n
  if 0x100 ≤ off ∧ off < 0x200 then some (agetD x.cuts ((off - 0x100) / 8) 0)
  else aget
    [(0x0, q.ring), (0x8, q.reply), (0x10, q.mirror), (0x18, x.peer), (0x20, x.sigrange), (0x28, x.flowrange),
     (0x30, w64 x.ndc), (0x38, x.det), (0x40, regCxCfg c n), (0x48, ifOpen c n x.htab), (0x50, ifOpen c n x.stab),
     (0x58, ifOpen c n (w64 (x.chanQuota % 2 ^ 13 * 2 ^ 32 + x.syncQuota % 2 ^ 19))),
     (0x60, ifOpen c n (regCxUse c n))] off

/-- A register of channel n (Table 09-8); a channel beyond the configuration reads zero (R400). -/
def chanReg (c : Core) (n off : Nat) : W64 :=
  if c.cfg.channels ≤ n then 0
  else
    let h := c.chan n
    agetD
      [(0x0, regChState h), (0x8, w64 h.txMsgs), (0x10, w64 h.txBytes), (0x18, w64 (h.refused * 2 ^ 32 + h.stalls)),
       (0x20, w64 h.rxMsgs), (0x28, w64 h.rxBytes), (0x30, w64 (h.discarded * 2 ^ 32 + h.held)), (0x38, h.evt)] off 0

/-- A register of link port p (Tables 12-17 to 12-22); a port beyond the configuration reads zero (R400). -/
def linkReg (c : Core) (p off : Nat) : Option W64 :=
  if 0x28 < off then none
  else if c.cfg.linkPorts ≤ p then some 0
  else
    let l := c.link p
    aget [(0x0, regLkState c p), (0x8, w64 (l.latency % 2 ^ 24)), (0x10, l.cnt0), (0x18, l.cnt1), (0x20, l.cnt2),
          (0x28, w64 (b2n l.oos))] off

/-- A register of expert table page t (Tables 07-12 to 07-16): zero while nothing is loaded (R215). -/
def moeReg (c : Core) (t off : Nat) : Option W64 :=
  let m := c.table t
  aget [(0x0, regMoeState m), (0x8, m.evt), (0x10, m.cnt0), (0x18, m.cnt1), (0x20, m.cnt2)] off

/-- A register of Ply page n (Tables 10-9, 10-12 to 10-16). -/
def plyReg (c : Core) (n off : Nat) : Option W64 :=
  let g := c.plyPage n
  if off < 0x1000 then some (agetD (agetD g.slots (off / 64) []) (off % 64 / 8) 0)
  else aget [(0x1000, g.flags), (0x1008, g.cnt0), (0x1010, g.cnt1), (0x1018, g.cnt2), (0x1020, g.cnt3)] off

/-- tstate of SZ_TL_LINK_p (Table 16-11). -/
def Core.testState (c : Core) (p : Nat) : Nat :=
  let d := agetD c.tl.linkDepth p 0
  let l := c.link p
  if d = 0 then 0
  else if l.st = .failed then 4
  else if d = 5 then (if l.st = .align ∧ l.locked then 3 else 1)
  else if l.st = .active then 2 else 1

/-- A replicated register of the Test and loop-back region (Table 16-4). -/
def testReg (c : Core) (off : Nat) : Option W64 :=
  if 0x100 ≤ off ∧ off < 0x200 then
    if c.tl.echoOn then
      let k := (off - 0x100) / 8
      some (agetD c.tl.echo k 0 ^^^ w64 (k * 0x0101010101010101))
    else none
  else if 0x200 ≤ off ∧ off < 0x300 then
    let s := (off - 0x200) / 16
    if c.cfg.spindles ≤ s then some 0
    else some (agetD (if off % 16 = 0 then c.tl.eng0 else c.tl.eng1) s 0)
  else if 0x400 ≤ off ∧ off < 0x500 then
    let p := (off - 0x400) / 32
    let m := off % 32 / 8
    if c.cfg.linkPorts ≤ p then some 0
    else if m = 0 then some (setFld (agetD c.tl.link0 p (w64 (0x10 * 2 ^ 54))) 32 3 (c.testState p))
    else if m = 1 then some (w64 (agetD c.tl.linkTx p 0))
    else if m = 2 then some (w64 (agetD c.tl.linkRx p 0))
    else some (agetD c.tl.linkBad p 0)
  else none

/-- A replicated register of the Event and fault log region (Table 13-10). -/
def logReg (c : Core) (off : Nat) : Option W64 :=
  if 0x1000 ≤ off ∧ off < 0x1800 then some (regProg c ((off - 0x1000) / 32) (off % 32 / 8))
  else if 0x2000 ≤ off ∧ off < 0x2800 then
    match aget c.stash.ents ((off - 0x2000) / 32) with
    | none => some 0
    | some e =>
      let m := off % 32 / 8
      some (if m = 0 then e.w0 else if m = 1 then e.w1 else if m = 2 then e.w2 else e.w3)
  else if 0x8000 ≤ off ∧ off < 0x18000 then
    match aget c.evt.recs ((off - 0x8000) / 64) with
    | none => some 0
    | some e =>
      let m := off % 64 / 8
      some (if m = 0 then e.w0 else if m = 1 then e.w1 else if m = 2 then e.w2 else if m = 3 then e.w3
            else if m = 4 then w64 (e.num * 2 ^ 32 + e.cls * 2 ^ 16) else 0)
  else none

/-- What a read of an offset of the window returns; none where the offset holds no register (R396, R399). -/
def readReg (s : Sys) (c : Core) (off : Nat) : Option W64 :=
  if off % 8 ≠ 0 then none
  else
    match aget (fixedRegs s c) off with
    | some w => some w
    | none =>
      if 0x100 ≤ off ∧ off < 0x180 then some (regEngPresent c ((off - 0x100) / 8))
      else if 0x100000 ≤ off ∧ off < 0x140000 then queueReg c ((off - 0x100000) / 0x1000) (off % 0x1000)
      else if 0x200000 ≤ off ∧ off < 0x240000 then ctxReg c ((off - 0x200000) / 0x1000) (off % 0x1000)
      else if 0x400000 ≤ off ∧ off < 0x408000 then some (c.sig ((off - 0x400000) / 8))
      else if 0x1000000 ≤ off ∧ off < 0x1040000 then some (chanReg c ((off - 0x1000000) / 64) (off % 64))
      else if 0x1400100 ≤ off ∧ off < 0x1400300 then linkReg c ((off - 0x1400100) / 0x40) (off % 0x40)
      else if 0x1800000 ≤ off ∧ off < 0x1840000 then moeReg c ((off - 0x1800000) / 0x1000) (off % 0x1000)
      else if 0x1C00000 ≤ off ∧ off < 0x2000000 then plyReg c ((off - 0x1C00000) / 0x10000) (off % 0x10000)
      else if 0x2000000 ≤ off ∧ off < 0x2400000 then testReg c (off - 0x2000000)
      else if 0x2400000 ≤ off ∧ off < 0x2800000 then logReg c (off - 0x2400000)
      else none

/-! Accesses -/

/-- Regions that serve unprivileged requests (R30, Table 17-1). -/
def unprivOk (off : Nat) : Bool :=
  decide (off < 0x10000) || (decide (0x100000 ≤ off) && decide (off < 0x200000))
    || (decide (0x400000 ≤ off) && decide (off < 0x800000))
    || (decide (0x1000000 ≤ off) && decide (off < 0x1400000))
    || (decide (0x1800000 ≤ off) && decide (off < 0x2000000))

/-- Offsets served in BOOT (R57, R100, Table 17-1). -/
def bootServed (off : Nat) : Bool :=
  decide (off < 0x100000) || (decide (0x100000 ≤ off) && decide (off < 0x101000))
    || (decide (0x200000 ≤ off) && decide (off < 0x201000)) || off == 0x240000

/-- A register of an instance that the configuration lacks: it reads zero, ignores writes, and no record is written (R400). -/
def absentReg (c : Core) (off : Nat) : Bool :=
  (decide (0x1000000 ≤ off) && decide (off < 0x1040000) && decide (c.cfg.channels ≤ (off - 0x1000000) / 64))
    || (decide (0x1400100 ≤ off) && decide (off < 0x1400300) && decide (c.cfg.linkPorts ≤ (off - 0x1400100) / 0x40)
        && decide ((off - 0x1400100) % 0x40 ≤ 0x28))
    || (decide (0x2000200 ≤ off) && decide (off < 0x2000300) && decide (c.cfg.spindles ≤ (off - 0x2000200) / 16))
    || (decide (0x2000400 ≤ off) && decide (off < 0x2000500) && decide (c.cfg.linkPorts ≤ (off - 0x2000400) / 32))

/-- A write to the window: the checks of R397 in order, then the rule of the register; `f` answers none where that rule
ignores the write. -/
def regAccess (s : Sys) (c : Core) (off : Nat) (v : W64) (acc : Access) (f : Core → Option Core) : Core :=
  if off % 8 = 0 ∧ absentReg c off then c
  else if !acc.priv && !unprivOk off then c.logAccess 4 off acc.priv true v
  else if (readReg s c off).isNone || (s.phase == .boot && !bootServed off) then c.logAccess 1 off acc.priv true v
  else if acc.be ≠ 0xFF then c.logAccess 2 off acc.priv true v
  else
    match f c with
    | none => c.logAccess 3 off acc.priv true v
    | some c' => c'

/-- A row that writes a register: in BOOT and RUN the access is checked, before them it is discarded (R27). -/
def onWrite (st : State) (off : Nat) (v : W64) (acc : Access) (f : Sys → Core → Option Core) :
    Host.Outcome State Fault Refusal :=
  onBootRun st fun s c => regAccess s c off v acc (f s)

/-! Flags of units, each with its counter and its record -/

/-- Set a flag of SZ_FAB_EVT: the flag, evt_count and a FABRIC record of the port (Tables 12-15, 13-1). -/
def Core.setFab (c : Core) (bit port : Nat) : Core :=
  let c1 := { c with fab := { c.fab with evt := satAdd (setBit c.fab.evt bit true) 48 16 1 } }.mark 0x1400010 bit
  c1.log 0x08 (bit + 1) port 0 0 0 (regLkState c1 port) 0

/-- Set a flag of SZ_CH_EVT of a channel and write its UNIT record (R250, Table 13-1). -/
def Core.setChanEvt (c : Core) (n bit ctx : Nat) : Core :=
  let h := c.chan n
  let c1 := (c.setChan n { h with evt := setBit h.evt bit true }).mark (0x1000000 + 64 * n + 0x38) bit
  c1.logUnit bit n ctx (0x1000000 + 64 * n + 0x38)

/-- Set a flag of SZ_MOE_EVT of a table and write its UNIT record (R215, Table 13-1). -/
def Core.setMoeEvt (c : Core) (t bit : Nat) : Core :=
  let m := c.table t
  let c1 := (c.setTable t { m with evt := setBit m.evt bit true }).mark (0x1800000 + 0x1000 * t + 0x8) bit
  c1.logUnit bit t ((m.tab.map (·.ctx)).getD 0) (0x1800000 + 0x1000 * t + 0x8)

/-- Set a flag of SZ_PLY_FLAGS of a context and write its UNIT record (R272, Table 13-1). -/
def Core.setPlyFlag (c : Core) (n bit : Nat) : Core :=
  let g := c.plyPage n
  let c1 := (c.setPlyPage n { g with flags := setBit g.flags bit true }).mark (0x1C00000 + 0x10000 * n + 0x1000) bit
  c1.logUnit bit 0 n (0x1C00000 + 0x10000 * n + 0x1000)

/-- Set a flag of SZ_CX_DET of a context (R284, Table 11-9). -/
def Core.setDet (c : Core) (n bit : Nat) : Core :=
  let x := c.ctx n
  (c.setCtx n { x with det := setBit x.det bit true }).mark (0x200000 + 0x1000 * n + 0x38) bit

/-- Set a flag of SZ_Q_STATUS of a queue (Table 04-5). -/
def Core.setQueueFlag (c : Core) (n bit : Nat) : Core :=
  let q := c.queue n
  (c.setQueue n { q with status := setBit q.status bit true }).markNow (0x100000 + 0x1000 * n + 0x18) bit

/-- A CLOCK record: reasons 1 to 5 for drift_over, ref_absent, throttle, budget_low, align_lost (Table 13-1). -/
def Core.logClock (c : Core) (reason : Nat) : Core :=
  let w := if reason ≤ 2 then c.clk.drift else if reason ≤ 4 then c.pwr.status else c.gc.status
  c.log 0x09 reason 0 0 0 0 w 0

end Sys2Proof.Machine
end

