-- ==== Sys2Proof/Machine/Wire.lean ====
section
/-! DEFINITION. What stands on a wire bit by bit: the header, trailer and CRC-32C of a frame (R299, Tables 12-4 and 12-7), and the
PRBS31 sequence of test traffic (R383). -/

namespace Sys2Proof

/-- The payload bytes of a frame whose layout the spec does not give (Table 12-5; notes/assumptions/4). -/
opaque Config.frameBytes : Payload → List Byte

end Sys2Proof

namespace Sys2Proof.Machine

/-! PRBS31 -/

/-- One step of the register of PRBS31, polynomial x^31 + x^28 + 1 (R383). -/
def prbsStep (s : BitVec 31) : BitVec 31 := (s <<< 1) ||| (if s.getLsbD 30 != s.getLsbD 27 then 1 else 0)

/-- The register after some steps. -/
def prbsAfter : Nat → BitVec 31 → BitVec 31
  | 0, s => s
  | n + 1, s => prbsAfter n (prbsStep s)

/-- The next n bits of the sequence, the first in the lowest place of the number. -/
def prbsBits : Nat → BitVec 31 → Nat
  | 0, _ => 0
  | n + 1, s => b2n ((prbsStep s).getLsbD 0) + 2 * prbsBits n (prbsStep s)

/-- 64 bits of the sequence as a word: which end of the word the first bit takes is open (Config.prbsMsb). -/
def prbsWordOf (s : BitVec 31) : W64 :=
  let w := w64 (prbsBits 64 s)
  if Config.prbsMsb then w.reverse else w

/-- Word k of the sequence of a stream with a number (Config.prbsSeed). -/
def prbsWord (stream number k : Nat) : W64 := prbsWordOf (prbsAfter (64 * k) (Config.prbsSeed stream number))

/-- Words 1 to 63 of test frame number k: PRBS31 seeded with that number (R388). -/
def testWords (k : Nat) : List W64 := (List.range 63).map fun i => prbsWord 32 (k % 2 ^ 64) i

/-! Frames -/

/-- The type code of a frame (Table 12-5). -/
def payType : Payload → Nat
  | .ply _ => 1
  | .chan _ => 2
  | .sigadd _ _ => 3
  | .clip _ => 4
  | .psync _ _ => 5
  | .beacon _ => 0x10
  | .probe _ => 0x11
  | .ack => 0x12
  | .reserved t => t

/-- The payload of a beacon (Table 12-7). -/
def beaconBytes (b : Beacon) : List Byte :=
  wordBytes (w64 b.count)
    ++ wordBytes (w64 (b.phase % 2 ^ 8 * 2 ^ 56 + b.refIdx % 4 * 2 ^ 54 + b.hops % 2 ^ 8 * 2 ^ 46 + bitW 45 b.aligned + bitW 44 b.taken
        + b.port % 8 * 2 ^ 41 + b.kind % 16 * 2 ^ 37 + b.self % 2 ^ 16 * 2 ^ 16 + b.domainId % 2 ^ 16))
    ++ wordBytes (w64 (b.planRev % 2 ^ 32 * 2 ^ 32)) ++ wordBytes 0

/-- The payload bytes of a frame: those of a beacon, of a test frame (R388) and of an ACK are given. -/
def payBytes : Payload → List Byte
  | .beacon b => beaconBytes b
  | .probe (.test k ws) => wordBytes (w64 k) ++ ws.flatMap wordBytes
  | .ack => []
  | p => Config.frameBytes p

/-- len of a frame, in 8-byte units (Table 12-4). -/
def payLen (p : Payload) : Nat := min 64 (ceilDiv (payBytes p).length 8)

/-- The bytes that a frame takes: header, payload, trailer (R299). -/
def frameSize (f : Frame) : Nat := 24 + 8 * payLen f.payload

/-- The two header words of a frame (Table 12-4). -/
def frameHeader (f : Frame) : List W64 :=
  [w64 (f.dest % 2 ^ 16 * 2 ^ 48 + f.src % 2 ^ 16 * 2 ^ 32 + f.seq % 2 ^ 12 * 2 ^ 20 + payLen f.payload * 2 ^ 13
        + payType f.payload % 32 * 2 ^ 8 + f.vl % 4 * 2 ^ 6 + bitW 5 f.pleach),
   w64 (f.destLogical % 2 ^ 16 * 2 ^ 48 + f.resume % 2 ^ 16 * 2 ^ 32)]

/-- One bit of CRC-32C, polynomial 0x1EDC_6F41 (R299), in the bit order of that code (PRESUMED, notes/assumptions/98). -/
def crcBit (c : BitVec 32) : BitVec 32 := if c.getLsbD 0 then (c >>> 1) ^^^ 0x82F63B78 else c >>> 1

/-- One byte of CRC-32C. -/
def crcByte (c : BitVec 32) (b : Byte) : BitVec 32 :=
  crcBit (crcBit (crcBit (crcBit (crcBit (crcBit (crcBit (crcBit (c ^^^ b.zeroExtend 32))))))))

/-- CRC-32C: initial value 0xFFFF_FFFF and final inversion (R299). -/
def crc32c (bs : List Byte) : BitVec 32 := ~~~ (bs.foldl crcByte 0xFFFFFFFF)

/-- The CRC that the trailer of a frame has to hold (R299). -/
def frameCrc (f : Frame) : BitVec 32 := crc32c ((frameHeader f).flatMap wordBytes ++ payBytes f.payload)

/-- The trailer of a frame (R299). -/
def frameTrailer (f : Frame) : W64 :=
  w64 (f.ackSeq % 2 ^ 12 * 2 ^ 52 + f.ackVl % 4 * 2 ^ 50 + bitW 49 f.ackValid + bitW 48 f.nak + f.crc.toNat)

/-- Whether the CRC of a frame agrees. -/
def crcOk (f : Frame) : Bool := f.crc == frameCrc f

/-- A frame with the CRC that its sender writes. -/
def sealed (f : Frame) : Frame := { f with crc := frameCrc f }

end Sys2Proof.Machine
end

