-- ==== Sys2Proof/Machine/Operands.lean ====
section
/-! DEFINITION. The operands of a packet: its header (R70 to R72), the opcodes with their lengths, classes and masks
(Tables 03-8 and 03-9), the order in which several faults of one step are reported (R77), physical addresses (R81),
handles (R116 to R118), and the fields of a skein record (Table 05-2 on). -/

namespace Sys2Proof.Machine

/-! Header and words -/

/-- Word n of a packet. -/
def pw (p : Packet) (n : Nat) : W64 := p.getD n 0

/-- A field of word n of a packet. -/
def pf (p : Packet) (n lo len : Nat) : Nat := fld (pw p n) lo len

/-- A bit of word n of a packet. -/
def pb (p : Packet) (n i : Nat) : Bool := bitAt (pw p n) i

/-- The tag (Table 03-1). -/
def pkTag (p : Packet) : Nat := pf p 0 32 32
/-- The context field. -/
def pkCtx (p : Packet) : Nat := pf p 0 16 6
/-- The length in words. -/
def pkLen (p : Packet) : Nat := pf p 0 8 8
/-- The opcode. -/
def pkOp (p : Packet) : Nat := pf p 0 0 8
/-- NOACK (Table 03-2). -/
def pkNoAck (p : Packet) : Bool := pb p 0 27
/-- IRQ. -/
def pkIrq (p : Packet) : Bool := pb p 0 26
/-- FENCE. -/
def pkFence (p : Packet) : Bool := pb p 0 25
/-- EXP. -/
def pkExp (p : Packet) : Bool := pb p 0 24
/-- The handle base of a class H packet (R72). -/
def pkBase (p : Packet) : Nat := pf p 1 0 20

/-! Opcodes -/

/-- A row of Table 03-8. -/
structure OpRow where
  code   : Nat
  classH : Bool
  priv   : Bool
  basic  : Nat
  expert : Nat
  deriving DecidableEq, Repr

/-- Table 03-8. The length of SKEIN_PATCH is 4 + n; its row holds the least of them. -/
def opTable : List OpRow :=
  [⟨0x01, false, true, 6, 7⟩, ⟨0x02, false, true, 3, 3⟩, ⟨0x04, false, false, 3, 3⟩, ⟨0x05, false, false, 2, 2⟩,
   ⟨0x10, true, false, 4, 5⟩, ⟨0x11, false, false, 3, 3⟩, ⟨0x12, false, false, 5, 5⟩, ⟨0x20, true, false, 3, 4⟩,
   ⟨0x21, true, false, 4, 5⟩, ⟨0x22, false, false, 3, 3⟩, ⟨0x24, false, false, 3, 3⟩, ⟨0x26, false, false, 4, 4⟩,
   ⟨0x27, false, false, 2, 2⟩, ⟨0x30, false, false, 4, 4⟩, ⟨0x31, false, false, 4, 4⟩, ⟨0x32, false, false, 4, 4⟩,
   ⟨0x33, false, false, 4, 4⟩, ⟨0x40, true, false, 5, 6⟩, ⟨0x41, false, false, 3, 3⟩, ⟨0x42, false, false, 3, 3⟩]
  ++
  [⟨0x50, true, false, 5, 6⟩, ⟨0x51, false, false, 3, 3⟩, ⟨0x52, true, false, 4, 4⟩, ⟨0x60, false, true, 4, 4⟩,
   ⟨0x61, false, true, 4, 4⟩, ⟨0x62, false, true, 3, 3⟩, ⟨0x63, false, true, 3, 3⟩, ⟨0x70, true, true, 5, 6⟩,
   ⟨0x71, false, true, 2, 2⟩, ⟨0x72, true, true, 5, 5⟩, ⟨0x80, false, true, 4, 4⟩, ⟨0x81, false, true, 3, 3⟩,
   ⟨0x90, false, true, 4, 4⟩, ⟨0x91, false, true, 4, 4⟩, ⟨0xA0, true, false, 4, 4⟩, ⟨0xF0, false, true, 2, 2⟩]

/-- The row of an opcode, if it is assigned (R85). -/
def opRow (op : Nat) : Option OpRow := opTable.find? fun r => r.code == op

/-- A mask of some fields, each given by its highest and lowest bit. -/
def fields (l : List (Nat × Nat)) : W64 := l.foldl (fun a x => a ||| fldMask x.2 (x.1 - x.2 + 1)) 0

/-- The listed bits of the parameter words of an opcode, from W2 on (Table 03-9). -/
def paramMasks (op : Nat) (exp : Bool) : List W64 :=
  let slack := fields [(47, 16), (15, 8), (1, 0)]
  let skein := fields [(41, 32)]
  match op with
  | 0x01 => [fields [(63, 48), (39, 32), (31, 24), (19, 16), (5, 0)], fields [(49, 0)], fields [(49, 0)],
             fields [(44, 32), (18, 0)], fields [(16, 16), (15, 0)]]
  | 0x02 => [fields [(5, 0)]]
  | 0x04 => [fields [(51, 32), (20, 0)]]
  | 0x10 => [fields [(41, 32), (31, 0)], fields [(63, 32), (20, 0)], fields [(32, 32), (20, 0)]]
  | 0x11 => [skein]
  | 0x12 => [skein, fields [(7, 0)]]
  | 0x20 => [fields [(41, 32), (31, 0)], slack]
  | 0x21 => [fields [(41, 32), (31, 0)], fields [(63, 0)], slack]
  | 0x22 => [skein]
  | 0x24 => [fields [(31, 0)]]
  | 0x26 => [fields [(41, 32), (0, 0)], fields [(63, 0)]]
  | 0x30 => [fields [(33, 32), (23, 0)], fields [(63, 0)]]
  | 0x31 => [if exp then fields [(11, 0)] else fields [(23, 0)], fields [(63, 0)]]
  | 0x32 => [fields [(23, 0)], fields [(32, 32), (18, 0)]]
  | 0x33 => [fields [(23, 0)], fields [(18, 0)]]
  | 0x40 => [fields [(16, 16), (11, 0)], fields [(36, 32), (31, 0)], fields [(31, 0)], fields [(31, 0)]]
  | 0x41 => [fields [(16, 16), (11, 0)]]
  | 0x42 => [fields [(16, 16), (11, 0)]]
  | 0x50 => [fields [(63, 32), (5, 0)], fields [(47, 40), (39, 32), (26, 24), (20, 16), (13, 0)], fields [(63, 0)],
             fields [(31, 16), (0, 0)]]
  | 0x51 => [fields [(5, 0)]]
  | 0x52 => [fields [(5, 0)], fields [(31, 0)]]
  | 0x60 => [fields [(49, 0)], fields [(31, 0)]]
  | 0x61 => [fields [(49, 0)], fields [(31, 0)]]
  | 0x62 => [fields [(31, 0)]]
  | 0x63 => [fields [(8, 8), (2, 0)]]
  | 0x70 => [fields [(63, 0)], fields [(63, 0)], fields [(31, 0)], fields [(31, 0)]]
  | 0x72 => [fields [(31, 0)], fields [(63, 0)], fields [(63, 0)]]
  | 0x80 => [fields [(23, 0)], fields [(0, 0)]]
  | 0x81 => [fields [(7, 0)]]
  | 0x90 => [fields [(49, 0)], fields [(31, 0)]]
  | 0x91 => [fields [(49, 0)], fields [(31, 0)]]
  | 0xA0 => [fields [(47, 16), (7, 0)], fields [(31, 0)]]
  | _ => []

/-! Verdicts -/

/-- OK with no detail. -/
def vOk : Verdict := { status := .ok, detail := 0 }
/-- A verdict with an index of a word and a reason (Table 03-4). -/
def vWord (st : Status) (word reason : Nat) : Verdict := { status := st, detail := word * 2 ^ 16 + reason }
/-- STATE_ERROR with a reason of Table 03-5. -/
def vState (reason : Nat) : Verdict := { status := .stateError, detail := reason }
/-- ISOLATION with a reason of Table 03-5. -/
def vIso (reason : Nat) : Verdict := { status := .isolation, detail := reason }
/-- REFUSED_FULL with a resource of Table 03-4. -/
def vFull (resource : Nat) : Verdict := { status := .refusedFull, detail := resource }
/-- BAD_PARAM of a word. -/
def vParam (word reason : Nat) : Verdict := vWord .badParam word reason
/-- LIMIT_EXCEEDED of a word. -/
def vLimit (word reason : Nat) : Verdict := vWord .limitExceeded word reason
/-- FAULTED before the effect: the word whose access faulted, and the Reel status (Table 03-4). -/
def vFaulted (word code : Nat) : Verdict := vWord .faulted word code

/-- A check: nothing where it holds, the verdict where it fails. -/
def ensure (b : Bool) (v : Verdict) : Except Verdict Unit := if b then .ok () else .error v

/-- A fault found in step 9: its word, its lowest bit, its status and reason (R77). -/
structure PFault where
  word   : Nat
  bit    : Nat
  status : Status
  reason : Nat
  deriving DecidableEq, Repr

/-- A value outside its range (BAD_PARAM 0x02). -/
def range (word bit : Nat) (ok : Bool) : List PFault := if ok then [] else [⟨word, bit, .badParam, 2⟩]

/-- A value beyond a limit (LIMIT_EXCEEDED 0x01). -/
def limit (word bit : Nat) (ok : Bool) : List PFault := if ok then [] else [⟨word, bit, .limitExceeded, 1⟩]

/-- The lowest set bit of a word. -/
def lowestBit (w : W64) : Nat := (findBelow 64 (bitAt w)).getD 64

/-- Reserved bits that are set in a word under its mask (BAD_PARAM 0x01). -/
def reservedIn (p : Packet) (word : Nat) (mask : W64) : List PFault :=
  let x := pw p word &&& ~~~mask
  if x = 0 then [] else [⟨word, lowestBit x, .badParam, 1⟩]

/-- Reserved bits set in W1 of class H (R72) and in the parameter words (R86). -/
def reservedFaults (p : Packet) : List PFault :=
  let h := match opRow (pkOp p) with | some r => r.classH | none => false
  (if h then reservedIn p 1 (fields [(19, 0)]) else [])
    ++ ((paramMasks (pkOp p) (pkExp p)).zipIdx.filter fun m => decide (m.2 + 2 < pkLen p)).flatMap
        fun m => reservedIn p (m.2 + 2) m.1

/-- Step 9 (R77): the fault in the lowest word, and in it the lowest bit. -/
def step9 (p : Packet) (faults : List PFault) : Except Verdict Unit :=
  match sortBy (fun a b => keysLt [a.word, a.bit] [b.word, b.bit]) (reservedFaults p ++ faults) with
  | [] => .ok ()
  | f :: _ => .error (vWord f.status f.word f.reason)

/-! Steps 1 to 7 -/

/-- Steps 2 to 6 of Table 03-6 on a packet of queue n: the first that fails. SKEIN_PATCH has no single length: of the two contents that
Table 03-4 allows bits 15:8 of a BAD_LENGTH, the length the form requires or 0xFF, its reply carries 0xFF (DESIGN CHOICE,
notes/assumptions/88). -/
def frontVerdict (n : Nat) (p : Packet) : Option Verdict :=
  match opRow (pkOp p) with
  | none => some { status := .badOpcode, detail := pkOp p }
  | some r =>
    if pkCtx p ≠ n then some (vIso 1)
    else if r.priv && n != 0 then some (vIso 2)
    else if pf p 0 28 4 ≠ 0 ∨ pf p 0 22 2 ≠ 0 ∨ (pkFence p && r.classH) = true then some (vParam 0 6)
    else if pkOp p = 0x12 then
      if 5 ≤ pkLen p ∧ pkLen p ≤ 36 then none else some { status := .badLength, detail := 0xFF00 + pkLen p }
    else
      let need := if pkExp p then r.expert else r.basic
      if pkLen p = need then none else some { status := .badLength, detail := need * 256 + pkLen p }

/-- Step 7: whether the fence of a class F packet is satisfied (R71, R72). -/
def fenceMet (p : Packet) (compl : Nat) : Bool := !pkFence p || decide ((pw p 1).toNat ≤ compl)

/-! Step 8 -/

/-- The states that admit an opcode (Table 03-7); `armed`: a STOP_AT is armed. -/
def admits (op : Nat) (exp armed : Bool) : CtxState → Bool
  | .closed => false
  | .opened => if op = 0x27 then armed else true
  | .stopped => op != 0x20 && op != 0x21 && op != 0x22 && op != 0x26
  | .halted =>
    if op = 0x27 then exp
    else op != 0x10 && op != 0x40 && op != 0x50 && op != 0x20 && op != 0x21 && op != 0x22 && op != 0x26

/-- Step 8: the context state admits the opcode (R82, R83). A privileged opcode stands on queue 0. -/
def Core.admitted (c : Core) (n : Nat) (p : Packet) : Bool :=
  let x := c.ctx n
  admits (pkOp p) (pkExp p) x.stop.isSome x.st

/-! Addresses -/

/-- A physical address parameter that must be aligned to 64 bytes and hold n bytes of its tier (R81, R31). -/
def physFaults (p : Packet) (word n : Nat) : List PFault :=
  let tier := pf p word 48 2
  let a := pf p word 0 48
  if tier ≥ 2 then range word (if a % 64 ≠ 0 then 0 else 48) false
  else range word 0 (a % 64 == 0 && inTier tier a n)

/-- The byte address of a physical address parameter. -/
def physAddr (p : Packet) (word : Nat) : Nat := pf p word 0 48

/-! Handles -/

/-- A resolved region: whether Serzo may write it, its address and its size (R117). -/
structure Region where
  write : Bool
  base  : Nat
  size  : Nat
  deriving DecidableEq, Repr

/-- Why a handle does not resolve: a reason of BAD_HANDLE, or the Reel status of the entry read. -/
inductive HErr where
  | bad (reason : Nat)
  | fault (code : Nat)
  deriving DecidableEq, Repr

/-- The handle that means none. -/
def noHandle : Nat := 0xFFFFFFFF

/-- A handle-table entry that satisfies conditions 1 to 8 of R117. -/
def entryRegion (e0 e1 : W64) (gen : Nat) (write : Bool) : Option Region :=
  let base := fld e0 0 48
  let size := fld e1 0 48
  if bitAt e0 63 && fld e0 50 12 == gen && fld e1 48 16 == 0 && base % 64 == 0 && size != 0 && size % 64 == 0
      && inTier (fld e0 48 2) base size && (!write || bitAt e0 62) then
    some { write := bitAt e0 62, base := base, size := size }
  else none

/-- Resolve a handle in the table of a context (R116 to R118): table index base + index, and an extent. -/
def Core.resolve (c : Core) (ctx base h : Nat) (write : Bool) (extent : Nat) : Except HErr Region :=
  if h = noHandle then .error (.bad 2)
  else
    let x := c.ctx ctx
    let idx := h % 2 ^ 20 + base
    if x.handleLog2 = 0 ∨ 2 ^ x.handleLog2 ≤ idx then .error (.bad 1)
    else
      match c.readWords (fld x.htab 0 48 + 16 * idx) 2 with
      | .error k => .error (.fault k)
      | .ok ws =>
        match entryRegion (ws.getD 0 0) (ws.getD 1 0) (h / 2 ^ 20) write with
        | none => .error (.bad 2)
        | some r => if r.size < extent then .error (.bad 3) else .ok r

/-- The verdict of a handle that does not resolve, against a word of the packet. -/
def HErr.verdict (word : Nat) : HErr → Verdict
  | .bad r => vWord .badHandle word r
  | .fault k => vFaulted word k

/-- A handle parameter of a packet: the 32 bits at `lo` of a word (R72). -/
def Core.handleParam (c : Core) (n : Nat) (p : Packet) (word lo : Nat) (write : Bool) (extent : Nat) :
    Except Verdict Region :=
  match c.resolve n (pkBase p) (pf p word lo 32) write extent with
  | .error e => .error (e.verdict word)
  | .ok r => .ok r

/-- An extent that only the named item gives is checked after step 11 (R408). -/
def extentCheck (word : Nat) (r : Region) (extent : Nat) : Except Verdict Unit :=
  ensure (decide (extent ≤ r.size)) (vWord .badHandle word 3)

/-- Words read by a command for a word of its packet: a Reel fault is FAULTED (R78). -/
def Core.readFor (c : Core) (word a n : Nat) : Except Verdict (List W64) :=
  match c.readWords a n with
  | .error k => .error (vFaulted word k)
  | .ok ws => .ok ws

/-! Records of an image -/

/-- A field of a record of 256 bits: word n, from bit `lo`. -/
def rf (r : Rec256) (n lo len : Nat) : Nat := r.toNat / 2 ^ (64 * n + lo) % 2 ^ len

/-- A bit of a record. -/
def rb (r : Rec256) (n i : Nat) : Bool := r.getLsbD (64 * n + i)

/-- A record with one field replaced. -/
def rset (r : Rec256) (n lo len v : Nat) : Rec256 :=
  let m := BitVec.ofNat 256 ((2 ^ len - 1) * 2 ^ (64 * n + lo))
  (r &&& ~~~m) ||| BitVec.ofNat 256 (v % 2 ^ len * 2 ^ (64 * n + lo))

/-- A record made of four words. -/
def recOf (w : List W64) : Rec256 :=
  BitVec.ofNat 256 ((w.getD 0 0).toNat + (w.getD 1 0).toNat * 2 ^ 64 + (w.getD 2 0).toNat * 2 ^ 128
    + (w.getD 3 0).toNat * 2 ^ 192)

/-- The records that a run of words spells, four words each. -/
def recsOf : Nat → List W64 → List Rec256
  | 0, _ => []
  | n + 1, ws => recOf (ws.take 4) :: recsOf n (ws.drop 4)

end Sys2Proof.Machine
end

