-- ==== Sys2Proof/Machine/Reply.lean ====
section
/-! DEFINITION. Replies (R71, R73, R75, R407), what makes a queue give way (R98), and how the control processor takes a
packet that Distaff has offered it (R94, R84, R109). -/

namespace Sys2Proof.Machine

/-- The place a reply kind leaves for the packet that stands at the front: a queue in ROOM that has 2040 bytes free
becomes ARMED (R105). -/
def Queue.room (q : Queue) : Queue :=
  if q.fetch = .room ∧ sumBy (fun p => 8 * p.length) q.buf + 2040 ≤ 4096 then { q with fetch := .armed } else q

/-- The front packet of a queue gives way (R98). -/
def Queue.giveWay (q : Queue) : Queue := { q with cur := .none }

/-- Word 0 of a reply (Table 03-3). -/
def Reply.word0 (r : Reply) : W64 := w64 (r.detail % 2 ^ 24 * 2 ^ 40 + r.status.code * 2 ^ 32 + r.tag % 2 ^ 32)

/-- A QUEUE record (Tables 13-1, 13-1a). -/
def Core.logQueue (c : Core) (n reason status detail : Nat) (value : W64) : Core :=
  c.log 0x02 reason n n status detail (w64 (c.queue n).head) value

/-- A STALL record (Table 13-1). -/
def Core.logStall (c : Core) (n reason : Nat) : Core :=
  c.log 0x06 reason n n 0 0 (w64 (c.ctx n).cmds) (w64 (c.ctx n).tasks)

/-- Whether a final reply is given no more: once DEVICE_RESET has taken effect, none but RESET_PENDING follows (R89). -/
def Core.mute (c : Core) (v : Verdict) : Bool := c.fe.stopped && v.status != .resetPending

/-- A final reply of queue n is finalised: the completion count and cmds advance; it takes its place in the reply order,
or is dropped on a queue in OFF (R71, R75, R329, R407). `rest`, `halts`: as in Reply. -/
def Core.finalReplyOf (c : Core) (n tag : Nat) (v : Verdict) (irq gives : Bool) (rest : Option RunRest) (halts : Bool) : Core :=
  if c.mute v then c else
  let q := c.queue n
  let k := (q.compl + 1) % 2 ^ 64
  let r : Reply := { tag := tag, status := v.status, detail := v.detail, count := k, final := true, irq := irq,
                     gives := gives, rest := rest, halts := halts }
  let x := c.ctx n
  let c1 := c.setCtx n { x with cmds := sat64 x.cmds 1, progressed := true }
  if q.fetch = .off then
    let c2 := c1.setQueue n (if gives then { q with compl := k, cur := .none } else { q with compl := k })
    c2.logQueue n 3 v.status.code 0 r.word0
  else
    c1.setQueue n
      (if gives then { q with compl := k, replies := q.replies ++ [r], cur := .replying }
       else { q with compl := k, replies := q.replies ++ [r] })

/-- A final reply that is no run's and halts nothing. -/
def Core.finalReply (c : Core) (n tag : Nat) (v : Verdict) (irq gives : Bool) : Core :=
  c.finalReplyOf n tag v irq gives none false

/-- An ACCEPTED reply: the count as it stands; the front packet gives way when it is written, or at once with NOACK or
on a queue in OFF (R75, R98, R407). -/
def Core.acceptedReply (c : Core) (n : Nat) (p : Packet) : Core :=
  let q := c.queue n
  if pkNoAck p || q.fetch == .off then c.setQueue n q.giveWay
  else
    let r : Reply := { tag := pkTag p, status := .accepted, detail := 0, count := q.compl, final := false, irq := false,
                       gives := true }
    c.setQueue n { q with replies := q.replies ++ [r], cur := .replying }

/-- How many replies the ring of a queue holds (R110). -/
def Queue.slots (q : Queue) : Nat := 2 ^ fld q.reply 54 5 / 16

/-- Whether the reply ring has room for one more (R110). -/
def Queue.hasRoom (q : Queue) : Bool := decide (diff32 q.rplTail q.rplFree < q.slots)

/-- Whether the reply or the mirror word of a queue waits for a stash entry (R335). -/
def Core.stashHolds (c : Core) (n : Nat) : Bool :=
  c.stash.waiting.any fun w => match w.2 with | .queue m => m == n | .mirror m _ => m == n | _ => false

/-- A queue whose reply is held, for lack of reply space or of a stash entry, is not processed (R76, R335). -/
def Core.replyHeld (c : Core) (n : Nat) : Bool :=
  let q := c.queue n
  (!q.replies.isEmpty && !q.hasRoom) || c.stashHolds n

/-- Whether a clip or a RESTORE covers a context: a clip from the DCLK of its count on (R84). -/
def Core.covered (c : Core) (n : Nat) : Bool :=
  (match c.clip.run with
   | some r => (r.phase != .armed || decide (r.count ≤ c.gc.count)) && bitAt r.mask n
   | none => false)
    || (match c.clip.restore with | some r => bitAt r.mask n | none => false)

/-- Whether a memory BIST runs (R391, R394): selectors 0x01 and 0x02. -/
def Core.bistRuns (c : Core) : Bool := match c.tl.self with | some r => r.sel == 1 || r.sel == 2 | none => false

/-- A deferred command (R84, R394): every one but NOP and QUERY of a covered context, and of queue 0 while a BIST
runs. -/
def Core.deferred (c : Core) (n : Nat) (p : Packet) : Bool :=
  pkOp p != 0x05 && pkOp p != 0xA0 && (c.covered n || (n == 0 && c.bistRuns))

/-- The packet that the control processor takes next: the first offered whose queue is neither deferred nor held. -/
def Core.nextOffered (c : Core) : List Nat → Option (Nat × Packet)
  | [] => none
  | n :: r =>
    match (c.queue n).cur with
    | .offered p => if c.deferred n p || c.replyHeld n then Core.nextOffered c r else some (n, p)
    | _ => Core.nextOffered c r

/-- What a command answers once its checks have passed: a final reply with the state of its effect, an ACCEPTED reply,
or a packet that holds its queue. -/
inductive CpRes where
  | done (v : Verdict) (c : Core)
  | accept (c : Core)
  | hold (cur : QCur) (c : Core)
  deriving DecidableEq, Repr

/-- Bytes written by a command for a word of its packet, and what follows. A write that fails makes the command FAULTED (R78,
Table 01-6); one answered with POISON leaves its bytes undefined (R409). -/
def Core.writeThen (c : Core) (word a : Nat) (bs : List Byte) (next : Core → Except Verdict CpRes) : Except Verdict CpRes :=
  match c.writeFault a bs.length with
  | none => next (c.writeBytes a bs)
  | some 2 => .ok (.done (vFaulted word 2) (c.freeBytes ((List.range bs.length).map (a + ·))))
  | some k => .error (vFaulted word k)

/-- Whether a command cannot take effect yet, one of its accesses having to wait under R33 or R34. -/
def heldAnswer : Except Verdict CpRes → Bool
  | .error v => v.status == .faulted && v.detail % 256 == heldCode
  | .ok _ => false

/-- The effect of the answer of a command of queue n. -/
def Core.answer (c : Core) (n : Nat) (p : Packet) : Except Verdict CpRes → Core
  | .error v => c.finalReply n (pkTag p) v (pkIrq p) true
  | .ok (.done v d) => d.finalReply n (pkTag p) v (pkIrq p) true
  | .ok (.accept d) => d.acceptedReply n p
  | .ok (.hold cur d) => d.setQueue n { d.queue n with cur := cur }

/-- Whether the control processor can take a command now: none took effect in this PCLK (R94), and no DEVICE_RESET has (R89). -/
def Core.cpFree (c : Core) : Bool := !c.fe.stopped && c.fe.tookAt != some c.pclk

/-- The packet of queue n has been taken. -/
def Core.cpTaken (c : Core) (n : Nat) : Core :=
  { c with fe := { c.fe with offered := c.fe.offered.filter fun m => m != n, tookAt := some c.pclk } }

/-- What a command of queue n answers: step 8 of the context state first, then the command's own steps (R77). -/
def Core.cpAnswer (c : Core) (n : Nat) (p : Packet) (run : Core → Nat → Packet → Except Verdict CpRes) : Except Verdict CpRes :=
  if c.admitted n p then run c n p else .error (vState 1)

/-- The control processor takes the next offered packet if its opcode is `op` (R94). A refused command changes nothing but the
reply (R78); a command one of whose accesses has to wait takes effect later (R33, R34, R94). -/
def Core.cpTake (c : Core) (op : Nat) (run : Core → Nat → Packet → Except Verdict CpRes) : Core :=
  if !c.cpFree then c
  else
    match c.nextOffered c.fe.offered with
    | none => c
    | some (n, p) =>
      if pkOp p ≠ op then c
      else
        let r := (c.cpTaken n).cpAnswer n p run
        if heldAnswer r then c else (c.cpTaken n).answer n p r

/-- A host command in RUN. -/
def onCommand (s : State) (op : Nat) (run : Sys → Core → Nat → Packet → Except Verdict CpRes) :
    Host.Outcome State Fault Refusal :=
  onRun s fun sys c => c.cpTake op (run sys)

/-- A packet that has held its queue receives its final reply (R224, R98). -/
def Core.release (c : Core) (n : Nat) (v : Verdict) : Core :=
  match (c.queue n).cur with
  | .syncWait p _ => c.finalReply n (pkTag p) v (pkIrq p) true
  | .sigWait p _ _ => c.finalReply n (pkTag p) v (pkIrq p) true
  | .cancelWait p _ => c.finalReply n (pkTag p) v (pkIrq p) true
  | .closeWait p _ => c.finalReply n (pkTag p) v (pkIrq p) true
  | .closeReply p _ => c.finalReply n (pkTag p) v (pkIrq p) true
  | .working p => c.finalReply n (pkTag p) v (pkIrq p) true
  | .none => c
  | .offered _ => c
  | .replying => c

end Sys2Proof.Machine
end

