-- ==== Sys2Proof/Machine/Net.lean ====
section
/-! DEFINITION. Frames: names of positions (R309), sending and waiting (R301, R310), receiving with acknowledgement and
replay (R301, R302), routing (R310), Pleach (R316, R317), and adds to signal words (R138, R312). -/

namespace Sys2Proof.Machine

/-! Signal words -/

/-- The adds of the present DCLK to a signal word (R138). -/
def Core.sigAdded (c : Core) (n : Nat) : W64 :=
  c.graph.sigAdds.foldl (fun a x =>
    match x with
    | .add m v => if m = n then a + v else a
    | .write _ _ => a) 0

/-- A Distaff write of a signal word: in its DCLK it comes before every add (R138). -/
def Core.sigWrite (c : Core) (n : Nat) (v : W64) : Core :=
  { c with graph := { c.graph with sigs := aset c.graph.sigs n (v + c.sigAdded n),
                                   sigAdds := c.graph.sigAdds ++ [.write n v] } }

/-- An add to a signal word (R138). -/
def Core.sigAdd (c : Core) (n : Nat) (v : W64) : Core :=
  { c with graph := { c.graph with sigs := aset c.graph.sigs n (c.sig n + v),
                                   sigAdds := c.graph.sigAdds ++ [.add n v] } }

/-- Whether a signal word lies in the signal range of a context (Table 05-19). -/
def Core.sigIn (c : Core) (ctx n : Nat) : Bool :=
  let r := (c.ctx ctx).sigrange
  decide (fld r 0 12 ≤ n) && decide (n < fld r 0 12 + fld r 16 13)

/-! Names -/

/-- Whether a context is bound to the slice of this chip (Table 12-9, R343): a chip with slice_en = 0 forms a slice of one. -/
def Core.bound (c : Core) (ctx : Nat) : Bool :=
  match c.fab.route with
  | some r => bitAt r.ctxMask ctx
  | none => false

/-- Whether some context is bound to the slice. -/
def Core.anyBound (c : Core) : Bool := (List.range 64).any c.bound

/-- Whether a logical position lies in the block of the slice (R309). -/
def inBlock (p : Plan) (r : Route) (l : Nat) : Bool :=
  decide (l < p.logCount)
    && (coordsOf p.logDims l).zipIdx.all fun k =>
      decide ((k.1 + p.logLen k.2 - r.starts.getD k.2 0) % p.logLen k.2 < r.lens.getD k.2 1)

/-- Whether a context may name a logical position (R309). -/
def Core.mayName (c : Core) (ctx l : Nat) : Bool :=
  match c.fab.plan, c.fab.route with
  | some p, some r => if r.sliceEn && c.bound ctx then inBlock p r l else c.myLogical == some l
  | some _, none => c.myLogical == some l
  | none, _ => false

/-- The position one step from a position along a role (R294). -/
def Plan.step (p : Plan) (x role : Nat) : Nat :=
  posOf p.dims ((coordsOf p.dims x).zipIdx.map fun k =>
    let d := p.dims.getD k.2 1
    if k.2 = role / 2 then (if role % 2 = 0 then (k.1 + 1) % d else (k.1 + d - 1) % d) else k.1)

/-- The neighbour of this chip along a role. -/
def Core.neighbour (c : Core) (role : Nat) : Nat :=
  match c.fab.plan with
  | some p => p.step p.self role
  | none => 0

/-- The role in the opposite direction of the same axis. -/
def oppRole (role : Nat) : Nat := if role % 2 = 0 then role + 1 else role - 1

/-- The port that holds a role. -/
def Core.portOfRole (c : Core) (role : Nat) : Option Nat :=
  findBelow c.cfg.linkPorts fun p => (c.link p).role == role

/-! Frames and lanes -/

/-- Whether a frame of job class travels on VL2 (Table 12-3). -/
def payControl : Payload → Bool
  | .ply _ => false
  | .chan m => match m.body with | .record _ _ _ _ => false | _ => true
  | _ => true

/-- Whether a frame is counted by SZ_CLIP_TX and SZ_CLIP_RX (R347). -/
def payCounted : Payload → Bool
  | .chan _ => true
  | .sigadd _ _ => true
  | _ => false

/-- A frame of this chip for a position that holds a logical position. -/
def Core.mkFrame (c : Core) (dest l : Nat) (pl : Payload) : Frame :=
  { dest := dest, src := c.self, seq := 0, vl := 0, pleach := false, destLogical := l, resume := 0, payload := pl,
    ackSeq := 0, ackVl := 0, ackValid := false, nak := false, crc := 0 }

/-- A virtual lane of a port. -/
def Link.lane (l : Link) (vl : Nat) : LinkLane :=
  match vl with
  | 0 => l.vl0
  | 1 => l.vl1
  | 2 => l.vl2
  | _ => l.vl3

/-- The lane of a port on which sequence numbers of a lane are acknowledged: in a loop-back, that of the test frames. -/
def Link.ackLane (l : Link) (vl : Nat) : LinkLane := if l.looped then l.testLane else l.lane vl

/-- A virtual lane of a port replaced. -/
def Link.setLane (l : Link) (vl : Nat) (a : LinkLane) : Link :=
  match vl with
  | 0 => { l with vl0 := a }
  | 1 => { l with vl1 := a }
  | 2 => { l with vl2 := a }
  | _ => { l with vl3 := a }

/-- Whether the replay buffer of a lane has no room for a frame: 64 KiB for VL0 to VL2 together, 8 KiB for VL3 (R301;
notes/assumptions/20). -/
def Link.full (l : Link) (vl : Nat) (f : Frame) : Bool :=
  if vl = 3 then decide (8192 < sumBy frameSize l.vl3.replay + frameSize f)
  else decide (65536 < sumBy frameSize (l.vl0.replay ++ l.vl1.replay ++ l.vl2.replay) + frameSize f)

/-- A frame with the acknowledgement that is due first (R301). -/
def Link.stamp (l : Link) (f : Frame) : Frame × Link :=
  match l.ackDue with
  | [] => (f, l)
  | v :: rest =>
    ({ f with ackValid := true, nak := false, ackVl := v, ackSeq := ((l.ackLane v).expect + 4095) % 4096 },
     { l with ackDue := rest, ackSince := if rest.isEmpty then none else l.ackSince })

/-- A frame is sent on a lane: it takes the next number and stands in the replay buffer (R301). -/
def Link.transmit (l : Link) (now vl : Nat) (f : Frame) : Link :=
  let g := l.stamp f
  let a := g.2.lane vl
  let l1 := g.2.setLane vl { a with nextSeq := (a.nextSeq + 1) % 4096,
                                    replay := a.replay ++ [sealed { g.1 with seq := a.nextSeq, vl := vl }] }
  { l1 with unackAt := match l1.unackAt with | some t => some t | none => some now }

/-- Frames that wait on a lane are sent while there is room; a port with no role carries none (R306). -/
def Link.pumpLane (now vl : Nat) : Nat → Link → Link
  | 0, l => l
  | n + 1, l =>
    match (l.lane vl).waiting with
    | [] => l
    | f :: rest =>
      if l.st ≠ .active ∨ l.looped ∨ l.role = 0xF ∨ l.full vl f then l
      else Link.pumpLane now vl n ((l.setLane vl { l.lane vl with waiting := rest }).transmit now vl f)

/-- Every lane of a port sends what it can, in the order of R300. -/
def Link.pump (l : Link) (now : Nat) : Link :=
  [2, 1, 0, 3].foldl (fun x vl => x.pumpLane now vl (x.lane vl).waiting.length) l

/-- A frame joins a lane of a port: sent at once, or waiting (R301, R310). -/
def Core.enqueue (c : Core) (p vl : Nat) (f : Frame) : Core :=
  let l := c.link p
  let a := l.lane vl
  c.setLink p ((l.setLane vl { a with waiting := a.waiting ++ [f] }).pump c.now)

/-- The link lane of a port that a NAK or an acknowledgement changes. -/
def Link.setAckLane (l : Link) (vl : Nat) (a : LinkLane) : Link :=
  if l.looped then { l with testLane := a } else l.setLane vl a

/-- A link-local frame leaves a port (Table 12-5). -/
def Core.sendLocal (c : Core) (p : Nat) (pl : Payload) : Core :=
  let l := c.link p
  let g := l.stamp { c.mkFrame 0 0 pl with vl := 2 }
  c.setLink p { g.2 with ctlOut := g.2.ctlOut ++ [sealed g.1] }

/-- A NAK of a lane with the first missing number (R301). -/
def Core.sendNak (c : Core) (p vl : Nat) : Core :=
  let l := c.link p
  let a := l.ackLane vl
  let f := { c.mkFrame 0 0 .ack with vl := 2, ackValid := true, nak := true, ackVl := vl, ackSeq := a.expect }
  c.setLink p { (l.setAckLane vl { a with gap := true }) with ctlOut := l.ctlOut ++ [sealed f] }

/-! Counters of the fabric -/

/-- A frame is discarded (R298, R308, R310): a discarded CHAN or SIGADD frame counts as arriving (R347). -/
def Core.discardFrame (c : Core) (p : Nat) (f : Frame) : Core :=
  let c1 := { c with fab := { c.fab with cnt := satAdd c.fab.cnt 0 32 1 } }
  let c2 := if payCounted f.payload && c.anyBound then { c1 with clip := { c1.clip with rx := c1.clip.rx + 1 } } else c1
  c2.setFab 6 p

/-- Transit frames lost at a port (R316, R317). -/
def Core.pleachLost (c : Core) (p n : Nat) : Core :=
  if n = 0 then c
  else
    let l := c.link p
    (c.setLink p { l with cnt2 := satAdd l.cnt2 0 32 n }).setFab 4 p

/-! Sending -/

/-- Whether a port is FAILED or HELD. -/
def Link.broken (l : Link) : Bool := l.st == .failed || l.st == .held

/-- A frame that no port can carry at present waits for its role. -/
def Core.holdFrame (c : Core) (role vl : Nat) (f : Frame) : Core :=
  { c with fab := { c.fab with held := c.fab.held ++ [(role, vl, f)] } }

/-- A transit frame whose next hop is port p leaves on the port of the opposite role (R316); with that port FAILED or HELD
as well at the end of the previous DCLK (R317) it is lost. -/
def Core.sendPleach (c : Core) (p role : Nat) (f : Frame) : Core :=
  match c.portOfRole (oppRole role) with
  | none => c.pleachLost p 1
  | some q =>
    if (c.link q).wasBroken then c.pleachLost p 1
    else
      let l := c.link p
      (c.setLink p { l with cnt2 := satAdd l.cnt2 32 32 1 }).enqueue q 3
        { f with pleach := true, resume := c.neighbour role, vl := 3 }

/-- A frame leaves along a role on a lane (R310, R316); `resumed`: it has just left Pleach (R317). -/
def Core.sendRole (c : Core) (role vl : Nat) (resumed : Bool) (f : Frame) : Core :=
  match c.portOfRole role with
  | none => c.holdFrame role vl f
  | some p =>
    if vl = 3 then
      if resumed && (c.link p).wasBroken then c.pleachLost p 1
      else if (c.link p).pleach then c.sendPleach p role f
      else c.enqueue p 3 { f with vl := 3 }
    else c.enqueue p vl { f with vl := vl }

/-- Frames that wait for a role are offered again. -/
def Core.retryHeld (c : Core) : Core :=
  c.fab.held.foldl (fun d h => d.sendRole h.1 h.2.1 false h.2.2) { c with fab := { c.fab with held := [] } }

/-- The lane of a forwarded frame that arrived on a port and leaves along a role (R310). -/
def Core.forwardLane (c : Core) (inPort : Nat) (role vl : Nat) : Nat :=
  match c.fab.plan with
  | none => vl
  | some p =>
    let came := (c.link inPort).role
    let axis := came / 2
    let d := p.dims.getD axis 1
    let x := (coordsOf p.dims p.self).getD axis 0
    let dl := p.datelines.getD axis 0
    if vl = 0 then
      -- it came over the link between dl and dl + 1 and goes on along the same axis
      let crossed := if came % 2 = 1 then x == (dl + 1) % d else x == dl % d
      if role / 2 = axis ∧ crossed then 1 else 0
    else if vl = 1 then (if role / 2 = axis then 1 else 0)
    else vl

/-- The route entry of a physical position (Table 12-10). -/
def Core.routeEntry (c : Core) (dest : Nat) : Option RouteEnt :=
  match c.fab.route with
  | none => none
  | some r =>
    match r.table[dest]? with
    | some e => if e.valid then some e else none
    | none => none

/-- A frame for another chip is routed (R310). -/
def Core.routeFrame (c : Core) (inPort : Option Nat) (resumed : Bool) (f : Frame) : Core :=
  match c.routeEntry f.dest with
  | none => c.discardFrame (inPort.getD 0) f
  | some e =>
    match inPort with
    | none => c.sendRole e.role (if e.transit then 3 else if payControl f.payload then 2 else 0) resumed f
    | some p => c.sendRole e.role (c.forwardLane p e.role f.vl) resumed f

/-- A context sends a frame to a logical position (R310, R347). It is routed at the end of the DCLK, so that a ROUTE_LOAD of the DCLK
routes it (R321). -/
def Core.sendFrame (c : Core) (ctx l : Nat) (pl : Payload) : Core :=
  let c1 := if payCounted pl && c.bound ctx then { c with clip := { c.clip with tx := c.clip.tx + 1 } } else c
  let f := c1.mkFrame (c1.holder l) l pl
  if c1.myLogical = some l then { c1 with fab := { c1.fab with inbox := c1.fab.inbox ++ [f] } }
  else { c1 with fab := { c1.fab with fresh := c1.fab.fresh ++ [f] } }

/-- The frames created in a DCLK are routed at its end (R310, R321). -/
def Core.routeFresh (c : Core) : Core :=
  c.fab.fresh.foldl (fun d f => d.routeFrame none false f) { c with fab := { c.fab with fresh := [] } }

/-- The logical position that a physical position holds now (R295, R319), if any. -/
def Core.logicalAt (c : Core) (phys : Nat) : Option Nat :=
  match c.fab.plan with
  | none => none
  | some p => (List.range p.logCount).find? fun l => c.holder l == phys

/-! States of a port that sending and receiving change -/

/-- Pleach begins at a port that has been ACTIVE since the last ROUTE_LOAD (R316): the PSYNC goes in reverse along the ring,
and transit frames that wait leave on the opposite port. -/
def Core.pleachBegin (c : Core) (p : Nat) : Core :=
  let l := c.link p
  if l.wasActive && !l.pleach && l.role != 0xF then
    let far := c.neighbour l.role
    let farPort := match c.fab.plan with | some pl => ((pl.ports[p]?).map (·.nbrPort)).getD 0 | none => 0
    let moved := l.vl3.waiting
    let c1 := c.setLink p { l with pleach := true, psyncAt := some (c.now + 3 * 2 ^ 20),
                                   vl3 := { l.vl3 with waiting := [] } }
    let c2 := c1.setFab 3 p
    let f := { c2.mkFrame far ((c2.logicalAt far).getD 0) (.psync ((l.vl3.expect + 4095) % 4096) farPort) with
               pleach := true, resume := far, vl := 3 }
    let c3 := match c2.portOfRole (oppRole l.role) with
      | some q => c2.enqueue q 3 f
      | none => c2
    moved.foldl (fun d g => d.sendPleach p l.role g) c3
  else c

/-- A port enters FAILED with a kind (Table 12-6). -/
def Core.linkFail (c : Core) (p kind : Nat) : Core :=
  let l := c.link p
  ((c.setLink p { l with st := .failed, kind := kind, since := c.now }).setFab 1 p).pleachBegin p

/-- A port enters HELD with a kind (Table 12-6). -/
def Core.linkHold (c : Core) (p kind : Nat) : Core :=
  let l := c.link p
  ((c.setLink p { l with st := .held, kind := kind, since := c.now }).setFab 2 p).pleachBegin p

/-- A port goes to PHY_UP; from ACTIVE this is a retrain (R302, Table 12-6). -/
def Core.linkPhyUp (c : Core) (p : Nat) : Core :=
  let l := c.link p
  let l1 := { l with st := .phyUp, since := c.now, probes := [], taken := false, farTaken := false, beacon := none,
                     unackAt := none, ackSince := none, ackDue := [], locked := false,
                     testLane := { l.testLane with gap := false, nakRun := 0 },
                     vl0 := { l.vl0 with gap := false, nakRun := 0 }, vl1 := { l.vl1 with gap := false, nakRun := 0 },
                     vl2 := { l.vl2 with gap := false, nakRun := 0 }, vl3 := { l.vl3 with gap := false, nakRun := 0 } }
  if l.st = .active then (c.setLink p { l1 with retrains := min (l.retrains + 1) 65535 }).setFab 0 p
  else c.setLink p l1

/-! Receiving -/

/-- Numbers of a lane that lie before a number, in a window of half the sequence (R301). -/
def seqBefore (a b : Nat) : Bool := decide ((b + 4096 - a % 4096) % 4096 ≠ 0) && decide ((b + 4096 - a % 4096) % 4096 ≤ 2048)

/-- An acknowledgement or a NAK of a lane is taken (R301, R302): frames before it leave the replay buffer, and a NAK replays
the rest; the eighth NAK of one number in a row retrains the port. -/
def Core.takeAck (c : Core) (p : Nat) (f : Frame) : Core :=
  if !f.ackValid then c
  else
    let l := c.link p
    let a := l.ackLane f.ackVl
    let first := if f.nak then f.ackSeq else (f.ackSeq + 1) % 4096
    let rest := a.replay.dropWhile fun g => seqBefore g.seq first
    let moved := decide (rest.length < a.replay.length)
    let run := if f.nak then (if a.nakSeq = f.ackSeq then a.nakRun + 1 else 1) else 0
    let l1 := l.setAckLane f.ackVl { a with replay := rest, nakSeq := f.ackSeq, nakRun := run }
    let open_ := if l1.looped then !l1.testLane.replay.isEmpty else [0, 1, 2, 3].any fun v => !(l1.lane v).replay.isEmpty
    let l2 := { l1 with unackAt := if open_ then (if moved || !f.nak then some c.now else l1.unackAt) else none,
                        cnt0 := if f.nak then satAdd l1.cnt0 0 32 rest.length else l1.cnt0 }
    let c1 := c.setLink p (l2.pump c.now)
    if run = 8 then c1.linkPhyUp p else c1

/-- A lane of a port owes an acknowledgement. -/
def Link.owe (l : Link) (now vl : Nat) : Link :=
  { l with ackDue := if l.ackDue.contains vl then l.ackDue else l.ackDue ++ [vl],
           ackSince := match l.ackSince with | some t => some t | none => some now }

/-- A frame of a reserved type (Table 12-5). -/
def payReserved : Payload → Bool
  | .reserved _ => true
  | _ => false

/-- Whether a SIGADD that found the stash full holds VL2 of a port (R335). -/
def Core.vl2Held (c : Core) (p : Nat) : Bool := c.stash.waiting.any fun w => w.2 == .port p

/-- Whether a port reflects (R389). -/
def Core.reflecting (c : Core) (p : Nat) : Bool :=
  let l := c.link p
  l.looped && l.locked && l.st == .align && agetD c.tl.linkDepth p 0 == 5

/-- A test frame (R388). -/
def payTest : Payload → Bool
  | .probe (.test _ _) => true
  | _ => false

/-- A frame reaches a reflecting port: a good one leaves unchanged, a bad one is counted and discarded (R389). -/
def Core.reflect (c : Core) (p : Nat) (f : Frame) : Core :=
  let l := c.link p
  if crcOk f then
    let d := c.setLink p { l with ctlOut := l.ctlOut ++ [f] }
    if payTest f.payload then
      { d with tl := { d.tl with linkTx := aset d.tl.linkTx p (sat64 (agetD d.tl.linkTx p 0) 1) } }
    else d
  else c.setLink p { l with cnt0 := satAdd l.cnt0 32 32 1 }

/-- A sequenced frame reaches a port (R301): the frame when it is accepted in order. -/
def Core.linkAccept (c : Core) (p : Nat) (f : Frame) : Core × Option Frame :=
  let l := c.link p
  if c.cfg.linkPorts ≤ p then (c, none)
  else if c.reflecting p then (c.reflect p f, none)
  else if payReserved f.payload && (16 ≤ payType f.payload || l.st != .active) then
    -- a reserved link-local type, or a reserved type in a state that takes no sequenced frame: counted, and no NAK (Table 12-5)
    (if l.st = .ident ∨ l.st = .held ∨ l.st = .measure ∨ l.st = .active then
       c.setLink p { l with cnt0 := satAdd l.cnt0 32 32 1 } else c, none)
  else if l.st ≠ .active ∨ l.looped ∨ l.role = 0xF then (c, none)
  else if !crcOk f || payReserved f.payload then
    let c1 := c.setLink p { l with cnt0 := satAdd l.cnt0 32 32 1 }
    (if (l.lane f.vl).gap && f.seq != (l.lane f.vl).expect then c1 else c1.sendNak p f.vl, none)
  else
    let c1 := c.takeAck p f
    let l1 := c1.link p
    let a := l1.lane f.vl
    if f.vl = 2 ∧ c1.vl2Held p then (c1, none)
    else if f.seq = a.expect then
      (c1.setLink p ((l1.setLane f.vl { a with expect := (a.expect + 1) % 4096, gap := false }).owe c.now f.vl), some f)
    else if seqBefore f.seq a.expect then (c1.setLink p (l1.owe c.now f.vl), none)
    else (if a.gap then c1 else c1.sendNak p f.vl, none)

/-- A PSYNC (Table 12-5). -/
def payPsync : Payload → Bool
  | .psync _ _ => true
  | _ => false

/-- A frame that is not, or is no longer, on Pleach: delivered here, discarded, or routed on (R310). -/
def Core.landFrame (c : Core) (p : Nat) (resumed : Bool) (f : Frame) : Core × Option Frame :=
  if f.dest = c.self then
    if c.myLogical == some f.destLogical then (c, some f) else (c.discardFrame p f, none)
  else (c.routeFrame (some p) resumed f, none)

/-- An accepted frame: Pleach first, by the port states at the end of the previous DCLK (R317), then R310. -/
def Core.switchFrame (c : Core) (p : Nat) (f : Frame) : Core × Option Frame :=
  if f.pleach then
    let role := oppRole (c.link p).role
    let next := c.portOfRole role
    let dead := match next with | some q => (c.link q).wasBroken | none => true
    if f.resume == c.self || dead then c.landFrame p true { f with pleach := false }
    else
      match next with
      | some q => (c.enqueue q 3 f, none)
      | none => (c, none)
  else c.landFrame p false f

/-- The path of a channel frame: its channel, and its sending end; what travels one path keeps its order (R239). -/
def framePath : Payload → Option (Nat × Nat × Nat)
  | .chan m => some (m.toChan, m.fromPos, m.fromChan)
  | _ => none

/-- The first frame of a kind, no frame of its own path standing before it, and the frames without it. -/
def takeFrame (kind : Payload → Bool) (seen : List (Nat × Nat × Nat)) : List Frame → Option (Frame × List Frame)
  | [] => none
  | f :: r =>
    if kind f.payload && !((framePath f.payload).any seen.contains) then some (f, r)
    else (takeFrame kind ((framePath f.payload).toList ++ seen) r).map fun x => (x.1, f :: x.2)

/-- A frame of a row arrives: from a port, or the oldest of its kind that was delivered here with no link (R310). A
frame of another kind is not the row's. -/
def Core.arrive (c : Core) (kind : Payload → Bool) : Arrival → Core × Option Frame
  | .here =>
    match takeFrame kind [] c.fab.inbox with
    | none => (c, none)
    | some x => ({ c with fab := { c.fab with inbox := x.2 } }, some x.1)
  | .link p f =>
    if kind f.payload || payReserved f.payload then
      match c.linkAccept p f with
      | (c1, none) => (c1, none)
      | (c1, some g) => c1.switchFrame p g
    else (c, none)

/-- A frame that arrived for a bound context is counted (R347). -/
def Core.countRx (c : Core) (ctx : Nat) : Core :=
  if c.bound ctx then { c with clip := { c.clip with rx := c.clip.rx + 1 } } else c

/-! Remote signal adds -/

/-- The link port on which a remote add arrived, 0 for one of this chip (Table 13-1). -/
def StashWaiter.linkPort : StashWaiter → Nat
  | .port p => if p < 8 then p else 0
  | _ => 0

/-- A ring add, or the stash of this chip as source 0x7 (R312): `src` is the sending position. -/
def Core.ringAdd (c : Core) (src n : Nat) (v : W64) (w : StashWaiter) : Core :=
  if (List.range 64).any fun k => c.bound k && c.sigIn k n then c.sigAdd n v
  else
    let c1 := { c with fab := { c.fab with cnt := satAdd c.fab.cnt 32 32 1 } }
    let c2 := c1.setFab 5 w.linkPort
    (c2.stashPut { tag := 0, status := .badParam, reason := 2, source := 7, ctx := 0, target := w64 (src * 2 ^ 48 + n),
                   value := v } w).1

end Sys2Proof.Machine
end

