-- ==== Sys2Proof/Machine/SyncOps.lean ====
section
/-! DEFINITION. Shared operations on synchronisation objects (08): translation of virtual identifiers (R217, R218), the
updates of Table 08-2, the evaluation of one object in a DCLK (R222), and freeing. -/

namespace Sys2Proof.Machine

/-- Operand of a field of SZ_CX_STAB: the byte address of entry v of a synchronisation table (08, Table 08-1). -/
def Core.syncEntryAddr (c : Core) (ctx vid : Nat) : Nat := fld (c.ctx ctx).stab 0 48 + 8 * vid

/-- A virtual identifier translated (R217): the object, none where it is unmapped, or the Reel fault of its entry. The spec does not
say which entries the translation cache of R218 holds: every use misses and reads its entry (DESIGN CHOICE, notes/assumptions/87). -/
def Core.syncLookup (c : Core) (ctx vid : Nat) : Except Nat (Option SyncObj) :=
  let x := c.ctx ctx
  if x.syncLog2 = 0 ∨ 2 ^ x.syncLog2 ≤ vid then .ok none
  else
    match c.readWords (c.syncEntryAddr ctx vid) 1 with
    | .error k => .error k
    | .ok ws =>
      let e := ws.getD 0 0
      if bitAt e 63 then .ok (c.sync.objs.find? fun o => o.phys == fld e 0 18 && o.ctx == ctx && o.vid == vid)
      else .ok none

/-- An object replaced. -/
def Core.setObj (c : Core) (o : SyncObj) : Core :=
  { c with sync := { c.sync with objs := c.sync.objs.map fun p => if p.phys = o.phys then o else p } }

/-- Whether an operation fits the kind of an object (Table 08-2); the set of a token is a manual SET only. -/
def SyncOp.fits (op : SyncOp) (token manual : Bool) : Bool :=
  match op with
  | .set => !token || manual
  | .add => !token
  | .signal => token

/-- The value of an object after an update (Table 08-2). -/
def SyncUpd.apply (u : SyncUpd) (v : W64) : W64 :=
  match u.op with
  | .set => u.val
  | .add => v + u.val
  | .signal => w64 (sat64 v.toNat u.val.toNat)

/-- An update of an object in the present DCLK (R222 step 3). -/
def Core.syncUpdate (c : Core) (o : SyncObj) (rank : Nat) (op : SyncOp) (v : W64) : Core :=
  c.setObj { o with upds := o.upds ++ [{ rank := rank, op := op, val := v }] }

/-- The place of a waiter among those that arm in one DCLK (R221): tasks by skein, node and dyn_seq, then commands. -/
def SyncWaiter.key (w : SyncWaiter) : List Nat :=
  match w.who with
  | .task t => [0, w.skein, t.node, match t.dyn with | none => 0 | some k => k + 1]
  | _ => [1, 0, 0, 0]

/-- A wait armed in the present DCLK (R222 step 4). -/
def Core.syncArm (c : Core) (o : SyncObj) (w : SyncWaiter) : Core := c.setObj { o with arms := o.arms ++ [w] }

/-- Whether a waiter has been withdrawn (R222 step 1): its task no longer waits, or its queue no longer holds on the
object. -/
def Core.waiterGone (c : Core) (o : SyncObj) (w : SyncWaiter) : Bool :=
  match w.who with
  | .task t =>
    match c.graph.runs.find? fun r => r.ctx == t.ctx && r.tag == t.tag with
    | none => true
    | some r => r.stopping || !(r.tasks.any fun k => k.node == t.node && k.dyn == t.dyn && k.st == .waiting)
  | .queue n => match (c.queue n).cur with | .syncWait _ v => v != o.vid | _ => true
  | _ => true

/-- The waiters an object releases and those that stay (R222 step 2), with the value after the takes. -/
def SyncObj.release (o : SyncObj) (ws : List SyncWaiter) : List SyncWaiter × List SyncWaiter × W64 :=
  if o.token then
    let n := min o.value.toNat ws.length
    (ws.take n, ws.drop n, o.value - w64 n)
  else
    let met := fun w : SyncWaiter => if w.equal then o.value == w.threshold else decide (w.threshold.toNat ≤ o.value.toNat)
    (ws.filter met, ws.filter fun w => !met w, o.value)

/-- Steps 1 and 2 of R222 on one object: the waiters it releases, the object afterwards, and whether R223 counts it. -/
def Core.evalObj (c : Core) (o : SyncObj) : List SyncWaiter × SyncObj × Bool :=
  let r := o.release (o.waiters.filter fun w => !c.waiterGone o w)
  let counts := o.token && !r.1.isEmpty && !r.2.1.isEmpty
  (r.1, { o with value := r.2.2, waiters := r.2.1, out := r.1, counted := counts }, counts)

/-- Step 1 of R222 at the end of the DCLK: a released waiter that a CANCEL or a fault of this DCLK has removed takes no unit; its
unit goes to the next waiter. -/
def Core.reviseObj (c : Core) (o : SyncObj) : SyncObj :=
  let kept := o.out.filter fun w => !c.waiterGone o w
  let rest := o.waiters.filter fun w => !c.waiterGone o w
  if o.token then
    let back := o.out.length - kept.length
    let n := min back rest.length
    { o with out := kept ++ rest.take n, waiters := rest.drop n, value := o.value + w64 (back - n) }
  else { o with out := kept, waiters := rest }

/-- Steps 3 and 4 of R222 on one object, at the end of the DCLK. -/
def SyncObj.fold (o : SyncObj) : SyncObj :=
  let v := (sortBy (fun a b : SyncUpd => decide (a.rank < b.rank)) o.upds).foldl (fun a u => u.apply a) o.value
  { o with value := v, waiters := o.waiters ++ sortBy (fun a b : SyncWaiter => keysLt a.key b.key) o.arms, upds := [], arms := [],
           out := [], counted := false }

/-- Objects freed: those of a context that satisfy a test (R219). -/
def Core.freeObjs (c : Core) (p : SyncObj → Bool) : Core :=
  { c with sync := { c.sync with objs := c.sync.objs.filter fun o => !p o } }

end Sys2Proof.Machine
end

