-- ==== Sys2Proof/Machine/ChanOps.lean ====
section
/-! DEFINITION. Shared operations on channels (09): notices, refusals and credits (R239 to R241), and closing an end. -/

namespace Sys2Proof.Machine

/-- A frame from the receive end of channel n to its sender (R239, R241). -/
def Core.chanNotice (c : Core) (n : Nat) (r : ChanRx) (b : ChanBody) : Core :=
  c.sendFrame r.ctx r.srcPos
    (.chan { toChan := r.srcChan, fromPos := c.myLogical.getD 0, fromChan := n, body := b })

/-- A receive end refuses a message (R241): the count, the flag and the refusal. -/
def Core.chanDiscard (c : Core) (n ctx pos chan epoch reason : Nat) : Core :=
  let h := c.chan n
  let c1 := (c.setChan n { h with discarded := sat32 h.discarded 1 }).setChanEvt n 0 ctx
  c1.sendFrame ctx pos (.chan { toChan := chan, fromPos := c.myLogical.getD 0, fromChan := n, body := .refusal epoch reason })

/-- A record is delivered: DATA counts (R245). -/
def Chan.counted (h : Chan) (x : RxRec) : Chan :=
  if x.msg.kind = 1 then { h with rxMsgs := sat64 h.rxMsgs 1, rxBytes := sat64 h.rxBytes x.msg.len } else h

/-- What follows a close at the end of its DCLK (R239, R241): the record whose header is acknowledged by then counts as delivered;
the sender learns what was delivered, every other record that arrived is refused, and the CLOSE notice follows. A held signal,
or a handler task still to be created, goes with the end (notes/assumptions/80, 94). -/
def Core.closeEnd (c : Core) (n : Nat) : Core :=
  let h := c.chan n
  match h.closing with
  | none => c
  | some k =>
    let got := (k.rx.recs.take 1).filter fun x => x.stage == .written
    let lost := k.rx.recs.filter fun x => x.stage != .handler && x.stage != .written
    let c1 := c.setChan n (got.foldl Chan.counted { h with closing := none })
    let c2 := c1.chanNotice n k.rx (.credit k.epoch k.rx.consumed (k.rx.dlvd + got.length))
    let c3 := lost.foldl (fun d _ => d.chanDiscard n k.rx.ctx k.rx.srcPos k.rx.srcChan k.epoch k.reason) c2
    let c4 := k.late.foldl (fun d m => d.chanDiscard n k.rx.ctx m.1 m.2.1 m.2.2 k.reason) c3
    c4.chanNotice n k.rx (.closeNotice k.reason)

/-- A receive end closes or is reset (R239, R241): at once it is no longer open; what its sender is told follows at the end of the
DCLK. -/
def Core.closeRx (c : Core) (n reason : Nat) : Core :=
  let c1 := c.closeEnd n
  let h := c1.chan n
  match h.rx with
  | none => c1
  | some r =>
    c1.setChan n { h with rx := none, lastReason := reason, closing := some { rx := r, epoch := h.epoch, reason := reason, late := [] } }

/-- Every close of the DCLK is done. -/
def Core.closesEnd (c : Core) : Core :=
  ((c.chans.filter fun h => h.2.closing.isSome).map Prod.fst).foldl Core.closeEnd c

/-- A send end closes (Table 09-4). -/
def Core.closeTx (c : Core) (n : Nat) : Core := c.setChan n { c.chan n with tx := none }

/-- The channels that satisfy a test. -/
def Core.chansWhere (c : Core) (p : Chan → Bool) : List Nat := (c.chans.filter fun k => p k.2).map Prod.fst

end Sys2Proof.Machine
end

