-- ==== Sys2Proof/Machine/Heads.lean ====
section
/-! DEFINITION. The fields of the records of a skein (05, Tables 05-3 to 05-9), where the continuation records of a head
stand (R126), tile counts (R128) and edges (R129). -/

namespace Sys2Proof.Machine

/-! The head (Table 05-3) -/

/-- edge_first. -/
def hEdgeFirst (h : Rec256) : Nat := rf h 0 44 20
/-- edge_count. -/
def hEdgeCount (h : Rec256) : Nat := rf h 0 28 16
/-- dep_init. -/
def hDepInit (h : Rec256) : Nat := rf h 0 12 16
/-- prio. -/
def hPrio (h : Rec256) : Nat := rf h 0 8 4
/-- launch: fixed-launch. -/
def hFixed (h : Rec256) : Bool := rb h 0 7
/-- tile_mode. -/
def hMode (h : Rec256) : Nat := rf h 0 5 2
/-- chain. -/
def hChain (h : Rec256) : Bool := rb h 0 4
/-- yield_ok. -/
def hYieldOk (h : Rec256) : Bool := rb h 0 3
/-- kind. -/
def hKind (h : Rec256) : Nat := rf h 0 0 3
/-- port_base. -/
def hPortBase (h : Rec256) : Nat := rf h 1 54 10
/-- port_last. -/
def hPortLast (h : Rec256) : Nat := rf h 1 44 10
/-- prog_hidx. -/
def hProgHidx (h : Rec256) : Nat := rf h 1 36 8
/-- prog_off. -/
def hProgOff (h : Rec256) : Nat := rf h 1 12 24
/-- flow_en. -/
def hFlowEn (h : Rec256) : Bool := rb h 1 11
/-- has_wait. -/
def hHasWait (h : Rec256) : Bool := rb h 1 10
/-- n_nest. -/
def hNNest (h : Rec256) : Nat := rf h 1 8 2
/-- n_const. -/
def hNConst (h : Rec256) : Nat := rf h 1 6 2
/-- has_action. -/
def hHasAction (h : Rec256) : Bool := rb h 1 5
/-- has_enq. -/
def hHasEnq (h : Rec256) : Bool := rb h 1 4
/-- dormant. -/
def hDormant (h : Rec256) : Bool := rb h 1 3
/-- exit_point. -/
def hExit (h : Rec256) : Bool := rb h 1 2
/-- flow. -/
def hFlow (h : Rec256) : Nat := rf h 2 48 16
/-- start_off. -/
def hStartOff (h : Rec256) : Nat := rf h 2 8 40
/-- budget. -/
def hBudget (h : Rec256) : Nat := rf h 3 32 32
/-- expert_en. -/
def hExpertEn (h : Rec256) : Bool := rb h 3 31
/-- moe_table. -/
def hTable (h : Rec256) : Nat := rf h 3 25 6
/-- expert, or the slot of an exit point (R210). -/
def hExpert (h : Rec256) : Nat := rf h 3 12 13

/-- Continuation records of a head. -/
def hConts (h : Rec256) : Nat := b2n (hHasWait h) + hNNest h + hNConst h + b2n (hHasAction h) + b2n (hHasEnq h)

/-! Records of a skein -/

/-- Record n of a skein. -/
def Skein.record (k : Skein) (n : Nat) : Rec256 := k.recs.getD n 0

/-- Whether node n is a head that is not a template. -/
def Skein.isHead (k : Skein) (n : Nat) : Bool :=
  decide (n < k.nodeCount) && hKind (k.record n) == 0 && !hDormant (k.record n)

/-- Whether node n is a dormant head. -/
def Skein.isTemplate (k : Skein) (n : Nat) : Bool :=
  decide (n < k.nodeCount) && hKind (k.record n) == 0 && hDormant (k.record n)

/-- The nodes that hold non-dormant heads. A continuation or EDGE record has a kind of its own. -/
def Skein.heads (k : Skein) : List Nat := (List.range k.nodeCount).filter k.isHead

/-- The WAIT record of the head at node n. -/
def Skein.waitRec (k : Skein) (n : Nat) : Rec256 := k.record (n + 1)
/-- NEST record i. -/
def Skein.nestRec (k : Skein) (n i : Nat) : Rec256 := k.record (n + 1 + b2n (hHasWait (k.record n)) + i)
/-- CONST record i. -/
def Skein.constRec (k : Skein) (n i : Nat) : Rec256 :=
  k.record (n + 1 + b2n (hHasWait (k.record n)) + hNNest (k.record n) + i)
/-- The ACTION record. -/
def Skein.actionRec (k : Skein) (n : Nat) : Rec256 :=
  k.record (n + 1 + b2n (hHasWait (k.record n)) + hNNest (k.record n) + hNConst (k.record n))
/-- The ENQ record. -/
def Skein.enqRec (k : Skein) (n : Nat) : Rec256 := k.record (n + hConts (k.record n))

/-- Trip counts of a first NEST record, level 0 first (Table 05-4). -/
def nestTrips (r : Rec256) : List Nat := (List.range (rf r 0 4 2 + 1)).map fun l => rf r 0 (6 + 14 * l) 14 + 1

/-- Trip counts of the head at node n; none without a nest. -/
def Skein.trips (k : Skein) (n : Nat) : List Nat := if hNNest (k.record n) = 0 then [] else nestTrips (k.nestRec n 0)

/-- The outermost trip count replaced, where it is given (R145, R200). -/
def withTop (ts : List Nat) (top : Nat) : List Nat := if top = 0 then ts else ts.set (ts.length - 1) top

/-- The product of trip counts (R128). -/
def tripProduct (ts : List Nat) : Nat := ts.foldl (· * ·) 1

/-- Entry i of the successor list that begins at a record: the node and whether it is of the exit class (R129). -/
def Skein.edge (k : Skein) (first i : Nat) : Nat × Bool :=
  let v := (k.record (first + i / 12)).toNat / 2 ^ (3 + 21 * (i % 12)) % 2 ^ 21
  (v % 2 ^ 20, decide (2 ^ 20 ≤ v))

/-- Records of the pages that a head needs (R134): the head, its continuation records and its EDGE records. -/
def Skein.needs (k : Skein) (n : Nat) : List Nat :=
  let h := k.record n
  (List.range (hConts h + 1)).map (n + ·) ++ (List.range (ceilDiv (hEdgeCount h) 12)).map (hEdgeFirst h + ·)

/-- Whether every page that a head needs is resident. -/
def Skein.ready (k : Skein) (n : Nat) : Bool :=
  decide (k.nodeCount ≤ 128 * k.resident.length) || (k.needs n).all fun i => k.resident.contains (i / 128)

/-! Tasks -/

/-- A loaded skein. -/
def Core.skein (c : Core) (ctx id : Nat) : Option Skein := c.graph.skeins.find? fun k => k.ctx == ctx && k.id == id

/-- An unfinished run by its tag. -/
def Core.findRun (c : Core) (ctx tag : Nat) : Option Run := c.graph.runs.find? fun r => r.ctx == ctx && r.tag == tag

/-- The unfinished run of a skein. -/
def Core.runOfSkein (c : Core) (ctx id : Nat) : Option Run :=
  c.graph.runs.find? fun r => r.ctx == ctx && r.skein == id

/-- A run replaced. -/
def Core.setRun (c : Core) (r : Run) : Core :=
  { c with graph := { c.graph with runs := c.graph.runs.map fun q =>
      if q.ctx == r.ctx && q.tag == r.tag then r else q } }

/-- Memory bytes have been written for a run (R338). -/
def Core.noteWrite (c : Core) (ctx tag : Nat) (addrs : List Nat) : Core :=
  match c.findRun ctx tag with
  | some r => if addrs.isEmpty then c else c.setRun { r with wrote := addrs ++ r.wrote }
  | none => c

/-- The name of a task of a run. -/
def Run.ref (r : Run) (t : Task) : TaskRef := { ctx := r.ctx, tag := r.tag, node := t.node, dyn := t.dyn }

/-- A task of a run. -/
def Run.task (r : Run) (ref : TaskRef) : Option Task := r.tasks.find? fun t => t.node == ref.node && t.dyn == ref.dyn

/-- A named task with its run. -/
def Core.taskOf (c : Core) (ref : TaskRef) : Option (Run × Task) :=
  match c.findRun ref.ctx ref.tag with
  | none => none
  | some r =>
    match r.task ref with
    | none => none
    | some t => some (r, t)

/-- A change of one task. -/
def Core.modTask (c : Core) (ref : TaskRef) (f : Task → Task) : Core :=
  match c.findRun ref.ctx ref.tag with
  | none => c
  | some r => c.setRun { r with tasks := modifyFirst (fun t => t.node == ref.node && t.dyn == ref.dyn) f r.tasks }

/-- A task that has not begun. -/
def Task.fresh (node : Nat) (dyn : Option Nat) (kind : TaskKind) (arg tripTop ctr : Nat) : Task :=
  { node := node, dyn := dyn, kind := kind, arg := arg, tripTop := tripTop, st := .waiting, ctr := ctr, live := false,
    elided := false, armed := false, satisfied := false, readyAt := 0, rank := 0, delay := none, tiles := none,
    sent := [], back := [], held := [], issuedAt := none, dlMissed := [], dlTold := false, exempt := false, lastTile := [], backAt := [], fault := none, ripeAt := none }

/-- The head that a replay step stands for (R150): its port, its program and the priority of the replay. -/
def replayHead (prio : Nat) (w0 : W64) : Rec256 :=
  let h := rset (rset (rset 0 0 8 4 prio) 1 54 10 (fld w0 52 10)) 1 44 10 (fld w0 52 10)
  rset (rset h 1 36 8 (fld w0 44 8)) 1 12 24 (fld w0 20 24)

/-- The head record of a task. -/
def Core.headOf (c : Core) (r : Run) (t : Task) : Rec256 :=
  match c.skein r.ctx r.skein with
  | none => 0
  | some k => if t.kind = .replayStep then replayHead k.replayPrio ((r.steps.getD t.node []).getD 0 0) else k.record t.node

/-- Whether the pages that a task needs are resident (R134); the records of a dynamic task never spill (R146). -/
def Core.pagesReady (c : Core) (r : Run) (t : Task) : Bool :=
  if t.kind = .static then (match c.skein r.ctx r.skein with | some k => k.ready t.node | none => false) else true

/-! The relocation store -/

/-- An entry of the relocation store (R120). -/
def Core.relocAt (c : Core) (ctx idx : Nat) : Option RelocEnt := c.graph.reloc.find? fun e => e.ctx == ctx && e.idx == idx

/-- The region that a position of the handle list of a run names, none where it is no longer resolvable (R121). -/
def Core.hregion (c : Core) (r : Run) (hidx : Nat) : Option Region :=
  match r.handleIdx[hidx]? with
  | none => none
  | some i =>
    match c.relocAt r.ctx i with
    | none => none
    | some e => e.region.map fun g => { write := g.1, base := g.2.1, size := g.2.2 }

/-- A use of a handle-list position with an offset and an extent (R118, R121): the address, or the reason of
BAD_HANDLE. -/
def Core.useHandle (c : Core) (r : Run) (hidx off ext : Nat) (write : Bool) : Except Nat Nat :=
  match c.hregion r hidx with
  | none => .error 2
  | some g => if write && !g.write then .error 2 else if g.size < off + ext then .error 3 else .ok (g.base + off)

end Sys2Proof.Machine
end

