-- ==== Sys2Proof/Machine/Runs.lean ====
section
/-! DEFINITION. The life of a run: the end of a task (R135), the final reply and what it releases (R91, R147, R190, R260),
faults and cancellation (R147 to R149), stops (R90, R285), and the close of a context (Table 03-10). -/

namespace Sys2Proof.Machine

/-! Outstanding assignments -/

/-- Whether a port record serves a task. -/
def PortRec.serves (p : PortRec) (ref : TaskRef) : Bool :=
  match p.use with
  | .task t _ => t == ref
  | _ => false

/-- Whether a port has an assignment of a task outstanding: presented, or selected and not waiting for its ramp grant
(R169, R170). -/
def EngPort.busyFor (p : EngPort) (ref : TaskRef) : Bool :=
  (match p.out with | some r => r.serves ref | none => false)
    || (match p.sel with | some r => !p.waiting && r.serves ref | none => false)

/-- Whether an assignment of a task is outstanding. -/
def Core.taskOut (c : Core) (ref : TaskRef) : Bool := c.disp.ports.any fun p => p.2.busyFor ref

/-- Whether an assignment of a run is outstanding. -/
def Core.runOut (c : Core) (r : Run) : Bool := r.tasks.any fun t => c.taskOut (r.ref t)

/-- The completion of a task that is under way. -/
def Core.compOf (c : Core) (ref : TaskRef) : Option Comp := c.graph.comps.find? fun k => k.task == ref

/-- The key that orders completions (R142). -/
def Comp.key (k : Comp) : List Nat :=
  [k.d, k.task.ctx, k.skein, k.task.node, match k.task.dyn with | none => 0 | some n => n + 1]

/-- A completion joins those under way, in their order. -/
def Core.addComp (c : Core) (k : Comp) : Core :=
  { c with graph := { c.graph with comps := insertBy (fun a b => keysLt a.key b.key) k c.graph.comps } }

/-- A completion changed; its key may change with it. -/
def Core.setComp (c : Core) (k : Comp) : Core :=
  Core.addComp { c with graph := { c.graph with comps := c.graph.comps.filter fun x => x.task != k.task } } k

/-- Completions of a task dropped. -/
def Core.dropComp (c : Core) (ref : TaskRef) : Core :=
  { c with graph := { c.graph with comps := c.graph.comps.filter fun x => x.task != ref } }

/-- Records of a task that channels still have to read or send. -/
def Core.chanDrop (c : Core) (p : TaskRef → Bool) : Core :=
  { c with chans := c.chans.map fun h =>
      (h.1, { h.2 with tx := h.2.tx.map fun t =>
        { t with slots := t.slots.filter fun s => !p s.2, waiting := t.waiting.filter fun w => !p w.task } }) }

/-- Whether a record of a task is on its way (R243). -/
def Core.sendsOut (c : Core) (ref : TaskRef) : Bool :=
  c.chans.any fun h => match h.2.tx with | some t => t.sent.any fun s => s.2.task == ref | none => false

/-! The end of a task -/

/-- Whether a reference names a step of a replay, which is no task (R150). -/
def Core.isStep (c : Core) (ref : TaskRef) : Bool :=
  match c.taskOf ref with
  | some (_, t) => t.kind == .replayStep
  | none => false

/-- A task becomes DONE, CANCELLED or FAULTED: its flow is free from the next DCLK, its bindings end, and it counts
(R163, R167, R329). -/
def Core.taskEnd (c : Core) (ref : TaskRef) (st : TaskSt) : Core :=
  let c1 := c.modTask ref fun t => { t with st := st, delay := none, held := [] }
  let mine := c1.disp.flows.held.filter fun h => h.2 == ref
  let c2 := { c1 with
    disp := { c1.disp with
      flows := { c1.disp.flows with held := c1.disp.flows.held.filter fun h => h.2 != ref
                                    freed := c1.disp.flows.freed ++ mine.map Prod.fst },
      ports := c1.disp.ports.map fun (p : Nat × EngPort) =>
        (p.1, { p.2 with bind := if p.2.bind = some ref then none else p.2.bind,
                         bind0 := if p.2.bind0 = some ref then none else p.2.bind0 }) },
    graph := { c1.graph with watches := c1.graph.watches.filter fun w => w.task != ref } }
  let x := c2.ctx ref.ctx
  if c.isStep ref then c2 else c2.setCtx ref.ctx { x with tasks := sat64 x.tasks 1, progressed := true }

/-- Whether a state is final. -/
def TaskSt.final (s : TaskSt) : Bool := s == .done || s == .cancelled || s == .faulted

/-! Generations (R190, R211, R260, R268) -/

/-- An answer for a table dropped by generation: gen_drops and gen_drop (R211). -/
def Core.moeDrop (c : Core) (t : Nat) (ahead : Bool) : Core :=
  let m := c.table t
  let c1 := (c.setTable t { m with cnt0 := satAdd m.cnt0 0 32 1 }).setMoeEvt t 4
  if ahead then c1.setMoeEvt t 5 else c1

/-- A contribution to a collective of a context dropped: drops, and gen_drop or mismatch (R268). -/
def Core.plyDrop (c : Core) (n : Nat) (mismatch : Bool) : Core :=
  let g := c.plyPage n
  (c.setPlyPage n { g with cnt1 := satAdd g.cnt1 0 32 1 }).setPlyFlag n (if mismatch then 6 else 5)

/-- A contribution to a Carder exchange dropped by generation: Carder and Ply both count it (R211, R268). -/
def Core.tableDrop (c : Core) (t n : Nat) (ahead : Bool) : Core := (c.moeDrop t ahead).plyDrop n false

/-- A register word of a slot (Table 10-9). -/
def Core.slotWord (c : Core) (n k w : Nat) : W64 := agetD (agetD (c.plyPage n).slots k []) w 0

/-- The run of a slot. -/
def Core.collRun (c : Core) (n k : Nat) : CollRun := agetD (c.plyPage n).runs k .reset

/-- The run of a slot replaced. -/
def Core.setCollRun (c : Core) (n k : Nat) (r : CollRun) : Core :=
  let g := c.plyPage n
  c.setPlyPage n { g with runs := aset g.runs k r }

/-- Slots of a context that a skein triggers. -/
def Core.slotsOf (c : Core) (n skein : Nat) : List Nat :=
  (List.range 64).filter fun k => bitAt (c.slotWord n k 0) 63 && fld (c.slotWord n k 0) 32 10 == skein

/-- Tables of a context that a skein routes. -/
def Core.routedBy (c : Core) (n skein : Nat) : List Nat :=
  (c.tablesOf n).filter fun t => match (c.table t).tab with | some m => m.routeSkein == skein | none => false

/-- Held contributions with a key removed, and how many of them came from other chips. -/
def Core.takeHeld (c : Core) (p : PlyKey → Bool) : Nat × Core :=
  ((c.fab.plyHeld.filter fun h => p h.msg.key && h.src.isSome).length,
   { c with fab := { c.fab with plyHeld := c.fab.plyHeld.filter fun h => !p h.msg.key } })

/-- What a collective has taken goes with it when it is abandoned; what came from another chip in the very DCLK stays, to be dropped by
generation (R212, R269). -/
def Core.forgetHeld (c : Core) (p : PlyKey → Bool) : Core :=
  { c with fab := { c.fab with plyHeld := c.fab.plyHeld.filter fun h => !p h.msg.key || (h.src.isSome && h.since == c.dclk) } }

/-- Whether a key is that of the Carder exchange of a table. -/
def Moe.keyed (m : Moe) (t : Nat) (k : PlyKey) : Bool := k.isTable && k.slot == t && k.gen == m.gen

/-- The context of a Ply group (Table 10-1). -/
def Core.groupEnt (c : Core) (g : Nat) : Option GroupEnt :=
  match c.fab.route with
  | none => none
  | some r => r.groups.find? fun e => e.group == g

/-- The final reply of a route skein's run: the table is IDLE with the next generation; what came for a step that did not take it is
dropped (R190, R211, R212). -/
def Core.moeNextGen (c : Core) (t : Nat) : Core :=
  let m := c.table t
  let h := c.takeHeld (m.keyed t)
  let c1 := h.2.setTable t { m with gen := (m.gen + 1) % 2 ^ 32, st := .idle, work := none, granted := [], early := (0, 0), late := 0 }
  let c2 := (List.range m.late).foldl (fun d _ => d.moeDrop t false) c1
  let n := match m.tab with | some x => x.ctx | none => 0
  if m.st = .routed then c2 else (List.range h.1).foldl (fun d _ => d.tableDrop t n false) c2

/-- Whether a key is that of the collective of a slot in its present generation. -/
def Core.slotKeyed (c : Core) (n k : Nat) (y : PlyKey) : Bool :=
  !y.isTable && y.slot == k && y.gen == (c.collRun n k).gen
    && (match c.groupEnt y.group with | some e => e.ctx == n | none => false)

/-- The final reply of a trigger skein's run: the slot is IDLE with the next generation; what came for a collective that did not take
it is dropped (R260, R268, R269). -/
def Core.collNextGen (c : Core) (n k : Nat) : Core :=
  let r := c.collRun n k
  let h := c.takeHeld (c.slotKeyed n k)
  let c1 := h.2.setCollRun n k { st := .idle, gen := (r.gen + 1) % 2 ^ 32, work := none }
  if r.st = .done then c1 else (List.range h.1).foldl (fun d _ => d.plyDrop n false) c1

/-! Closing a context -/

/-- Whether some loaded table names a live map (R188). -/
def Core.mapUsed (c : Core) (m : Nat) : Bool :=
  (List.range 64).any fun t => match (c.table t).tab with | some x => x.mapEn && x.mapId == m | none => false

/-- The live maps that no loaded table names any more are free (R188). -/
def Core.freeMaps (c : Core) : Core :=
  { c with moe := { c.moe with maps := c.moe.maps.filter fun (m : Nat × LiveMap) => c.mapUsed m.1 } }

/-- An expert table released: its page reads zero (R215). -/
def Core.tableFree (c : Core) (t : Nat) : Core := (c.setTable t .reset).freeMaps

/-- The effect of CTX_CLOSE on its target (Table 03-10, R219, R224, R239). -/
def Core.closeEffect (c : Core) (n : Nat) : Core :=
  let c1 := match (c.queue n).cur with
    | .syncWait _ _ => c.release n (vState 4)
    | .sigWait _ _ _ => c.release n (vState 4)
    | _ => c
  let c2 := match (c1.ctx n).stop with
    | some a => c1.finalReply n a.tag (vState 4) a.irq false
    | none => c1
  let c3 := (c2.chansWhere fun h => match h.rx with | some r => r.ctx == n | none => false).foldl
    (fun d k => d.closeRx k 1) c2
  let c4 := (c3.chansWhere fun h => match h.tx with | some t => t.ctx == n | none => false).foldl (fun d k => d.closeTx k) c3
  let c5 := (c4.tablesOf n).foldl (fun d t => d.tableFree t) c4
  let c6 := c5.freeObjs fun o => o.ctx == n
  let c7 := { c6 with graph := { c6.graph with skeins := c6.graph.skeins.filter fun k => k.ctx != n },
                      disp := { c6.disp with spindles := c6.disp.spindles.map fun (s : Nat × Spindle) =>
                        (s.1, if s.2.holder = some n then { s.2 with holder := none, prev := n } else s.2) } }
  c7.setCtx n { c7.ctx n with st := .closed, spindleMask := 0, chanQuota := 0, syncQuota := 0, stop := none }

/-- Whether every reply of a queue is written. -/
def Core.flushed (c : Core) (n : Nat) : Bool :=
  let q := c.queue n
  q.replies.isEmpty && q.writing.isNone && q.mirrors == 0

/-- A CTX_CLOSE of queue 0 takes effect: its OK follows once the replies it caused are written (Table 03-10). -/
def Core.closeNow (c : Core) (p : Packet) (target : Nat) (caused : Bool) : Core :=
  let owed := caused || (c.ctx target).stop.isSome
    || (match (c.queue target).cur with | .syncWait _ _ => true | .sigWait _ _ _ => true | _ => false)
  let c1 := c.closeEffect target
  if owed && !c1.flushed target then c1.setQueue 0 { c1.queue 0 with cur := .closeReply p target }
  else (c1.setQueue 0 { c1.queue 0 with cur := .working p }).release 0 vOk

/-- A CTX_CLOSE of the expert form whose target has no unfinished instance left, and the OK of a CTX_CLOSE whose target's replies
have been written. -/
def Core.releaseCloses (c : Core) : Core :=
  match (c.queue 0).cur with
  | .closeWait p target => if c.noRuns target then c.closeNow p target true else c
  | .closeReply _ target => if c.flushed target then c.release 0 vOk else c
  | _ => c

/-! The final reply of a run -/


/-- The ports' latched contexts of a run are of no use to a later run of the same skein. -/
def Core.forgetSetup (c : Core) (r : Run) : Core :=
  { c with disp := { c.disp with ports := c.disp.ports.map fun (p : Nat × EngPort) =>
      (p.1, match p.2.setup with
        | some t => if t.ctx == r.ctx && t.tag == r.tag then { p.2 with setup := none, consts := 0 } else p.2
        | none => p.2) } }

/-- Word of the detail of a run's final reply (Table 03-4). -/
def Run.detail (r : Run) : Nat :=
  bitW 23 r.timing + bitW 22 r.cancelled + bitW 21 r.deadline + (match r.firstFault with | some f => f.2 % 2 ^ 20 | none => 0)

/-- Whether a run finishes in the very DCLK of a CANCEL that cancelled none of its tasks: it counts as finished (R91). -/
def Core.spared (c : Core) (r : Run) : Bool :=
  r.cancelAt == some c.dclk && r.firstFault.isNone && r.tasks.all fun t => t.st == .done

/-- What an instance still holds until its final reply is written (R68, R91, R338). -/
def Run.kept (r : Run) : RunRest :=
  { skein := r.skein, figure := if r.counted then r.figure else 0, wrote := r.wrote, handleIdx := r.handleIdx,
    delayRes := r.delayRes, watchRes := r.watchRes, storeRes := r.storeRes }

/-- The final reply of a run, and what it releases: its reservations, its relocation entries, the steps and collectives
of its skein, and the commands that waited for it (R91, R120, R147, R190, R260). -/
def Core.finalizeRun (c : Core) (r0 : Run) : Core :=
  let spared := c.spared r0
  let r := { r0 with cancelled := r0.cancelled && !spared }
  let v : Verdict := { status := if r.firstFault.isSome then .faulted else .ok, detail := r.detail }
  let c1 := c.finalReplyOf r.ctx r.tag v r.irq false (some r.kept) false
  let runs := c1.graph.runs.filter fun q => !(q.ctx == r.ctx && q.tag == r.tag)
  let c2 := ({ c1 with graph := { c1.graph with runs := runs } }).relocTrim
  let c3 := (c2.routedBy r.ctx r.skein).foldl (fun d t => d.moeNextGen t) c2
  let c4 := (c3.slotsOf r.ctx r.skein).foldl (fun d k => d.collNextGen r.ctx k) c3
  let c5 := c4.forgetSetup r
  let c6 := match (c5.queue r.ctx).cur with
    | .cancelWait _ tag => if tag = r.tag then c5.release r.ctx (if spared then vState 4 else vOk) else c5
    | _ => c5
  match (c6.queue 0).cur with
  | .closeWait p target => if target = r.ctx ∧ c6.noRuns target then c6.closeNow p target true else c6
  | _ => c6

/-- Whether a run has no more to create: a replay has gone through its steps, or it is stopping (R150). -/
def Run.exhausted (r : Run) : Bool := r.kind == .launch || r.stopping || decide (r.steps.length ≤ r.pc)

/-- Whether a run is finished: every task is final, nothing of it is outstanding (R147), no completion runs (R91). -/
def Core.runOver (c : Core) (r : Run) : Bool :=
  (r.started || r.stopping) && r.exhausted && (r.tasks.all fun t => t.st.final) && !c.runOut r
    && !(c.graph.comps.any fun k => k.task.ctx == r.ctx && k.task.tag == r.tag)

/-- Tasks of a stopping run that have nothing outstanding and no completion under way end (R135, R147). -/
def Core.endIdle (c : Core) (r : Run) : Core :=
  r.tasks.foldl (fun d t =>
    if !t.st.final && !d.taskOut (r.ref t) && (d.compOf (r.ref t)).isNone
        && !d.sendsOut (r.ref t) then
      d.taskEnd (r.ref t) (if t.fault.isSome then .faulted else .cancelled)
    else d) c

/-- What follows a change of a run: tasks of a stopping run end, and a finished run writes its final reply. Steps of a
replay that have an assignment at a port keep the run open, and after DEVICE_RESET no run has a final reply (R89). -/
def Core.settle (c : Core) (ctx tag : Nat) : Core :=
  match c.findRun ctx tag with
  | none => c
  | some r =>
    let c1 := if r.stopping then c.endIdle r else c
    match c1.findRun ctx tag with
    | none => c1
    | some r1 => if c1.runOver r1 && !c1.fe.stopped then c1.finalizeRun r1 else c1

/-! Faults and cancellation -/

/-- Whether a completion has been taken by the present DCLK (R143): those whose DCLK d has come and that are not
deferred. -/
def Comp.taken (k : Comp) (dclk : Nat) : Bool :=
  match k.stage with
  | .due => decide (k.d ≤ dclk)
  | .deferred => false
  | _ => true

/-- At the end of a DCLK a step that waits enters LOCAL if no other is in it: the lowest DCLK first, then the lowest table (R192). Early
fetch nodes that became eligible in this DCLK count (R206). -/
def Core.stepEnter (c : Core) : Core :=
  if (List.range 64).any fun t => (c.table t).st == .loc then c
  else
    let waits := (List.range 64).filterMap fun t =>
      match (c.table t).st, (c.table t).work with
      | .idle, some w => some (w.d, t)
      | _, _ => none
    match sortBy (fun a b => keysLt [a.1, a.2] [b.1, b.2]) waits with
    | [] => c
    | x :: _ =>
      let m := c.table x.2
      let c1 := c.setTable x.2 { m with st := .loc, work := m.work.map fun w => { w with entered := c.dclk, sinceAt := c.dclk } }
      match m.tab with
      | some t => if m.early.1 = c.dclk then c1.ndInc t.ctx m.early.2 else c1
      | none => c1

/-- A step is abandoned (R190): what it had taken goes with it, and a result that came in this very DCLK is dropped later (R212). -/
def Core.abandonStep (c : Core) (t : Nat) : Core :=
  let m := c.table t
  let now := m.st == .decide && (match m.work with | some w => w.sinceAt == c.dclk | none => false)
  let c1 := c.setTable t { m with st := .abandoned, late := m.late + b2n now }
  if m.st = .loc then c1 else c1.forgetHeld (m.keyed t)

/-- Steps of a run that are between LOCAL and COMMIT are abandoned, and those that wait for LOCAL do not begin (R190). -/
def Core.abandonSteps (c : Core) (r : Run) : Core :=
  (c.tablesOf r.ctx).foldl (fun d t =>
    let m := d.table t
    match m.work with
    | some w =>
      if w.task.ctx == r.ctx && w.task.tag == r.tag
          && (m.st == .loc || m.st == .exchange || m.st == .decide || m.st == .commit) then d.abandonStep t
      else if w.task.ctx == r.ctx && w.task.tag == r.tag && m.st == .idle then d.setTable t { m with work := none }
      else d
    | none => d) c

/-- A collective is abandoned (R260): what it had taken goes with it. -/
def Core.abandonColl (c : Core) (n k : Nat) : Core :=
  let x := c.collRun n k
  let c1 := c.setCollRun n k { x with st := .abandoned }
  if x.st = .loc then c1 else c1.forgetHeld (c.slotKeyed n k)

/-- Collectives of a run that have begun and are not done, that reached DONE in this very DCLK (R269), or that wait to begin, are
abandoned (R260). -/
def Core.abandonColls (c : Core) (r : Run) : Core :=
  (List.range 64).foldl (fun d k =>
    let x := d.collRun r.ctx k
    match x.work with
    | some w =>
      if w.task.tag == r.tag then
        if x.st == .loc || x.st == .exchange || x.st == .write || (x.st == .done && w.endedAt == some c.dclk) then d.abandonColl r.ctx k
        else if x.st == .idle then d.setCollRun r.ctx k { x with work := none }
        else d
      else d
    | none => d) c

/-- Whether a task belongs to a run that a CANCEL or a fault has stopped (R147, R148). -/
def Core.stoppingRef (c : Core) (t : TaskRef) : Bool := (c.findRun t.ctx t.tag).any (·.stopping)

/-- Records of some tasks that wait for a ramp grant are withdrawn (R170, R205); the issue tag they took is used up, and
the port is free in the next DCLK. -/
def Core.withdrawStarts (c : Core) (which : TaskRef → Bool) : Core :=
  let mine := fun p : EngPort => p.waiting && (match p.sel with
    | some x => (match x.use with | .task t _ => which t | _ => false)
    | none => false)
  let gone := (c.disp.ports.filter fun p => mine p.2).map Prod.fst
  { c with disp := { c.disp with ports := c.disp.ports.map fun (p : Nat × EngPort) =>
             (p.1, if mine p.2 then { p.2 with sel := none, waiting := false, freeFrom := c.dclk + 1 } else p.2) },
           pwr := { c.pwr with waits := c.pwr.waits.filter fun w => !(w.kind == .beat && gone.contains w.port) } }

/-- A CANCEL of a run, or a fault of one of its tasks, takes effect (R147, R148, R170). A task that became eligible in the same DCLK
becomes CANCELLED, one that issues nothing too (R136); what its decrements reached is cancelled with it. -/
def Core.stopRun (c : Core) (ctx tag : Nat) : Core :=
  match c.findRun ctx tag with
  | none => c
  | some r =>
    let c1 := c.setRun { r with stopping := true }
    let c2 := c1.withdrawStarts fun t => t.ctx == ctx && t.tag == tag
    let c3 := (c2.abandonSteps r).abandonColls r
    let c4 := c3.chanDrop fun t => t.ctx == ctx && t.tag == tag
    let ripe := fun ref : TaskRef => (r.task ref).any fun t => t.ripeAt == some c.dclk
    let c5 := { c4 with graph := { c4.graph with comps := c4.graph.comps.filter fun k =>
      !(k.task.ctx == ctx && k.task.tag == tag) || (k.taken c.dclk && !ripe k.task) } }
    let c6 := r.tasks.foldl (fun d t =>
      if (t.st == .loaded || t.st == .waiting || t.st == .ready) && (d.compOf (r.ref t)).isNone
          && !d.taskOut (r.ref t) then
        d.taskEnd (r.ref t) (if t.fault.isSome then .faulted else .cancelled)
      else if t.st == .done && t.ripeAt == some c.dclk then d.modTask (r.ref t) fun x => { x with st := .cancelled }
      else d) c5
    c6.settle ctx tag

/-- The fault record of a task (Table 05-16). -/
def Core.logTask (c : Core) (r : Run) (t : Task) (status reason port tile : Nat) : Core :=
  c.logRaw 0x01 (w64 (r.tag % 2 ^ 32 * 2 ^ 32 + status * 2 ^ 24 + reason % 256 * 2 ^ 16 + port % 1024 * 2 ^ 6 + r.ctx))
    (w64 (t.node % 2 ^ 20 * 2 ^ 44 + (t.dyn.getD 0) % 2 ^ 20 * 2 ^ 24 + r.skein % 256 * 2 ^ 16 + r.skein / 256 % 4 * 2 ^ 14))
    (w64 (tile % 2 ^ 32 * 2 ^ 32))

/-- A fault of a task is kept as the first of its run if no fault of an earlier DCLK, nor one of the same DCLK with a lower
node, came before (R147). -/
def Run.noteFault (r : Run) (dclk node : Nat) : Run :=
  match r.firstFault with
  | none => { r with firstFault := some (dclk, node) }
  | some f => if f.1 = dclk ∧ node < f.2 then { r with firstFault := some (dclk, node) } else r

/-- The fault of a task is recorded (R147, R149): its record, IRQ_G bit 0, and its place among the faults of its run. -/
def Core.taskFaults (c : Core) (ref : TaskRef) (st : Status) (reason port tile : Nat) : Core :=
  match c.taskOf ref with
  | none => c
  | some (r, t) =>
    let c1 := (c.logTask r t st.code reason port tile).setFault 0
    let c2 := c1.modTask ref fun x => { x with fault := some (st, reason) }
    match c2.findRun ref.ctx ref.tag with
    | some q => c2.setRun (q.noteFault c.dclk ref.node)
    | none => c2

/-- A task faults (R147, R149): its record, IRQ_G bit 0, and the end of its run. A task that has faulted, or ended,
faults no more; a completion of the faulting task itself is not run (R147). -/
def Core.faultTask (c : Core) (ref : TaskRef) (st : Status) (reason port tile : Nat) : Core :=
  match c.taskOf ref with
  | none => c
  | some (_, t) =>
    if t.st.final || t.fault.isSome then c
    else ((c.taskFaults ref st reason port tile).dropComp ref).stopRun ref.ctx ref.tag

/-- A fault of a task with no faulting assignment (Table 05-16): its record's port is 0; the spec gives no tile index, and
that field is a free value (notes/assumptions/4). -/
def Core.faultPlain (c : Core) (ref : TaskRef) (st : Status) (reason : Nat) : Core :=
  let x := c.drawWord
  x.2.faultTask ref st reason 0 x.1.toNat

/-- Runs that are stopping are looked at once more: tasks that nothing holds any longer end. -/
def Core.settleStopping (c : Core) : Core :=
  (c.graph.runs.filter (·.stopping)).foldl (fun d r => d.settle r.ctx r.tag) c

/-! Stops -/

/-- A context enters STOPPED or HALTED (R285): timing_broken, and the end of the deadline checks of its runs. -/
def Core.stopCtx (c : Core) (n : Nat) (st : CtxState) : Core :=
  let c1 := (c.setCtx n { c.ctx n with st := st }).setDet n 1
  { c1 with graph := { c1.graph with runs := c1.graph.runs.map fun r =>
      if r.ctx = n then { r with timing := true, checksOff := true } else r } }

/-- The point of an armed STOP_AT is reached (R82, R90): STOPPED, and the final OK of the STOP_AT. -/
def Core.stopReached (c : Core) (n : Nat) : Core :=
  let x := c.ctx n
  match x.stop with
  | none => c
  | some a =>
    if x.st = .opened then
      let c1 := c.stopCtx n .stopped
      (c1.setCtx n { c1.ctx n with stop := none }).finalReply n a.tag vOk a.irq false
    else c

end Sys2Proof.Machine
end

