-- ==== Sys2Proof/Machine/Tasks.lean ====
section
/-! DEFINITION. Eligibility (R135, R157): expert bindings and fetch decisions (R200 to R206), delay lists, entry to READY,
the arming of waits (R138 to R140), decrements (R130, R137), and what the end of a DCLK does for tasks that wait. -/

namespace Sys2Proof.Machine

/-! Requests for engine enables -/

/-- The ramp window of the present count (R64). -/
def Core.rampIndex (c : Core) : Nat := c.gc.count / (2 * max 1 (fld c.pwr.ramp 16 11))

/-- The depth of the engine loop-back of a port's Spindle. -/
def Core.engLoop (c : Core) (e : Nat) : Nat := agetD c.tl.engDepth (e / 64) 0

/-- The rise of ENG_EN of a port is requested of the ramp governor (R63, R175); under the stub it stays low (R386). -/
def Core.requestEnable (c : Core) (e : Nat) : Core :=
  if c.present e && !(c.port e).en && c.engLoop e != 1
      && !(c.pwr.waits.any fun w => w.port == e && w.kind == .enable) then
    { c with pwr := { c.pwr with waits := c.pwr.waits ++ [{ window := c.rampIndex, port := e, kind := .enable }] } }
  else c

/-- The ports of a head. -/
def hPorts (h : Rec256) : List Nat := (List.range (hPortLast h + 1 - hPortBase h)).map (hPortBase h + ·)

/-! Bindings (07) -/

/-- An unbound binding (R200, Table 11-1): the counter of the context, and the count of the table or the UNIT record. -/
def Core.moeUnbound (c : Core) (t ctx : Nat) (value : W64) : Core :=
  let c1 := c.ndInc ctx 1
  let m := c1.table t
  match m.tab with
  | some x =>
    if x.ctx = ctx then (c1.setTable t { m with cnt2 := satAdd m.cnt2 16 16 1 }).setMoeEvt t 3
    else c1.log 0x0D 4 t ctx 0 0 (w64 (0x1800000 + 0x1000 * t + 8)) value
  | none => c1.log 0x0D 4 t ctx 0 0 (w64 (0x1800000 + 0x1000 * t + 8)) value

/-- Whether the step that a table has, or had, in a run's life belongs to that run (R188). -/
def Moe.stepOf (m : Moe) (r : Run) : Bool :=
  match m.work with
  | some w => w.task.ctx == r.ctx && w.task.tag == r.tag
  | none => false

/-- Whether a run's step of a table is ROUTED, seen from a later DCLK than the one in which it became so (R212). -/
def Core.stepRouted (c : Core) (t : Nat) (r : Run) : Bool :=
  let m := c.table t
  m.st == .routed && m.stepOf r && (match m.work with | some w => decide (w.sinceAt < c.dclk) | none => false)

/-- n[e] of the newest committed step of a table. -/
def Moe.accepted (m : Moe) (e : Nat) : Nat :=
  match m.hist with
  | [] => 0
  | b :: _ => ((b.experts[e]?).map (·.accepted)).getD 0

/-- Whether a binding finds its step (R200). -/
def Core.bindOk (c : Core) (t e : Nat) (r : Run) : Bool :=
  match (c.table t).tab with
  | some x => x.ctx == r.ctx && decide (e < x.experts) && c.stepRouted t r
  | none => false

/-- The newest committed step of a table (R204): from the DCLK after COMMIT on that of the step itself (R191). -/
def Moe.newest (m : Moe) (dclk : Nat) : Option StepBlock :=
  match m.st, m.work with
  | .commit, some w => if w.sinceAt < dclk then w.block else m.hist.head?
  | _, _ => m.hist.head?

/-- The fetch node that a node of a skein is: its table, expert, and whether it is an early one (R204); 0xF_FFFF names none
(Table 07-2). Of several entries or tables that name a node, or for a fetch node of one table that is bound to another, the spec gives
no rule: the lowest table that names it as a fetch node decides, its early entries first (DESIGN CHOICE, notes/assumptions/89). -/
def Core.fetchNode (c : Core) (ctx skein node : Nat) : Option (Nat × Nat × Bool) :=
  if node = 0xFFFFF then none else
  (c.routedBy ctx skein).findSome? fun t =>
    match (c.table t).tab with
    | none => none
    | some x =>
      match x.entries.findIdx? fun e => e.early == node with
      | some e => some (t, e, true)
      | none => (x.entries.findIdx? fun e => e.late == node).map fun e => (t, e, false)

/-- n[e] of a step. -/
def StepBlock.taken (b : StepBlock) (e : Nat) : Nat := ((b.experts[e]?).map (·.accepted)).getD 0

/-- Whether the prediction for an expert is hot (R204). -/
def Moe.hot (m : Moe) (dclk e : Nat) : Bool :=
  match m.tab, m.newest dclk with
  | some x, some b => x.lookahead && decide (x.lookaheadN ≤ b.taken e)
  | _, _ => false

/-- The rank of a LIST-mode task bound to an expert (R201). -/
def Core.expertRank (c : Core) (t e : Nat) : Nat :=
  match (c.table t).hist with
  | [] => 8192
  | b :: _ =>
    let v := fun i => match b.experts[i]? with | some x => x.routed - x.dropped | none => 0
    1 + ((List.range b.experts.length).filter fun i => decide (v e < v i) || (v i == v e && decide (i < e))).length

/-- What an early fetch node does on becoming eligible (Table 07-8, R206): it counts at or after the DCLK of its step's entry to LOCAL,
and one granted in the DCLK of ROUTED for an expert with n[e] = 0 is a miss (R205, R212). -/
def Core.earlyFetch (c : Core) (r : Run) (t e full : Nat) : Core × Nat :=
  let m := c.table t
  let routed := c.stepRouted t r
  let go := if routed then decide (0 < m.accepted e) else m.hot c.dclk e
  let began := m.stepOf r && m.st != .idle
  let miss := go && began && !routed && m.st == .routed && m.accepted e == 0
  let m1 := { m with granted := if go then m.granted ++ [(e, c.dclk)] else m.granted,
                     early := if began then m.early else (c.dclk, if m.early.1 = c.dclk then m.early.2 + 1 else 1),
                     cnt1 := if miss then satAdd m.cnt1 32 32 1 else m.cnt1 }
  ((if began then c.ndInc r.ctx 1 else c).setTable t m1, if go then full else 0)

/-- What a late fetch node does on becoming eligible (Table 07-8, R205, R206). -/
def Core.lateFetch (c : Core) (r : Run) (t e node full : Nat) : Core × Nat :=
  let m := c.table t
  if c.stepRouted t r then
    if 0 < m.accepted e ∧ (m.granted.any fun g => g.1 == e) = false then
      (c.setTable t { m with cnt1 := satAdd m.cnt1 0 32 1 }, full)
    else (c, 0)
  else (c.moeUnbound t r.ctx (w64 node), 0)

/-- The tile count and rank of a task that becomes eligible (R128, R145, R200, R201, R204). A bound task with n[e] > 0 and no trip count
in use has no outermost one to replace: it takes one tile (DESIGN CHOICE, notes/assumptions/90). -/
def Core.tilesFor (c : Core) (r : Run) (t : Task) (k : Skein) (h : Rec256) : Core × Nat × Nat :=
  if t.kind = .replayStep then (c, 1, 0)
  else
    let ts := withTop (k.trips t.node) t.tripTop
    let full := tripProduct ts
    match (if t.kind = .static then c.fetchNode r.ctx r.skein t.node else none) with
    | some (tb, e, true) => let x := c.earlyFetch r tb e full; (x.1, x.2, 0)
    | some (tb, e, false) => let x := c.lateFetch r tb e t.node full; (x.1, x.2, 0)
    | none =>
      if hExpertEn h then
        let tb := hTable h
        let e := hExpert h
        if c.bindOk tb e r then
          let n := (c.table tb).accepted e
          let tiles := match (c.table tb).tab with | some x => ceilDiv n (max 1 x.tileTokens) | none => 0
          (c, if n = 0 then 0 else if ts = [] then 1 else tripProduct (withTop ts tiles),
           if hMode h = 2 then c.expertRank tb e else 0)
        else (c.moeUnbound tb r.ctx (w64 t.node), 0, if hMode h = 2 then 8192 else 0)
      else (c, full, 0)

/-! Entry to READY -/

/-- A task becomes READY (R155, R156): the count of this DCLK, the STOP_AT by node (R90), and the enables of its ports. -/
def Core.makeReady (c : Core) (ref : TaskRef) : Core :=
  match c.taskOf ref with
  | none => c
  | some (r, t) =>
    let c1 := c.modTask ref fun x => { x with st := .ready, readyAt := c.gc.count, delay := none }
    let c2 := match (c1.ctx ref.ctx).stop with
      | some a =>
        match a.point with
        | .atNode s n => if s = r.skein ∧ n = t.node ∧ t.kind ≠ .replayStep then c1.stopReached ref.ctx else c1
        | .atCount _ => c1
      | none => c1
    (hPorts (c2.headOf r t)).foldl (fun d e => d.requestEnable e) c2

/-- A release or earliest count of a run after the clips it has come through: each adds its shift to a count above its local
cut count (R350). -/
def Run.shifted (r : Run) (x : Nat) : Nat := r.shifts.foldl (fun a s => if s.1 < a then (a + s.2) % 2 ^ 64 else a) x

/-- The list and release count of a task's delay (Table 06-2), none for a task that never takes an entry (R157). -/
def Core.releaseOf (c : Core) (r : Run) (t : Task) (h : Rec256) : Option (Nat × Nat) :=
  if t.kind ≠ .static then none
  else if hFixed h then some (0, r.shifted (r.start + hStartOff h))
  else if hStartOff h = 0 then none
  else
    let list := max 1 (fld c.graph.dlyCtrl (32 + 2 * hPrio h) 2)
    let k := 2 ^ fld c.graph.dlyCtrl (5 * (list - 1)) 5
    some (list, r.shifted (ceilDiv (r.start + hStartOff h) k * k))

/-- A task is eligible (Table 05-12): READY, or on its way from WAITING to DONE, elided or with zero tiles, which its completion
sequence ends (R142). -/
def Core.ripen (c : Core) (ref : TaskRef) : Core :=
  match c.taskOf ref with
  | none => c
  | some (r, t) =>
    match c.skein r.ctx r.skein with
    | none => c
    | some k =>
      let h := c.headOf r t
      let comp : Comp := { d := c.dclk, task := ref, skein := r.skein, stage := .due, since := c.dclk, elided := false,
                           exited := false, applied := 0, matched := false }
      if t.kind = .static ∧ 0 < hDepInit h ∧ t.live = false then
        (c.modTask ref fun x => { x with elided := true, delay := none, ripeAt := some c.dclk }).addComp { comp with stage := .edges, elided := true }
      else
        -- a task that a clip put back on its delay list was eligible before, and keeps what it got then (R350, R351)
        let x := match t.tiles with
          | some n => (c, n, t.rank)
          | none => c.tilesFor r t k h
        let c1 := x.1.modTask ref fun y => { y with tiles := some x.2.1, rank := x.2.2, delay := none }
        if x.2.1 = 0 then (c1.modTask ref fun y => { y with ripeAt := some c.dclk }).addComp comp
        else c1.makeReady ref

/-- A task whose conditions may now hold (R135, R157): a delay-list entry, or eligible. -/
def Core.promote (c : Core) (ref : TaskRef) : Core :=
  match c.taskOf ref with
  | none => c
  | some (r, t) =>
    if t.st = .waiting ∧ t.ctr = 0 ∧ t.satisfied ∧ r.started ∧ !r.stopping ∧ t.delay = none ∧ (c.compOf ref).isNone then
      match c.releaseOf r t (c.headOf r t) with
      | none => c.ripen ref
      | some d => if c.gc.count < d.2 then c.modTask ref fun x => { x with delay := some d } else c.ripen ref
    else c

/-! Waits -/

/-- The interval between two reads of a watch entry, in RCLK (Table 05-20). -/
def Core.pollTime (c : Core) : Nat := fld c.graph.poll 0 16 * 48

/-- A wait is armed (R138 to R140), once the pages of the task are resident (R134). -/
def Core.armWait (c : Core) (ref : TaskRef) : Core :=
  match c.taskOf ref with
  | none => c
  | some (r, t) =>
    match c.skein r.ctx r.skein with
    | none => c
    | some k =>
      let h := c.headOf r t
      if t.armed || !c.pagesReady r t then c
      else
        let c1 := c.modTask ref fun x => { x with armed := true, satisfied := !hHasWait h }
        if !hHasWait h then c1
        else
          let w := k.waitRec t.node
          match rf w 0 62 2 with
          | 1 =>
            match c.useHandle r (rf w 1 56 8) (rf w 1 3 45 * 8) 8 false with
            | .error e => c1.faultPlain ref .badHandle e
            | .ok a =>
              let w : WatchEnt := { task := ref, addr := a, next := c.now + c.pollTime }
              Core.reelRead { c1 with graph := { c1.graph with watches := c1.graph.watches ++ [w] } } a (.polled ref)
          | 2 =>
            match c.syncLookup r.ctx (rf w 0 24 24) with
            | .error e => if e = heldCode then c else c1.faultPlain ref .faulted e
            | .ok none => c1.faultPlain ref .badHandle 1
            | .ok (some o) =>
              if o.token && rf w 0 60 2 == 1 then c1.faultPlain ref .badParam 4
              else
                let x : SyncWaiter := { who := .task ref, skein := r.skein, equal := rf w 0 60 2 == 1,
                                        threshold := w64 (rf w 2 0 64) }
                c1.syncArm o x
          | _ => c1

/-- Whether a value meets the condition of a WAIT record (Table 05-6). -/
def waitMet (w : Rec256) (v : W64) : Bool :=
  if rf w 0 60 2 = 1 then v.toNat == rf w 2 0 64 else decide (rf w 2 0 64 ≤ v.toNat)

/-- A task whose counter is zero, in a run that has started: its wait is armed, and it may be eligible. -/
def Core.activate (c : Core) (ref : TaskRef) : Core := (c.armWait ref).promote ref

/-- Tasks of a run that could be eligible are offered again. -/
def Core.activateRun (c : Core) (r : Run) : Core :=
  if r.started && !r.stopping && !r.cut then
    r.tasks.foldl (fun d t =>
      if t.st = .waiting ∧ t.ctr = 0 ∧ t.delay = none then d.activate (r.ref t) else d) c
  else c

/-- Every run's tasks are offered again: at each DCLK edge. -/
def Core.activateAll (c : Core) : Core :=
  c.graph.runs.foldl (fun d r => match d.findRun r.ctx r.tag with | some q => d.activateRun q | none => d) c

/-- Waits on signal words at the end of a DCLK (R138). -/
def Core.evalSignals (c : Core) : Core :=
  let runs := c.graph.runs.map fun r =>
    match c.skein r.ctx r.skein with
    | none => r
    | some k =>
      { r with tasks := r.tasks.map fun t =>
          if t.st == .waiting && t.armed && !t.satisfied && t.kind != .replayStep then
            let w := k.waitRec t.node
            if rf w 0 62 2 == 0 && waitMet w (c.sig (rf w 0 24 12)) then { t with satisfied := true } else t
          else t }
  { c with graph := { c.graph with runs := runs } }

/-- SYNC_WAIT commands of the expert form at the end of a DCLK (R138, R224). -/
def Core.evalSigWaits (c : Core) : Core :=
  (List.range 64).foldl (fun d n =>
    match (d.queue n).cur with
    | .sigWait _ s thr => if thr.toNat ≤ (d.sig s).toNat then d.release n vOk else d
    | _ => d) c

/-- A run starts (R135, R277): its count is reached, and the tasks with counter zero are offered. -/
def Core.startRun (c : Core) (ctx tag : Nat) : Core :=
  match c.findRun ctx tag with
  | none => c
  | some r =>
    if r.started || r.cut || decide (c.gc.count < r.start) then c
    else
      let r1 := { r with started := true }
      ((c.setRun r1).activateRun r1).settle ctx tag

/-! Decrements -/

/-- One decrement of a task's counter, live or elided (R130, R136, R137). -/
def Core.decrement (c : Core) (ref : TaskRef) (live : Bool) : Core :=
  match c.taskOf ref with
  | none => c
  | some (r, t) =>
    if t.st = .waiting then
      let c1 := c.modTask ref fun x => { x with ctr := x.ctr - 1, live := x.live || live }
      if t.ctr = 1 ∧ r.started then c1.activate ref else c1
    else c

end Sys2Proof.Machine
end

