-- ==== Sys2Proof/Machine/PlyShape.lean ====
section
/-! DEFINITION. The shape of a collective slot: its fields (Table 10-9), formats (Table 10-4), the combinations it may form
(R257, Table 10-3), the extents of its regions (R256, R258, Table 10-6), and the check at launch (R258). -/

namespace Sys2Proof.Machine

/-- A slot as its registers give it (Table 10-9). -/
structure Slot where
  op       : Nat
  fn       : Nat
  exact    : Bool
  inFmt    : Nat
  outFmt   : Nat
  trigNode : Nat
  presEn   : Bool
  auxEn    : Bool
  group    : Nat
  root     : Nat
  bindEn   : Bool
  table    : Nat
  expert   : Nat
  count    : Nat
  rowLines : Nat
  regions  : List (Nat × Nat)
  srcStride : Nat
  dstStride : Nat
  deriving DecidableEq, Repr

/-- The slot k of context n. -/
def Core.slot (c : Core) (n k : Nat) : Slot :=
  let w := c.slotWord n k
  { op := fld (w 0) 56 4, fn := fld (w 0) 54 2, exact := bitAt (w 0) 53, inFmt := fld (w 0) 48 4,
    outFmt := fld (w 0) 44 4, trigNode := fld (w 0) 12 20, presEn := bitAt (w 0) 2, auxEn := bitAt (w 0) 1,
    group := fld (w 1) 48 16, root := fld (w 1) 32 16, bindEn := bitAt (w 1) 31, table := fld (w 1) 25 6,
    expert := fld (w 1) 12 13, count := fld (w 2) 32 32, rowLines := fld (w 2) 16 16,
    regions := [3, 4, 5, 6].map fun i => (fld (w i) 56 8, 64 * fld (w i) 24 32),
    srcStride := fld (w 7) 32 32, dstStride := fld (w 7) 0 32 }

/-- The size of an element in bytes (Table 10-4). -/
def fmtSize (f : Nat) : Nat :=
  match f with
  | 0 => 4
  | 1 => 2
  | 2 => 2
  | 3 => 1
  | 4 => 1
  | 5 => 4
  | 6 => 1
  | 7 => 4
  | 8 => 8
  | 9 => 64
  | 10 => 1
  | _ => 0

/-- Whether the operation is an indexed move (R267). -/
def Slot.indexed (s : Slot) : Bool := s.op == 6 || s.op == 7

/-- Whether the operation reduces. -/
def Slot.reduces (s : Slot) : Bool := s.op == 1 || s.op == 2 || s.op == 8

/-- Whether the aux region is in use: the mask of a reduction, or the index table of an indexed move (R257). -/
def Slot.usesAux (s : Slot) : Bool := s.indexed || (s.reduces && s.auxEn)

/-- Whether op, fn, mode and formats form a combination of R256 and R257. -/
def Slot.formOk (s : Slot) : Bool :=
  let ints := [5, 6, 7].contains s.inFmt
  let out := fun l : List Nat => l.contains s.outFmt
  if s.op = 1 ∨ s.op = 2 then
    if s.fn = 0 then
      if s.exact then ([0, 1, 9].contains s.inFmt && out [0, 1, 9]) || (ints && out [8])
      else (decide (s.inFmt ≤ 4) && out [0, 1, 2]) || ([5, 6].contains s.inFmt && out [5])
    else decide (s.fn ≤ 2) && ((decide (s.inFmt ≤ 4) && out [s.inFmt, 0]) || (ints && out [s.inFmt]))
  else if s.op = 8 then s.fn == 0 && s.exact && ints && out [8]
  else decide (3 ≤ s.op) && decide (s.op ≤ 7) && s.fn == 0 && !s.exact && out [s.inFmt] && s.inFmt != 8
    && decide (s.inFmt ≤ 10)

/-- n rounded up to whole lines of 64 bytes. -/
def lines64 (n : Nat) : Nat := 64 * ceilDiv n 64

/-- Bytes of the source of one held leaf (R258). -/
def Slot.srcBytes (s : Slot) : Nat :=
  if s.indexed then s.count * s.rowLines * 64 else lines64 (s.count * fmtSize s.inFmt)

/-- Bytes of one output field: per held leaf, or once per chip (Table 10-2). -/
def Slot.dstBytes (s : Slot) (g : GroupEnt) : Nat :=
  let e := fmtSize s.outFmt
  match s.op with
  | 1 => lines64 (s.count * e)
  | 2 => lines64 (s.count / max 1 g.nLeaves * e)
  | 3 => g.nLeaves * lines64 (s.count * e)
  | 4 => lines64 (s.count * e)
  | 5 => lines64 (s.count * e)
  | 8 => lines64 (2 * s.count * e)
  | _ => s.count * s.rowLines * 64

/-- Whether the output is written once per chip. -/
def Slot.oncePerChip (s : Slot) : Bool := s.op == 1 || s.op == 3 || s.op == 4

/-- Presence fields and their bits (Table 10-6): how many fields, and the bits of each. -/
def Slot.presFields (s : Slot) (g : GroupEnt) : Nat × Nat :=
  match s.op with
  | 1 => (1, s.count)
  | 2 => (g.count, s.count / max 1 g.nLeaves)
  | 3 => (1, g.nLeaves)
  | 4 => (1, 1)
  | 5 => (g.count, g.nLeaves)
  | _ => (g.count, s.count)

/-- Bytes of the presence region (R266). -/
def Slot.presBytes (s : Slot) (g : GroupEnt) : Nat :=
  let f := s.presFields g
  64 + f.1 * lines64 (ceilDiv f.2 8)

/-- Bytes of the mask or the index table of one held leaf (R258), and the distance between leaves. -/
def Slot.auxBytes (s : Slot) : Nat × Nat :=
  if s.indexed then (8 * s.count, lines64 (8 * s.count)) else (64 * ceilDiv s.count 512, 64 * ceilDiv s.count 512)

/-- The extent of a field that is repeated for each held leaf at a distance. -/
def spanBytes (n stride one : Nat) : Nat := if n = 0 then 0 else (n - 1) * stride + one

/-- Whether this chip reads sources: for BROADCAST only where it holds the root leaf (Table 10-2). -/
def Slot.reads (s : Slot) (g : GroupEnt) : Bool :=
  decide (0 < g.count) && (s.op != 4 || (decide (g.first ≤ s.root) && decide (s.root < g.first + g.count)))

/-- The regions in use: position among source, destination, aux and presence, extent, and whether Ply writes it. -/
def Slot.uses (s : Slot) (g : GroupEnt) : List (Nat × Nat × Bool) :=
  (if s.reads g then [(0, spanBytes g.count (64 * s.srcStride) s.srcBytes, false)] else [])
    ++ (if s.oncePerChip then [(1, s.dstBytes g, true)]
        else if g.count = 0 then [] else [(1, spanBytes g.count (64 * s.dstStride) (s.dstBytes g), true)])
    ++ (if s.usesAux && decide (0 < g.count) then [(2, spanBytes g.count s.auxBytes.2 s.auxBytes.1, false)] else [])
    ++ (if s.presEn then [(3, s.presBytes g, true)] else [])

/-- The first part of the check of R258. -/
def Slot.formFails (s : Slot) (k : Skein) (g : Option GroupEnt) : Bool :=
  let used := [0, 1] ++ (if s.usesAux then [2] else []) ++ (if s.presEn then [3] else [])
  !s.formOk || !k.isHead s.trigNode
    || (used.any fun i => decide (k.handles.length ≤ (s.regions.getD i (0, 0)).1))
    || s.count == 0 || (s.indexed && (s.rowLines == 0 || decide (64 < s.rowLines)))
    || (match g with
        | none => false
        | some e => ((s.op == 2 || s.op == 5) && s.count % max 1 e.nLeaves != 0) || (s.op == 4 && decide (e.nLeaves ≤ s.root)))

/-- The check of one slot at launch (R258), with what a handle-list position names. -/
def Core.slotCheck (c : Core) (n : Nat) (k : Skein) (region : Nat → Option Region) (i : Nat) : Option Verdict :=
  let s := c.slot n i
  let g := c.groupEnt s.group
  if s.formFails k g then some { status := .badParam, detail := 0xF00000 + s.trigNode }
  else
    match g with
    | none => some (vIso 4)
    | some e =>
      if e.ctx ≠ n then some (vIso 4)
      else if (s.uses e).all fun u =>
          let x := s.regions.getD u.1 (0, 0)
          match region x.1 with
          | none => false
          | some r => decide (x.2 + u.2.1 ≤ r.size) && (!u.2.2 || r.write)
        then none
      else some { status := .badHandle, detail := 0xFE0000 + i * 256 + 3 }

end Sys2Proof.Machine
end

