-- ==== Sys2Proof/Machine/Launch.lean ====
section
/-! DEFINITION. Launching and ending runs (03 R87 to R93, 05 R150, 06 R160, 11 R277): LAUNCH, LAUNCH_AT, REPLAY, CANCEL,
STOP_AT, RESUME, and the counts that start or stop runs. -/

namespace Sys2Proof.Machine

/-! What a launch resolves and reserves -/

/-- The verdict of a listed handle that does not resolve (R120). -/
def listVerdict (i : Nat) : HErr → Verdict
  | .bad r => { status := .badHandle, detail := 0xFF0000 + i * 256 + r }
  | .fault k => { status := .faulted, detail := 0xFF0000 + i * 256 + k }

/-- The handles of a list resolved in list order (R120): table index, generation and region of each. -/
def Core.resolveList (c : Core) (n base : Nat) : List (Nat × Nat) → Except Verdict (List RelocEnt)
  | [] => .ok []
  | (i, h) :: rest =>
    match c.resolve n base h false 0 with
    | .error e => .error (listVerdict i e)
    | .ok g =>
      match Core.resolveList c n base rest with
      | .error v => .error v
      | .ok l => .ok ({ ctx := n, idx := h % 2 ^ 20 + base, gen := h / 2 ^ 20, region := some (g.write, g.base, g.size) } :: l)

/-- Entries of a list whose table index the relocation store does not hold yet, each index once (R120). -/
def Core.newReloc (c : Core) (n : Nat) : List RelocEnt → List RelocEnt
  | [] => []
  | e :: rest =>
    if (c.relocAt n e.idx).isSome || rest.any (fun x => x.idx == e.idx) then Core.newReloc c n rest
    else e :: Core.newReloc c n rest

/-- The region that a handle of a launch names: the store's where the store holds its index (R120). -/
def Core.launchRegion (c : Core) (n : Nat) (l : List RelocEnt) (i : Nat) : Option Region :=
  match l[i]? with
  | none => none
  | some e =>
    let g := match c.relocAt n e.idx with | some x => x.region | none => e.region
    g.map fun y => { write := y.1, base := y.2.1, size := y.2.2 }

/-- Entries that a head may take in the four delay lists (R160). -/
def Core.delayNeeds (c : Core) (k : Skein) : List Nat :=
  let lists := k.heads.filterMap fun n =>
    let h := k.record n
    if hStartOff h = 0 then none
    else if hFixed h then some 0
    else some (max 1 (fld c.graph.dlyCtrl (32 + 2 * hPrio h) 2))
  (List.range 4).map fun i => lists.count i

/-- Heads with a polled wait (R139). -/
def Skein.polledHeads (k : Skein) : Nat :=
  (k.heads.filter fun n => hHasWait (k.record n) && rf (k.waitRec n) 0 62 2 == 1).length

/-- The valid cut entries of a context that name a skein, in order (R341). -/
def Core.cutNodes (c : Core) (n skein : Nat) : List Nat :=
  (List.range 32).filterMap fun i =>
    let w := agetD (c.ctx n).cuts i 0
    if bitAt w 63 && fld w 32 10 == skein then some (fld w 0 20) else none

/-- Step 13 of a launch (R77, R87, R120, R139, R146, R160): the lowest resource code that lacks room. -/
def Core.launchRoom (c : Core) (n : Nat) (k : Skein) (l : List RelocEnt) : Except Verdict Unit := do
  ensure (decide (k.enqLimit ≤ c.stateFree) &&
    decide (ceilDiv (c.dynRecords + k.enqLimit) 128 ≤ c.pageFree + ceilDiv c.dynRecords 128)) (vFull 1)
  ensure (decide (c.unfinished n < 64)) (vFull 2)
  ensure ((c.delayNeeds k).zipIdx.all fun x => decide (x.1 ≤ c.delayFree x.2)) (vFull 6)
  ensure (decide ((c.newReloc n l).length ≤ c.relocFree)) (vFull 7)
  ensure (decide (k.polledHeads ≤ c.watchFree)) (vFull 8)

/-- Step 11 of a launch (R87, R408): the skein is loaded, has no unfinished run, and the tag is unused. -/
def Core.launchNamed (c : Core) (n : Nat) (p : Packet) : Except Verdict Skein :=
  match c.skein n (pf p 2 32 10) with
  | none => .error (vState 4)
  | some k =>
    if !c.skeinIdle n k.id then .error (vState 5)
    else if c.tagUsed n (pkTag p) then .error (vParam 0 5)
    else .ok k

/-- The per-launch constant buffer against const_len (R123). -/
def constCheck (k : Skein) (h : Option Region) : Except Verdict (Option (Nat × Nat)) :=
  match h with
  | none => if k.constLen = 0 then .ok none else .error (vWord .badHandle 2 3)
  | some g => if g.size < 64 * k.constLen then .error (vWord .badHandle 2 3) else .ok (some (g.base, k.constLen))

/-- The slack and deadline_halt of a launch (R93, R281): e8, ECLK, halt. -/
def Core.slackOf (c : Core) (w : Option W64) : Nat × Nat × Bool :=
  let dflt := (fld c.graph.slack 8 8, fld c.graph.slack 16 32)
  match w with
  | none => (dflt.1, dflt.2, false)
  | some x => if bitAt x 1 then (fld x 8 8, fld x 16 32, bitAt x 0) else (dflt.1, dflt.2, bitAt x 0)

/-- The bound sends of a launch (R243). -/
def Core.bindsOf (c : Core) (n skein : Nat) : List SendBind :=
  c.chans.filterMap fun h =>
    match h.2.tx with
    | some t => if t.ctx = n ∧ t.skein = skein then some { chan := h.1, first := t.first, last := t.last } else none
    | none => none

/-- The pw_lead of LAUNCH_AT in DCLK (Table 02-9). -/
def Core.powerLead (c : Core) : Nat := fld c.pwr.ramp 56 8 * 1024 * 16

/-- A run that a launch creates (R87), with its reservations. -/
def Core.newRun (c : Core) (n : Nat) (p : Packet) (k : Skein) (l : List RelocEnt) (kind : RunKind) (start : Nat)
    (cbuf : Option (Nat × Nat)) (slack : Nat × Nat × Bool) : Run :=
  { ctx := n, tag := pkTag p, skein := k.id, kind := kind, irq := pkIrq p, start := start, started := false, cbuf := cbuf,
    slackE8 := slack.1, slackEclk := slack.2.1, halt := slack.2.2, checksOff := false, timing := false,
    cancelled := false, cancelAt := none, deadline := false, firstFault := none, stopping := false, dynNext := 0,
    handleIdx := l.map (·.idx), delayRes := if kind = .launch then c.delayNeeds k else [],
    watchRes := if kind = .launch then k.polledHeads else 0, storeRes := if kind = .launch then k.enqLimit else 0, wrote := [],
    figure := k.figure, counted := decide (start ≤ c.gc.count + c.powerLead),
    binds := if kind = .launch then sortBy (fun a b => decide (a.chan < b.chan)) (c.bindsOf n k.id) else [],
    passed := [], cutAt := none, cut := false, shifts := [], pc := 0, steps := [],
    tasks := if kind = .launch then k.heads.map fun i => Task.fresh i none .static 0 0 (hDepInit (k.record i)) else [] }

/-- A run joins the unfinished ones, and its new relocation entries join the store. -/
def Core.addRun (c : Core) (n : Nat) (r : Run) (l : List RelocEnt) : Core :=
  { c with graph := { c.graph with runs := c.graph.runs ++ [r], reloc := c.graph.reloc ++ c.newReloc n l } }

/-- Steps 9 to 15 of LAUNCH and LAUNCH_AT: `at_` is the word of the start count, `ext` the word of the expert form. -/
def Core.launchRun (c : Core) (n : Nat) (p : Packet) (at_ ext : Option Nat) : Except Verdict CpRes := do
  ensure (at_.isNone || bitAt c.gc.status 0) (vState 2)
  let start := match at_ with | some w => (pw p w).toNat | none => c.gc.count
  step9 p (match at_ with
    | some w => if start < c.gc.count + 16384 then [⟨w, 0, .badParam, 3⟩] else []
    | none => [])
  let h := pf p 2 0 32
  let cb ← (if h = noHandle then .ok none else (c.handleParam n p 2 0 false 0).map some)
  let k ← c.launchNamed n p
  let cbuf ← constCheck k cb
  let l ← c.resolveList n (pkBase p) (k.handles.zipIdx.map fun x => (x.2, x.1))
  match (c.cutNodes n k.id).find? fun i => !k.isHead i with
  | some i => .error { status := .badParam, detail := 0xF00000 + i }
  | none => .ok ()
  match (c.slotsOf n k.id).findSome? (c.slotCheck n k (c.launchRegion n l)) with
  | some v => .error v
  | none => .ok ()
  c.launchRoom n k l
  let slack := c.slackOf (match ext with | some w => if pkExp p then some (pw p w) else none | none => none)
  return .accept (c.addRun n (c.newRun n p k l .launch start cbuf slack) l)

/-- Runs whose start count is reached, started; after the ACCEPTED reply (R75). -/
def Core.startDue (c : Core) : Core :=
  c.graph.runs.foldl (fun d r => if r.kind = .launch ∧ !r.started then d.startRun r.ctx r.tag else d) c

/-- LAUNCH (R87). -/
def execLaunch (s : State) : Host.Outcome State Fault Refusal :=
  onRun s fun _ c => (c.cpTake 0x20 fun d n p => d.launchRun n p none (some 3)).startDue

/-- LAUNCH_AT (R87, R92, R277, R278). -/
def execLaunchAt (s : State) : Host.Outcome State Fault Refusal :=
  onCommand s 0x21 fun _ c n p => c.launchRun n p (some 3) (some 4)

/-- INSTANCE_START: the count reaches the start count of a run (R135). -/
def execInstanceStart (ctx tag : Nat) (s : State) : Host.Outcome State Fault Refusal :=
  onRun s fun _ c => c.startRun ctx tag

/-- POWER_REQUEST_DUE: pw_lead before its start count a run of LAUNCH_AT counts for the power request (R68, R92). -/
def execPowerRequestDue (ctx tag : Nat) (s : State) : Host.Outcome State Fault Refusal :=
  onRun s fun _ c =>
    match c.findRun ctx tag with
    | none => c
    | some r => if r.start ≤ c.gc.count + c.powerLead then c.setRun { r with counted := true } else c

/-! Replay (R150) -/

/-- The op of a replay step (Table 05-17). -/
def stepOp (w : List W64) : Nat := fld (w.getD 0 0) 62 2

/-- A failed check of a replay step against Table 05-10: the status of its fault, and its reason where the spec gives one. -/
def Core.replayCheck (c : Core) (r : Run) (w : List W64) : Option (Status × Option Nat) :=
  let e := fld (w.getD 0 0) 52 10
  if stepOp w = 3 then some (.badParam, some 2)
  else if c.cfg.enginePorts ≤ e then some (.limitExceeded, some 1)
  else if !c.present e then some (.engineAbsent, none)
  else if !(c.ctx r.ctx).spindleMask.testBit (e / 64) then some (.isolation, some 3)
  else if r.handleIdx.length ≤ fld (w.getD 0 0) 44 8 ∨ [1, 2, 3].any (fun i => decide (r.handleIdx.length ≤ fld (w.getD i 0) 56 8))
  then some (.badParam, some 2)
  else none

/-- The next steps of a replay that can go (R150): a BARRIER waits until every earlier ISSUE has returned, and the ISSUE
that follows waits until the one before it is issued. -/
def Core.replayGo : Nat → Core → Nat → Nat → Core
  | 0, c, _, _ => c
  | n + 1, c, ctx, tag =>
    match c.findRun ctx tag with
    | none => c
    | some r =>
      if r.stopping then c
      else
        match r.steps[r.pc]? with
        | none => c
        | some w =>
          if stepOp w = 1 then
            if r.tasks.all fun t => t.st.final then Core.replayGo n (c.setRun { r with pc := r.pc + 1 }) ctx tag else c
          else if r.tasks.any fun t => t.st == .ready || t.st == .waiting then c
          else
            let arg := match c.skein r.ctx r.skein with
              | some k => (agetD k.params (fld (w.getD 0 0) 12 8) 0).toNat % 2 ^ 32
              | none => 0
            let t := { Task.fresh r.pc none .replayStep arg 0 0 with armed := true, satisfied := true, tiles := some 1 }
            let c1 := c.setRun { r with pc := r.pc + 1, tasks := r.tasks ++ [t] }
            match c.replayCheck r w with
            | some e => let d := c1.drawWord; d.2.faultPlain (r.ref t) e.1 (e.2.getD (d.1.toNat % 256))
            | none => Core.replayGo n (c1.makeReady (r.ref t)) ctx tag

/-- A replay goes on, and ends when it is over. -/
def Core.replayRun (c : Core) (ctx tag : Nat) : Core :=
  match c.findRun ctx tag with
  | none => c
  | some r => if r.kind = .replay then (Core.replayGo (r.steps.length + 1) c ctx tag).settle ctx tag else c

/-- The steps of a replay program up to its END (R150). -/
def replaySteps : Nat → List W64 → List (List W64)
  | 0, _ => []
  | n + 1, ws => if stepOp (ws.take 4) = 2 then [] else ws.take 4 :: replaySteps n (ws.drop 4)

/-- Steps 9 to 15 of REPLAY. -/
def Core.replay (c : Core) (n : Nat) (p : Packet) : Except Verdict CpRes := do
  step9 p []
  let k ← c.launchNamed n p
  ensure k.hasReplay (vParam 2 2)
  let l ← c.resolveList n 0 (k.handles.zipIdx.map fun x => (x.2, x.1))
  ensure (decide (c.unfinished n < 64)) (vFull 2)
  ensure (decide ((c.newReloc n l).length ≤ c.relocFree)) (vFull 7)
  let ws ← c.readFor 2 k.replayAt (4 * (k.replaySteps + 1))
  let r := c.newRun n p k l .replay c.gc.count none (0, 0, false)
  return .accept (c.addRun n { r with counted := true, started := true, steps := replaySteps (k.replaySteps + 1) ws } l)

/-- Replays that have just been accepted begin. -/
def Core.startReplays (c : Core) : Core :=
  c.graph.runs.foldl (fun d r => if r.kind = .replay ∧ r.pc = 0 then d.replayRun r.ctx r.tag else d) c

/-- REPLAY (R150). -/
def execReplay (s : State) : Host.Outcome State Fault Refusal :=
  onRun s fun _ c => (c.cpTake 0x22 fun d n p => d.replay n p).startReplays

/-! Ending and stopping -/

/-- CANCEL (R91, R148): the run's final reply comes first, the OK follows. -/
def Core.cancel (c : Core) (n : Nat) (p : Packet) : Except Verdict CpRes := do
  step9 p []
  let tag := pf p 2 0 32
  match c.findRun n tag with
  | none => .error (vState 4)
  | some r =>
    let c1 := (c.setRun { r with cancelled := true, cancelAt := some c.dclk }).stopRun n tag
    return if (c1.findRun n tag).isNone then .done vOk c1 else .hold (.cancelWait p tag) c1

/-- CANCEL (R148). -/
def execCancel (s : State) : Host.Outcome State Fault Refusal := onCommand s 0x24 fun _ c n p => c.cancel n p

/-- STOP_AT (R90, R408). -/
def Core.stopAt (c : Core) (n : Nat) (p : Packet) : Except Verdict CpRes := do
  let byNode := pb p 2 0
  step9 p (if byNode then reservedIn p 3 (fields [(19, 0)]) else [])
  let x := c.ctx n
  ensure x.stop.isNone (vState 3)
  if byNode then
    match c.skein n (pf p 2 32 10) with
    | none => .error (vState 4)
    | some k =>
      ensure (decide (pf p 3 0 20 < k.nodeCount)) (vParam 3 2)
      return .accept (c.setCtx n { x with stop := some { point := .atNode k.id (pf p 3 0 20), tag := pkTag p, irq := pkIrq p } })
  else
    return .accept (c.setCtx n { x with stop := some { point := .atCount (pw p 3).toNat, tag := pkTag p, irq := pkIrq p } })

/-- An armed STOP_AT by count whose count is reached or past takes effect (R90, R91). -/
def Core.stopDue (c : Core) (n : Nat) : Core :=
  match (c.ctx n).stop with
  | some a => match a.point with | .atCount k => if k ≤ c.gc.count then c.stopReached n else c | .atNode _ _ => c
  | none => c

/-- STOP_AT: a count already past stops the context at once, after the ACCEPTED reply (R90). -/
def execStopAt (s : State) : Host.Outcome State Fault Refusal :=
  onRun s fun _ c =>
    let d := c.cpTake 0x26 fun d n p => d.stopAt n p
    (List.range 64).foldl (fun e n => if (c.ctx n).stop.isNone && (e.ctx n).stop.isSome then e.stopDue n else e) d

/-- STOP_COUNT: the global count reaches an armed STOP_AT (R90). -/
def execStopCount (ctx : Nat) (s : State) : Host.Outcome State Fault Refusal :=
  if ctx < 64 then onRun s fun _ c => c.stopDue ctx else .next s

end Sys2Proof.Machine
end

