-- ==== Sys2Proof/Machine/Power.lean ====
section
/-! DEFINITION. Drift measurement (R54), budget requests and grants (R43, R68, R69), the throttle (R62), the windows and
settings of the ramp governor (R64, R66), and watching for progress (R329 to R331). -/

namespace Sys2Proof.Machine

/-! Drift -/

/-- The DCLK cycles counted in the window that ends now, less the 16,777,216 of a correctly locked RCLK (R54). -/
def Core.driftDiff (c : Core) : Int := ((c.dclk - c.clk.winAt : Nat) : Int) - 16777216

/-- A drift flag is set (Table 02-1). -/
def Core.setClk (c : Core) (bit : Nat) : Core :=
  { c with clk := { c.clk with status := setBit c.clk.status bit true } }.mark 0x10000 bit

/-- A window of 2^20 REF_MON periods ends (R54): last_diff, worst_diff, meas_valid, and drift_over beyond the limit; the next
window begins. Of two differences of equal magnitude the spec does not say which worst_diff keeps: the earlier stays (DESIGN
CHOICE, notes/assumptions/82). -/
def Core.driftWindow (c : Core) : Core :=
  let diff := c.driftDiff
  let worst := signed 32 (fld c.clk.drift 0 32)
  let d1 := setFld c.clk.drift 32 32 (twos 32 diff)
  let d2 := if worst.natAbs < diff.natAbs then setFld d1 0 32 (twos 32 diff) else d1
  let c1 := { c with clk := { c.clk with drift := d2, status := setBit c.clk.status 0 true, winAt := c.dclk,
                                         setAt := some c.pclk, before := c.clk.drift } }
  if fld c.clk.ctrl 16 16 < diff.natAbs then
    let c2 := { c1 with clk := { c1.clk with status := satAdd c1.clk.status 8 8 1 } }
    (c2.setClk 2).logClock 1
  else c1

/-- DRIFT_WINDOW (R54): from BOOT onward. `measured` is the count of the window, the DCLK since it began; a window with another count
does not end. -/
def execDriftWindow (measured : Nat) (s : State) : Host.Outcome State Fault Refusal :=
  onBootRun s fun _ c => if measured = c.dclk - c.clk.winAt then c.driftWindow else c

/-- No rising edge of REF_MON for 2^20 DCLK (R54): the window is discarded, and a new one begins. -/
def Core.refAbsent (c : Core) : Core :=
  let c1 := c.setClk 1
  { c1 with clk := { c1.clk with winAt := c.dclk } }.logClock 2

/-- REF_ABSENT (R54): a window that is not 2^20 DCLK old has not been without an edge for so long. -/
def execRefAbsent (s : State) : Host.Outcome State Fault Refusal :=
  onBootRun s fun _ c => if c.clk.winAt + 2 ^ 20 ≤ c.dclk then c.refAbsent else c

/-! Reads of registers -/

/-- What a read of SZ_CLK_DRIFT returns, and what it leaves: worst_diff is cleared, but where a window ended in the same PCLK the
read returns what stood before it and the difference of that window stays (R20, Table 02-2). -/
def Core.readDrift (c : Core) : W64 × Core :=
  if c.clk.setAt = some c.pclk then
    (c.clk.before, { c with clk := { c.clk with drift := setFld c.clk.drift 0 32 (fld c.clk.drift 32 32) } })
  else (c.clk.drift, { c with clk := { c.clk with drift := setFld c.clk.drift 0 32 0 } })

/-- A nonce as a read in the present PCLK returns it: what it was before a replacement in that PCLK (Table 15-7). -/
def Core.nonceRead (c : Core) (was : Option (Nat × W64)) (w : W64) : W64 :=
  match was with
  | some x => if x.1 = c.pclk then x.2 else w
  | none => w

/-- A read of the window (R22, R30, R397 to R400): the value it returns and what it leaves. A register of an absent instance
reads zero with no record; an unprivileged read outside its regions, and an offset with no register, read zero with an ACCESS
record. -/
def readAccess (s : Sys) (c : Core) (off : Nat) (priv : Bool) : W64 × Core :=
  if off % 8 = 0 ∧ absentReg c off then (0, c)
  else if !priv && !unprivOk off then (0, c.logAccess 4 off priv false 0)
  else
    match readReg s c off with
    | none => (0, c.logAccess 1 off priv false 0)
    | some w =>
      if s.phase == .boot && !bootServed off then (0, c.logAccess 1 off priv false 0)
      else if off = 0x10008 then c.readDrift
      else if off = 0x20008 then (c.nonceRead c.hedge.was w, c)
      else if off = 0x800000 then (c.nonceRead c.sync.win.was w, c)
      else (w, c)

/-- WORST_DIFF_READ: a read accepted at the Distaff port. The row is the read of SZ_CLK_DRIFT, which clears worst_diff (R20); a
read of any other offset, for which the table has no row, is the same command with that offset (DESIGN CHOICE,
notes/assumptions/72). It takes effect when it is accepted, and its response waits behind those of earlier reads (R28). -/
def execWorstDiffRead (s : State) (off : Nat := 0x10008) (tag : Nat := 0) (priv : Bool := true) :
    Host.Outcome State Fault Refusal :=
  onBootRun s fun sys c =>
    let r := readAccess sys c off priv
    { r.2 with df := { r.2.df with reads := r.2.df.reads ++ [{ tag := tag, data := r.1, at_ := c.now }] } }

/-- The response side at a PCLK edge: the oldest read that was accepted 6 PCLK ago or earlier is answered; one response a PCLK
(R28, R29). -/
def Core.answerRead (c : Core) : Core :=
  match c.df.reads with
  | r :: rest => if r.at_ / 4 + 6 ≤ c.pclk then { c with df := { reads := rest, rsp := some (r.tag, r.data) } }
                 else { c with df := { c.df with rsp := none } }
  | [] => { c with df := { c.df with rsp := none } }

/-! The power port -/

/-- The first SCLK edge after the present SCLK. -/
def Core.nextSclk (c : Core) : Nat := c.now / 48 * 48 + 48

/-- The sum that a request carries (R68): the figures of the counted runs, and of those whose final reply is not yet written, at
most 0xFFFF. -/
def Core.powerSum (c : Core) : Nat :=
  min (sumBy (fun r => if r.counted then r.figure else 0) c.graph.runs
       + sumBy (·.figure) c.rests) 0xFFFF

/-- POWER_REQUEST: a changed sum is requested, unless a request still waits for its grant or has fallen in this SCLK (R43, R68).
Only a sum that differs from the one last sent is requested: where it changed and came back while a request waited, the spec
does not say whether a request follows, and none does (DESIGN CHOICE, notes/assumptions/83). -/
def execPowerRequest (s : State) : Host.Outcome State Fault Refusal :=
  onRun s fun _ c =>
    if c.pwr.reqValid ∨ c.powerSum = c.pwr.sumSent ∨ c.pwr.fellAt.any (fun t => t / 48 == c.now / 48) then c
    else { c with pwr := { c.pwr with reqValid := true, sumSent := c.powerSum,
                                      status := setFld c.pwr.status 32 16 c.powerSum } }

/-- GRANT: the budget takes force in the next SCLK, in which PW_REQ_VALID falls (R43, R69). Before RUN it is ignored
(R60). -/
def execPowerGrant (amps : Nat) (s : State) : Host.Outcome State Fault Refusal :=
  onRun s fun _ c =>
    { c with pwr := { c.pwr with grantNext := some (amps % 2 ^ 16, c.nextSclk),
                                 reqDropAt := if c.pwr.reqValid then some c.nextSclk else c.pwr.reqDropAt } }

/-- What an SCLK edge does at the power port (R43, R69). -/
def Core.sclkEdge (c : Core) : Core :=
  let c1 := match c.pwr.grantNext with
    | some g =>
      if g.2 ≤ c.now then
        { c with pwr := { c.pwr with grantNext := none, status := setFld c.pwr.status 48 16 g.1 } }
      else c
    | none => c
  match c1.pwr.reqDropAt with
  | some t =>
    if t ≤ c1.now then { c1 with pwr := { c1.pwr with reqValid := false, reqDropAt := none, fellAt := some c1.now } } else c1
  | none => c1

/-- The level of PW_THROTTLE, as throttle_now shows it (Table 02-10). -/
def Core.throttleLevel (c : Core) (b : Bool) : Core := { c with pwr := { c.pwr with status := setBit c.pwr.status 5 b } }

/-- The start granted in the present ECLK is withdrawn and waits again (R69); where its run has stopped meanwhile, its record is
withdrawn (R170). -/
def Core.ungrant (c : Core) : Core :=
  match c.pwr.granted with
  | none => c
  | some w =>
    let c1 := { c with pwr := { c.pwr with granted := none, waits := c.pwr.waits ++ [w], startsUsed := c.pwr.startsUsed - 1 } }
    let c2 := match w.kind with
      | .enable => c1
      | .beat => c1.setPort w.port { c1.port w.port with waiting := true }
    (c2.withdrawStarts c2.stoppingRef).settleStopping

/-- A set flag of SZ_PWR_STATUS (Table 02-10). -/
def Core.setPwr (c : Core) (bit : Nat) : Core :=
  { c with pwr := { c.pwr with status := setBit c.pwr.status bit true } }.mark 0x10038 bit

/-- PW_THROTTLE rises (R62, R69): the level, the count, the flag and a CLOCK record, and the grant of this ECLK is withdrawn. -/
def Core.throttleRise (c : Core) : Core :=
  let c1 := c.throttleLevel true
  (({ c1 with pwr := { c1.pwr with status := satAdd c1.pwr.status 16 16 1 } }.setPwr 3).logClock 3).ungrant

/-- THROTTLE_RISE (R62): every rising edge; while PORST_N holds everything cleared (R56) only the level of the pin changes. -/
def execThrottleRise (s : State) : Host.Outcome State Fault Refusal :=
  s.put (if s.sys.porst then s.core.throttleLevel true else s.core.throttleRise)

/-- THROTTLE_FALL: in RUN, starts resume in the next window (R69). -/
def execThrottleFall (s : State) : Host.Outcome State Fault Refusal :=
  let c := s.core.throttleLevel false
  if s.sys.phase = .run ∧ bitAt s.core.pwr.status 5 = true then
    s.put { c with pwr := { c.pwr with resumeAt := some (c.rampIndex + 1) } }
  else s.put c

/-! The ramp governor -/

/-- RAMP_WINDOW: a window opens and its allowance is whole again (R64). -/
def execRampWindow (s : State) : Host.Outcome State Fault Refusal :=
  onRun s fun _ c =>
    if c.pwr.windowAt = some c.rampIndex then c
    else { c with pwr := { c.pwr with windowAt := some c.rampIndex, startsUsed := 0 } }

/-- Starts granted in the present window (R64). -/
def Core.startsUsed (c : Core) : Nat := if c.pwr.windowAt = some c.rampIndex then c.pwr.startsUsed else 0

/-- A write of SZ_RAMP_CTRL (R66). The starts already granted in the open window count in the window of the new length that is open
then: only the opening of a window renews the allowance (R64). -/
def Core.rampWrite (c : Core) (v : W64) : Option Core :=
  let win := fld v 16 11
  let st := fld v 0 7
  if c.otherOpen || !c.noRuns 0 || win == 0 || decide (1024 < win) || st == 0 || decide (64 < st)
      || decide (3 * win < st) then none
  else
    let c1 := { c with pwr := { c.pwr with ramp := v &&& fields [(63, 40), (26, 16), (6, 0)] } }
    some { c1 with pwr := { c1.pwr with windowAt := if c.pwr.windowAt = some c.rampIndex then some c1.rampIndex else none } }

/-- RAMP_CTRL (R66). -/
def execRampCtrl (v : W64) (acc : Access) (s : State) : Host.Outcome State Fault Refusal :=
  onWrite s 0x10030 v acc fun _ c => c.rampWrite v

/-! Progress -/

/-- Whether queue n has work (R330); a queue whose reply or mirror word waits for a stash entry is held as R76 has it (R335). -/
def Core.queueHasWork (c : Core) (n : Nat) : Bool :=
  let q := c.queue n
  let x := c.ctx n
  q.fetch != .off && q.fetch != .halted && x.st != .stopped && x.st != .halted
    && (diff32 q.tail q.head != 0 || !q.buf.isEmpty || q.cur != .none || !c.noRuns n || c.stashHolds n)

/-- A queue is reported as stalled (R331). -/
def Core.tellStall (c : Core) (n : Nat) : Core :=
  (({ c with watch := { c.watch with stall := setBit c.watch.stall n true, ctrl := satAdd c.watch.ctrl 48 16 1 } }).mark
    0x2400010 n).logStall n 1

/-- The end of a watch period for one queue (R331): a queue is reported once per episode, and the end of a reported one once. -/
def Core.watchQueue (c : Core) (n : Nat) : Core :=
  let x := c.ctx n
  let work := c.queueHasWork n
  let run := if work && !x.progressed then min (x.stallRun + 1) 255 else 0
  let most := fld c.watch.ctrl 16 8
  let told := run != 0 && (x.stallTold || decide (most ≤ run))
  let c1 := c.setCtx n { x with hasWork := work, progressed := false, stallRun := run, stallTold := told }
  if told && !x.stallTold then c1.tellStall n
  else if x.stallTold && run == 0 then c1.logStall n 2
  else c1

/-- The length of a watch period in RCLK (R331). -/
def Core.watchTime (c : Core) : Nat := fld c.watch.ctrl 0 16 * 100000 * 48

/-- WATCH_PERIOD_END (R331): the next period follows without gap. -/
def execWatchPeriodEnd (s : State) : Host.Outcome State Fault Refusal :=
  onRun s fun _ c =>
    if c.now < c.watch.endAt then c
    else
      let c1 := (List.range 64).foldl (fun d n => d.watchQueue n) c
      { c1 with watch := { c1.watch with endAt := c.watch.endAt + c1.watchTime } }

/-- A write of SZ_WATCH_CTRL (R340): a zero field stays as it was, and the write is recorded. -/
def Core.watchWrite (c : Core) (off : Nat) (v : W64) (acc : Access) : Core :=
  let keepMs := fld v 0 16 == 0
  let keepPer := fld v 16 8 == 0
  let m := fields ([(24, 24)] ++ (if keepPer then [] else [(23, 16)]) ++ (if keepMs then [] else [(15, 0)]))
  let c1 := { c with watch := { c.watch with ctrl := writeFields m 0 c.watch.ctrl v } }
  if keepMs || keepPer then c1.logAccess 3 off acc.priv true v else c1

/-- WATCH_CTRL (R340). -/
def execWatchCtrl (v : W64) (acc : Access) (s : State) : Host.Outcome State Fault Refusal :=
  onWrite s 0x2400018 v acc fun _ c => some (c.watchWrite 0x2400018 v acc)

/-- A write of rd of SZ_EVT_PTRS (R340). -/
def Core.evtPtrsWrite (c : Core) (v : W64) : Option Core :=
  let new := fld v 0 32
  if diff32 new c.evt.rd ≤ diff32 c.evt.wr c.evt.rd then some { c with evt := { c.evt with rd := new } } else none

/-- EVT_PTRS (R340). -/
def execEvtPtrs (v : W64) (acc : Access) (s : State) : Host.Outcome State Fault Refusal :=
  onWrite s 0x2400000 v acc fun _ c => c.evtPtrsWrite v

end Sys2Proof.Machine
end

