-- ==== Sys2Proof/Machine/Skein.lean ====
section
/-! DEFINITION. Loading, unloading and patching skeins, and their pages (05 R125 to R134, 06 R161, R162): the checks of an
image, the encrypted spill, residency and refill. -/

namespace Sys2Proof.Machine

/-! Scanning an image (R126) -/

/-- The kinds of the continuation records that a head claims, in order (R126); a NEST record carries its part. -/
def hWants (h : Rec256) : List (Nat × Nat) :=
  (if hHasWait h then [(4, 0)] else []) ++ (List.range (min (hNNest h) 2)).map (fun p => (1, p))
    ++ List.replicate (min (hNConst h) 2) (2, 0) ++ (if hHasAction h then [(5, 0)] else [])
    ++ (if hHasEnq h then [(6, 0)] else [])

/-- Whether the records after a head are the ones it claims. -/
def claimsOk (recs : List Rec256) (i : Nat) (wants : List (Nat × Nat)) : Bool :=
  wants.zipIdx.all fun w =>
    match recs[i + 1 + w.2]? with
    | none => false
    | some r => hKind r == w.1.1 && (w.1.1 != 1 || rf r 0 3 1 == w.1.2)

/-- The heads of an image, each with whether its claims hold, and the records that stand where no head claims them and
are not of kind EDGE. -/
def scanImage (recs : List Rec256) : Nat → Nat → List (Nat × Bool) × List Nat
  | 0, _ => ([], [])
  | n + 1, i =>
    match recs[i]? with
    | none => ([], [])
    | some r =>
      if hKind r = 0 then
        let ok := claimsOk recs i (hWants r)
        let rest := scanImage recs n (if ok then i + 1 + (hWants r).length else i + 1)
        ((i, ok) :: rest.1, rest.2)
      else if hKind r = 3 then scanImage recs n (i + 1)
      else
        let rest := scanImage recs n (i + 1)
        (rest.1, i :: rest.2)

/-! The checks of Table 05-10 -/

/-- An image under check, as a skein whose fields the header gives, with its heads. -/
structure Image where
  skein : Skein
  heads : List (Nat × Bool)
  stray : List Nat
  deriving DecidableEq, Repr

/-- The head record of a node. -/
def Image.headRec (m : Image) (i : Nat) : Rec256 := m.skein.record i

/-- Whether a node is a head that is not a template. -/
def Image.live (m : Image) (i : Nat) : Bool := (m.heads.any fun h => h.1 == i) && !hDormant (m.headRec i)

/-- Whether a head's successor list lies within the image, on EDGE records. -/
def Image.listOk (m : Image) (i : Nat) : Bool :=
  let h := m.headRec i
  let k := ceilDiv (hEdgeCount h) 12
  hEdgeCount h == 0
    || (decide (hEdgeFirst h + k ≤ m.skein.recs.length)
        && (List.range k).all fun j => hKind (m.headRec (hEdgeFirst h + j)) == 3)

/-- The nodes that a head's successor list names. -/
def Image.succs (m : Image) (i : Nat) : List Nat :=
  if m.listOk i then (List.range (hEdgeCount (m.headRec i))).map fun j => (m.skein.edge (hEdgeFirst (m.headRec i)) j).1 else []

/-- Entries of the successor lists of all non-dormant heads that name a node (R130). -/
def Image.named (m : Image) (i : Nat) : Nat :=
  sumBy (fun h => if m.live h.1 then (m.succs h.1).count i else 0) m.heads

/-- One round of topological removal: the live heads all of whose predecessors have been freed. -/
def Image.freeStep (m : Image) (freed : List Nat) : List Nat :=
  (m.heads.map Prod.fst).filter fun i =>
    m.live i && m.heads.all fun h => !m.live h.1 || freed.contains h.1 || !(m.succs h.1).contains i

/-- The live heads that topological removal frees. -/
def Image.freed (m : Image) : Nat → List Nat
  | 0 => []
  | n + 1 => m.freeStep (Image.freed m n)

/-- Reserved bits of a record, each range as (word, lowest bit, length). -/
def reservedZero (r : Rec256) (l : List (Nat × Nat × Nat)) : Bool := l.all fun x => rf r x.1 x.2.1 x.2.2 == 0

/-- The second row of Table 05-10 for one continuation record: reserved bits zero, counts and choices in range. -/
def contOk (r : Rec256) : Bool :=
  match hKind r with
  | 1 =>
    if rf r 0 3 1 = 0 then
      reservedZero r [(0, 62, 2), (1, 0, 20), (3, 0, 64)]
        && (List.range 4).all fun l => decide (l ≤ rf r 0 4 2) || rf r 0 (6 + 14 * l) 14 == 0
    else reservedZero r [(0, 4, 16), (2, 0, 20)]
  | 2 => reservedZero r [(0, 8, 56)] && decide (1 ≤ rf r 0 3 5) && decide (rf r 0 3 5 ≤ 24)
  | 4 => reservedZero r [(0, 48, 12), (0, 3, 21), (1, 48, 8), (1, 0, 3), (3, 0, 64)] && rf r 0 62 2 != 3
           && decide (rf r 0 60 2 ≤ 1)
  | 5 =>
    reservedZero r [(0, 32, 12), (0, 3, 5), (3, 0, 64)] && decide (1 ≤ rf r 0 60 4) && decide (rf r 0 60 4 ≤ 6)
      && (if rf r 0 60 4 = 1 then reservedZero r [(1, 48, 16), (1, 0, 3)]
          else if rf r 0 60 4 = 2 then reservedZero r [(1, 48, 8), (1, 0, 3)]
          else rf r 1 0 64 == 0)
  | _ => reservedZero r [(0, 3, 9), (1, 0, 64), (2, 0, 64), (3, 0, 64)]

/-- The handle-list positions that a continuation record names. -/
def contHidx (r : Rec256) : List Nat :=
  match hKind r with
  | 1 => if rf r 0 3 1 = 0 then [rf r 1 56 8] else [rf r 0 56 8, rf r 2 56 8]
  | 4 => if rf r 0 62 2 = 1 then [rf r 1 56 8] else []
  | 5 => if rf r 0 60 4 = 2 then [rf r 1 56 8] else []
  | 6 => [rf r 0 56 8]
  | _ => []

/-- The signal word that a continuation record names on this chip. -/
def contSig (r : Rec256) : Option Nat :=
  match hKind r with
  | 4 => if rf r 0 62 2 = 0 then some (rf r 0 24 12) else none
  | 5 => if rf r 0 60 4 = 3 then some (rf r 0 8 12) else none
  | _ => none

/-- Whether a PEER_WRITE address lies in the peer window of a context (Table 05-18). -/
def Core.peerOk (c : Core) (n : Nat) (r : Rec256) : Bool :=
  if hKind r = 5 ∧ rf r 0 60 4 = 1 then
    let w := (c.ctx n).peer
    let a := rf r 1 3 45 * 8
    let base := fld w 0 36 * 4096
    decide (base ≤ a) && decide (a + 8 ≤ base + fld w 36 24 * 4096)
  else true

/-- The delay list that a head would take an entry of (R157). -/
def Core.listOf (c : Core) (h : Rec256) : Option Nat :=
  if hStartOff h = 0 ∨ hDormant h then none
  else if hFixed h then some 0
  else some (max 1 (fld c.graph.dlyCtrl (32 + 2 * hPrio h) 2))

/-- How many heads before a node take an entry of a delay list (R161). -/
def Core.listBefore (c : Core) (m : Image) (i l : Nat) : Nat :=
  (m.heads.filter fun h => decide (h.1 < i) && c.listOf (m.headRec h.1) == some l).length

/-- A verdict that names a node (Table 03-4, R131). -/
def vNode (st : Status) (i : Nat) : Verdict := { status := st, detail := 0xF00000 + i % 2 ^ 20 }

/-- The first check that fails, with its verdict. -/
def firstFail : List (Bool × Verdict) → Option Verdict
  | [] => none
  | (ok, v) :: r => if ok then firstFail r else some v

/-- The rows of Table 05-10 on a head, in their order, with those of R161 and R162. -/
def Core.headChecks (c : Core) (n : Nat) (m : Image) (freed : List Nat) (i : Nat) (claims : Bool) : Option Verdict :=
  let h := m.headRec i
  let conts := (List.range (hWants h).length).map fun j => m.headRec (i + 1 + j)
  let x := c.ctx n
  let bad := vNode .badParam i
  let group := decide (hPortBase h ≤ hPortLast h) && hPortBase h / 64 == hPortLast h / 64
  let absent := (hPorts h).find? fun e => !c.present e
  let worst := m.heads.find? fun q => m.live q.1 && !freed.contains q.1
  let lists := match c.listOf h with | some l => decide (c.listBefore m i l < 65536) | none => true
  firstFail
    ([(claims, bad),
      (reservedZero h [(1, 0, 2), (2, 0, 8), (3, 0, 12)] && hMode h != 3 && hNNest h != 3 && hNConst h != 3
        && conts.all contOk && !(hDormant h && hStartOff h != 0), bad),
      (lists, vNode .limitExceeded i), (group, bad),
      (decide (hPortLast h < c.cfg.enginePorts), vNode .limitExceeded i),
      (absent.isNone, { status := .engineAbsent, detail := absent.getD 0 }),
      (x.spindleMask.testBit (hPortBase h / 64), vNode .isolation i),
      (decide (x.prioCeiling ≤ hPrio h), vNode .limitExceeded i)]
     ++
     [((hProgHidx h :: conts.flatMap contHidx).all (fun j => decide (j < m.skein.handles.length)), bad),
      (m.listOk i && (m.succs i).all m.live, bad),
      (hDormant h || hDepInit h == m.named i, bad),
      ((worst.map Prod.fst) != some i, bad),
      (!hFixed h || hDormant h || hBudget h != 0, bad),
      (decide (tripProduct (m.skein.trips i) < 2 ^ 32), vNode .limitExceeded i),
      ((conts.filterMap contSig).all (c.sigIn n) && (!hFlowEn h || decide (hFlow h < fld x.flowrange 16 17)), bad),
      (conts.all (c.peerOk n), bad),
      (!hDormant h || (hDepInit h == 0 && hEdgeCount h == 0 && !hFixed h
          && !(hHasWait h && rf (m.skein.waitRec i) 0 62 2 == 1) && m.named i == 0), bad)])

/-- The check of one node of an image (R131). -/
def Core.nodeCheck (c : Core) (n : Nat) (m : Image) (freed : List Nat) (i : Nat) : Option Verdict :=
  match m.heads.find? fun h => h.1 == i with
  | some h => c.headChecks n m freed i h.2
  | none =>
    if m.stray.contains i || (hKind (m.headRec i) == 3 && rb (m.headRec i) 3 63) then some (vNode .badParam i) else none

/-- The checks of every node, in ascending order (R77, R131). -/
def Core.imageCheck (c : Core) (n : Nat) (m : Image) : Option Verdict :=
  let freed := m.freed m.heads.length
  (List.range m.skein.recs.length).findSome? (c.nodeCheck n m freed)

/-! Pages (R132 to R134) -/

/-- Pages of the records of a skein. -/
def Skein.pages (k : Skein) : Nat := ceilDiv k.nodeCount 128

/-- Pages of the store that a skein takes: those resident and that of its parameter registers, or those it reserves. -/
def Skein.pagesHeld (k : Skein) : Nat := max (k.resident.length + b2n k.hasReplay) k.reserved

/-- Pages of the store that are in use or reserved. -/
def Core.pagesUsed (c : Core) : Nat :=
  sumBy (·.pagesHeld) c.graph.skeins + ceilDiv c.dynRecords 128

/-- Pages of the store that are free. -/
def Core.pageRoom (c : Core) : Nat := c.cfg.storePages - c.graph.badPages - c.pagesUsed

/-- Whether a task may need its records (R134). -/
def Task.needsPages (t : Task) : Bool :=
  t.kind == .static && ((t.st == .waiting && t.ctr == 0) || t.st == .ready || t.st == .issued || t.st == .running)

/-- The first task of an unfinished run that needs a page of its skein. -/
def Core.pageNeeder (c : Core) (k : Skein) (page : Nat) : Option TaskRef :=
  match c.runOfSkein k.ctx k.id with
  | none => none
  | some r =>
    (r.tasks.find? fun t => t.needsPages && (k.needs t.node).any fun i => i / 128 == page).map r.ref

/-- The unreserved page to discard: the highest page number among those that no task needs (R134). -/
def Core.victim (c : Core) : Option (Nat × Nat × Nat) :=
  let all := c.graph.skeins.flatMap fun k =>
    if k.reserved < k.resident.length + b2n k.hasReplay then
      (k.resident.filter fun p => (c.pageNeeder k p).isNone).map fun p => (p, k.ctx, k.id)
    else []
  all.foldl (fun a x =>
    match a with
    | none => some x
    | some y => if y.1 < x.1 then some x else a) none

/-- Pages are discarded until the store holds no more than it has. -/
def Core.evict : Nat → Core → Core
  | 0, c => c
  | n + 1, c =>
    if c.pagesUsed + c.graph.badPages ≤ c.cfg.storePages then c
    else
      match c.victim with
      | none => c
      | some v =>
        Core.evict n { c with graph := { c.graph with skeins := c.graph.skeins.map fun k =>
          if k.ctx = v.2.1 ∧ k.id = v.2.2 then { k with resident := k.resident.filter fun p => p != v.1 } else k } }

/-! The spill (R132, R363) -/

/-- The label of the load key, as bytes. -/
def spillLabel : List Byte := [0x53, 0x5A, 0x2D, 0x53, 0x50, 0x49, 0x4C, 0x4C]

/-- The load key of a skein (R363). -/
def loadKey (keys : Keys) (salt : List Byte) : List W32 := Config.kdf keys.devKey (spillLabel ++ salt)

/-- The IV of a page (R363). -/
def pageIv (page : Nat) : List Byte := natBytes 4 0 ++ natBytes 8 page

/-- The additional authenticated data of a page (R363). -/
def pageAad (ctx id page : Nat) : List Byte :=
  natBytes 8 page ++ natBytes 2 (id % 1024) ++ natBytes 1 (ctx % 64) ++ natBytes 5 0

/-- A tag of 16 bytes. -/
def tag16 (t : List Byte) : List Byte := (t ++ natBytes 16 0).take 16

/-- AES-256-GCM of a text: what is added to each byte (R362, R363). -/
def gcmText (key : List W32) (iv : List Byte) (bs : List Byte) : List Byte :=
  bs.zipIdx.map fun b => b.1 ^^^ Config.gcmStream key iv b.2

/-- The plaintext of a page: its records, and zeros after the last. -/
def Skein.pageText (k : Skein) (page : Nat) : List Byte :=
  (List.range 128).flatMap fun i => natBytes 32 (k.record (128 * page + i)).toNat

/-- A spilled page with its trailer: 4160 bytes (R132, R363). -/
def Skein.spillPage (k : Skein) (keys : Keys) (page : Nat) : List Byte :=
  let key := loadKey keys k.salt
  let ct := gcmText key (pageIv page) (k.pageText page)
  ct ++ pageIv page ++ tag16 (Config.gcmTag key (pageIv page) (pageAad k.ctx k.id page) ct) ++ natBytes 36 0

/-- Whether a spilled page that was read back authenticates (R364): its tag under its IV, and that it is this page. -/
def Skein.pageAuthentic (k : Skein) (keys : Keys) (page : Nat) (bs : List Byte) : Bool :=
  let key := loadKey keys k.salt
  let iv := (bs.drop 4096).take 12
  let ct := bs.take 4096
  iv == pageIv page && (bs.drop 4108).take 16 == tag16 (Config.gcmTag key iv (pageAad k.ctx k.id page) ct)

/-- Whether Hedge performs no cryptographic operation (R369). -/
def Sys.hedgeDown (s : Sys) : Bool := s.hg == .error || s.hg == .dead

/-! SKEIN_LOAD -/

/-- The end of an image (R125): its records, and its replay program if it has one. -/
def imageEnd (h : List W64) (nodes : Nat) : Nat :=
  let recs := 64 + 64 * ceilDiv (fld (h.getD 1 0) 55 9) 16 + nodes * 32
  if bitAt (h.getD 2 0) 63 then
    max recs (fld (h.getD 2 0) 0 32 * 64 + (fld (h.getD 2 0) 32 16 + 1) * 32)
  else recs

/-- The header row of Table 05-10 (R131). -/
def headerCheck (h : List W64) (nodes : Nat) : Except Verdict Unit := do
  let w := fun i => h.getD i 0
  ensure (fld (w 0) 32 32 == 0x534B4E34 && decide (fld (w 1) 55 9 ≤ 256) && decide (fld (w 1) 44 11 ≤ 1024)
      && fld (w 1) 0 24 == 0 && fld (w 2) 52 11 == 0 && (h.drop 3).all (fun x => x == 0)) (vParam 2 2)
  ensure (fld (w 0) 0 32 == nodes) (vParam 3 2)

/-- The handles of a list, two to a word. -/
def handlesOf (ws : List W64) (n : Nat) : List Nat := (ws.flatMap fun w => [fld w 0 32, fld w 32 32]).take n

/-- The skein that an image describes. -/
def skeinOf (ctx id nodes base spillAt spillLen : Nat) (h : List W64) (ws : List W64) : Skein :=
  let w := fun i => h.getD i 0
  let nh := fld (w 1) 55 9
  { ctx := ctx, id := id, nodeCount := nodes, handles := handlesOf (ws.drop 8) nh, constLen := fld (w 1) 44 11,
    enqLimit := fld (w 1) 24 20, hasReplay := bitAt (w 2) 63, replayPrio := fld (w 2) 48 4,
    replaySteps := fld (w 2) 32 16, replayAt := base + fld (w 2) 0 32 * 64,
    recs := recsOf nodes (ws.drop (8 + 8 * ceilDiv nh 16)), resident := [], reserved := 0, noSpill := false,
    spillAt := spillAt, spillLen := spillLen, salt := [], params := [], figure := 0 }

/-- The ports that a skein uses, each once. -/
def Core.skeinPorts (c : Core) (m : Image) : List Nat :=
  (List.range c.cfg.enginePorts).filter fun e => m.heads.any fun h =>
    decide (hPortBase (m.headRec h.1) ≤ e) && decide (e ≤ hPortLast (m.headRec h.1))

/-- Steps 9 to 15 of SKEIN_LOAD. -/
def Core.skeinLoad (s : Sys) (c : Core) (n : Nat) (p : Packet) : Except Verdict CpRes := do
  let nodes := pf p 3 0 21
  let id := pf p 2 32 10
  step9 p (range 3 0 (decide (1 ≤ nodes) && decide (nodes ≤ 2 ^ 20)))
  let image ← c.handleParam n p 2 0 false 0
  let spill ← c.handleParam n p 3 32 true (ceilDiv nodes 128 * 4160)
  ensure (c.skein n id).isNone (vState 3)
  let h ← c.readFor 2 image.base 8
  extentCheck 2 image (imageEnd h nodes)
  headerCheck h nodes
  let ws ← c.readFor 2 image.base (8 + 8 * ceilDiv (fld (h.getD 1 0) 55 9) 16 + 4 * nodes)
  let k := skeinOf n id nodes image.base spill.base spill.size h ws
  let sc := scanImage k.recs nodes 0
  let m : Image := { skein := k, heads := sc.1, stray := sc.2 }
  match c.imageCheck n m with
  | some v => .error v
  | none => .ok ()
  let noSpill := pkExp p && pb p 4 32
  let least := if pkExp p then min (pf p 4 0 21) nodes else min nodes 128
  let reserved := (if noSpill then k.pages else ceilDiv least 128) + b2n k.hasReplay
  ensure (decide (reserved ≤ c.pageFree) && decide (nodes ≤ c.stateFree)) (vFull 1)
  ensure (!s.hedgeDown) { status := .authFail, detail := 0x0B }
  let drawn := c.drawBytes 16
  let ports := c.skeinPorts m
  let room := drawn.2.pageRoom - b2n k.hasReplay
  let k1 := { k with reserved := reserved, noSpill := noSpill, salt := drawn.1,
                     resident := List.range (min k.pages (max (reserved - b2n k.hasReplay) room)),
                     figure := ports.length * fld c.pwr.ramp 48 8 }
  drawn.2.writeThen 3 k.spillAt ((List.range k.pages).flatMap fun g => k1.spillPage s.keys g) fun c1 =>
    let c2 := { c1 with graph := { c1.graph with skeins := c1.graph.skeins ++ [k1] } }
    let c3 := Core.evict c2.cfg.storePages c2
    .ok (.done vOk (ports.foldl (fun d e => d.requestEnable e) c3))

/-- SKEIN_LOAD (R132). -/
def execSkeinLoad (s : State) : Host.Outcome State Fault Refusal :=
  onCommand s 0x10 fun sys c n p => c.skeinLoad sys n p

/-! SKEIN_UNLOAD and SKEIN_PATCH -/

/-- Whether an open receive end names a skein for its handlers (R234). -/
def Core.skeinRead (c : Core) (n id : Nat) : Bool :=
  c.chans.any fun h => match h.2.rx with | some r => r.ctx == n && r.skein == id | none => false

/-- Steps 9 to 15 of SKEIN_UNLOAD. -/
def Core.skeinUnload (c : Core) (n : Nat) (p : Packet) : Except Verdict CpRes := do
  step9 p []
  let id := pf p 2 32 10
  ensure (c.skein n id).isSome (vState 4)
  ensure (c.skeinIdle n id && !c.skeinRead n id) (vState 5)
  return .done vOk { c with graph := { c.graph with skeins := c.graph.skeins.filter fun k => !(k.ctx == n && k.id == id) } }

/-- SKEIN_UNLOAD (R133). -/
def execSkeinUnload (s : State) : Host.Outcome State Fault Refusal :=
  onCommand s 0x11 fun _ c n p => c.skeinUnload n p

/-- Steps 9 to 15 of SKEIN_PATCH. -/
def Core.skeinPatch (c : Core) (n : Nat) (p : Packet) : Except Verdict CpRes := do
  let first := pf p 3 0 8
  let cnt := pkLen p - 4
  step9 p (range 3 0 (decide (first + cnt ≤ 256)))
  match c.skein n (pf p 2 32 10) with
  | none => .error (vState 4)
  | some k =>
    ensure (c.skeinIdle n k.id) (vState 5)
    ensure k.hasReplay (vParam 2 2)
    let params := (List.range cnt).foldl (fun a i => aset a (first + i) (pw p (4 + i))) k.params
    return .done vOk { c with graph := { c.graph with skeins := c.graph.skeins.map fun q =>
      if q.ctx = n ∧ q.id = k.id then { q with params := params } else q } }

/-- SKEIN_PATCH (R87). -/
def execSkeinPatch (s : State) : Host.Outcome State Fault Refusal :=
  onCommand s 0x12 fun _ c n p => c.skeinPatch n p

/-! PAGE_REFILL -/

/-- The task that needed a page faults, if there is one. -/
def Core.faultNeeder (c : Core) (k : Skein) (page : Nat) (st : Status) (reason : Nat) : Core :=
  match c.pageNeeder k page with
  | none => c
  | some t => c.faultPlain t st reason

/-- A page of a running skein is refilled or prefetched (R134, R364, R369). -/
def Core.pageRefill (s : Sys) (c : Core) (ctx id page : Nat) : Core :=
  match c.skein ctx id, c.runOfSkein ctx id with
  | some k, some r =>
    if k.pages ≤ page ∨ k.resident.contains page then c
    else if s.hedgeDown then c.faultNeeder k page .authFail 1
    else
      match c.readBytes (k.spillAt + 4160 * page) 4160 with
      | .error e => if e = heldCode then c else c.faultNeeder k page .faulted e
      | .ok bs =>
        if k.pageAuthentic s.keys page bs then
          let c1 := { c with graph := { c.graph with skeins := c.graph.skeins.map fun q =>
            if q.ctx = ctx ∧ q.id = id then { q with resident := insertBy (fun a b => decide (a < b)) page q.resident }
            else q } }
          let c2 := Core.evict 1 c1
          (if c2.pagesUsed + c2.graph.badPages ≤ c2.cfg.storePages then c2 else c).activateRun r
        else ((c.setHedge 1).logHedge 6 Status.authFail.code 0 ctx).faultNeeder k page .authFail 1
  | _, _ => c

/-- PAGE_REFILL (R134). -/
def execPageRefill (ctx skein page : Nat) (s : State) : Host.Outcome State Fault Refusal :=
  onRun s fun sys c => c.pageRefill sys ctx skein page

end Sys2Proof.Machine
end

