-- ==== Sys2Proof/Machine/Complete.lean ====
section
/-! DEFINITION. Completions (05 R141 to R146): what a completion starts before it is taken (R189, R243, R259, R346), the ENQ
and ACTION steps, edges (R130, R137), and the writes and reads that waits look at (R138, R139). -/

namespace Sys2Proof.Machine

/-! What a completion waits for -/

/-- Whether a run of a step has begun or waits to begin, and has not ended. -/
def Moe.under (m : Moe) (ref : TaskRef) : Bool :=
  match m.work with
  | some w => w.task == ref && m.st != .routed && m.st != .abandoned
  | none => false

/-- Whether a collective has begun or waits to begin, and has not ended. -/
def CollRun.under (x : CollRun) (ref : TaskRef) : Bool :=
  match x.work with
  | some w => w.task == ref && x.st != .done && x.st != .abandoned
  | none => false

/-- Whether a channel still has a slot or a record of a task to deal with. -/
def ChanTx.under (t : ChanTx) (ref : TaskRef) : Bool :=
  (t.slots.any fun s => s.2 == ref) || (t.waiting.any fun w => w.task == ref) || t.sent.any fun s => s.2.task == ref

/-- Whether something that a completion waits for has not ended (R189, R243, R259). -/
def Core.deferralOpen (c : Core) (ref : TaskRef) : Bool :=
  (c.moe.tables.any fun m => m.2.under ref)
    || ((List.range 64).any fun k => (c.collRun ref.ctx k).under ref)
    || c.chans.any fun h => match h.2.tx with | some t => t.under ref | none => false

/-- A deferred completion is due again in the next DCLK once all it waits for has ended (R189, R243, R259); a cut holds it
on (R346). -/
def Core.undefer (c : Core) (ref : TaskRef) : Core :=
  match c.compOf ref, c.findRun ref.ctx ref.tag with
  | some k, some r =>
    if k.stage = .deferred ∧ !c.deferralOpen ref ∧ r.cutAt ≠ some ref.node then
      c.setComp { k with stage := .due, d := c.dclk + 1, since := c.dclk + 1 }
    else c
  | _, _ => c

/-- Tables whose route node a completing task is, with no step in this run yet (R189). -/
def Core.stepsFor (c : Core) (r : Run) (t : Task) : List Nat :=
  if t.kind ≠ .static then []
  else
    (c.routedBy r.ctx r.skein).filter fun i =>
      let m := c.table i
      (match m.tab with | some x => x.routeNode == t.node | none => false) && m.st == .idle && m.work.isNone

/-- Slots that a completing static task triggers (R259). -/
def Core.collsFor (c : Core) (r : Run) (t : Task) : List Nat :=
  if t.kind ≠ .static then []
  else
    (c.slotsOf r.ctx r.skein).filter fun k =>
      fld (c.slotWord r.ctx k 0) 12 20 == t.node && (c.collRun r.ctx k).st == .idle && (c.collRun r.ctx k).work.isNone

/-- Channels that a completing static task sends on (R242). -/
def Run.sendsFor (r : Run) (t : Task) : List Nat :=
  if t.kind ≠ .static then []
  else (r.binds.filter fun b => decide (b.first ≤ t.node) && decide (t.node ≤ b.last)).map (·.chan)

/-- Whether a channel is still open in send role in a context. -/
def Core.sendOpen (c : Core) (ctx n : Nat) : Bool :=
  match (c.chan n).tx with
  | some t => t.ctx == ctx
  | none => false

/-- The working data with which a step waits to enter LOCAL. -/
def StepWork.fresh (ref : TaskRef) (d : Nat) : StepWork :=
  { task := ref, d := d, entered := d, sels := [], nan := 0, renormBad := 0, slotBad := 0, exited := 0, live := [], gone := [],
    ready := false, vec := [], totals := [], below := [], block := none, lists := [], sinceAt := d }

/-- The working data with which a collective waits to start. -/
def CollWork.fresh (ref : TaskRef) (d : Nat) : CollWork :=
  { task := ref, d := d, absent := false, len := 0, oob := 0, flags := 0, empties := 0, collide := 0, status := false, own := [], endedAt := none }

/-- A completion starts its steps, collectives and sends; `d` is the DCLK of R142. -/
def Core.startDeferrals (c : Core) (ref : TaskRef) (d : Nat) (steps colls sends : List Nat) : Core :=
  let c1 := steps.foldl (fun e i => e.setTable i { e.table i with work := some (StepWork.fresh ref d) }) c
  let c2 := colls.foldl (fun e k =>
    e.setCollRun ref.ctx k { e.collRun ref.ctx k with work := some (CollWork.fresh ref d) }) c1
  sends.foldl (fun e n =>
    let h := e.chan n
    e.setChan n { h with tx := h.tx.map fun t => { t with slots := insertBy (fun a b => keysLt [a.1, a.2.node] [b.1, b.2.node]) (d, ref) t.slots } }) c2

/-- The target ordinal of a context while a clip cuts (R345, R346). -/
def Core.clipTarget (c : Core) (n : Nat) : Option Nat :=
  match c.clip.run with
  | some q => if q.phase = .cutting then aget q.targets n else none
  | none => none

/-- The cut ordinal of a node, 0 for a node that is no cut node (R341). -/
def Core.ordinal (c : Core) (n skein node : Nat) : Nat :=
  match (c.cutNodes n skein).findIdx? fun i => i == node with
  | some i => i + 1
  | none => 0

/-! Taking a completion -/

/-- What an exit point reports of its sequence (R210). -/
def Core.exitReport (c : Core) (r : Run) (t : Task) (h : Rec256) : Core × Bool :=
  if !hExit h || hExpertEn h then (c, false)
  else
    let m := c.table (hTable h)
    let s := hExpert h
    match m.tab with
    | none => (c.moeUnbound (hTable h) r.ctx (w64 t.node), false)
    | some x =>
      if x.ctx = r.ctx ∧ m.st = .routed ∧ m.stepOf r then
        (c, decide (s < x.nSeq) && (match m.hist with | b :: _ => b.slots[s]? == some 0 | [] => false))
      else (c.moeUnbound (hTable h) r.ctx (w64 t.node), false)

/-- A completion is taken (R142): its cut ordinal counts as passed (R341), its exit is reported (R210), and its first
step follows; an enqueue area is read, and cannot be applied before the next DCLK. -/
def Core.takeComp (c : Core) (k : Comp) (r : Run) (t : Task) (h : Rec256) : Core :=
  let o := if t.kind = .static then c.ordinal r.ctx r.skein t.node else 0
  let c1 := if o = 0 then c else c.setRun { r with passed := (o, c.dclk) :: r.passed }
  let e := c1.exitReport r t h
  e.1.setComp { k with exited := e.2, stage := if hHasEnq h then .enq else .action,
                       since := c.dclk + 1 }

/-- A completion that is due: what it starts first, a cut that holds it, or it is taken. -/
def Core.dueComp (c : Core) (k : Comp) (r : Run) (t : Task) (h : Rec256) : Core :=
  let steps := if k.matched then [] else c.stepsFor r t
  let colls := if k.matched then [] else c.collsFor r t
  let sends := if k.matched then [] else r.sendsFor t
  let waits := !(steps.isEmpty && colls.isEmpty && sends.isEmpty)
  if r.stopping then
    -- a completion that would have to wait for something of a stopping run is not run
    if waits then (c.dropComp k.task).settle r.ctx r.tag else c.takeComp k r t h
  else if sends.any fun n => !c.sendOpen r.ctx n then c.faultPlain k.task .refusedClosed 4
  else if waits then
    (c.setComp { k with stage := .deferred, matched := true }).startDeferrals k.task k.d steps colls sends
  else if t.kind = .static ∧ c.clipTarget r.ctx = some (c.ordinal r.ctx r.skein t.node)
      ∧ c.ordinal r.ctx r.skein t.node ≠ 0 then
    (c.setRun { r with cutAt := some t.node }).setComp { k with stage := .deferred, matched := true }
  else c.takeComp k r t h

/-! ACTION (R142, R143, R218, R312) -/

/-- Step 3 of a completion begins in the next DCLK. -/
def Core.toEdges (c : Core) (k : Comp) : Core := c.setComp { k with stage := .edges, since := c.dclk + 1 }

/-- An action goes to the stash, and its task with it while the stash is full (R333, R335). -/
def Core.stashAction (c : Core) (k : Comp) (source : Nat) (st : Status) (reason : Nat) (target value : W64) : Core :=
  let x := c.stashPut { tag := k.task.tag, status := st, reason := reason, source := source, ctx := k.task.ctx,
                        target := target, value := value } (.task k.task)
  if x.2 then x.1.toEdges k else x.1.setComp { k with stage := .stash }

/-- A SYNC_ADD or SYNC_SIGNAL action (R218, R220). -/
def Core.syncAction (c : Core) (k : Comp) (op : SyncOp) (source vid : Nat) (v : W64) : Core :=
  match c.syncLookup k.task.ctx vid with
  | .error e =>
    if e = heldCode then c.setComp { k with since := c.dclk + 1 } else c.stashAction k source .faulted e (w64 vid) v
  | .ok none => c.stashAction k source .badHandle 1 (w64 vid) v
  | .ok (some o) =>
    if op.fits o.token false then (c.syncUpdate o 2 op v).toEdges k
    else c.stashAction k source .badParam 4 (w64 vid) v

/-- A SIG_ADD_REMOTE action (R312). -/
def Core.remoteAction (c : Core) (k : Comp) (pos sig : Nat) (v : W64) : Core :=
  if !c.mayName k.task.ctx pos then c.stashAction k 6 .badParam 2 (w64 (pos * 2 ^ 48 + sig)) v
  else if c.myLogical = some pos then
    let c1 := c.ringAdd c.self sig v (.task k.task)
    if c1.stash.waiting.any fun w => w.2 == .task k.task then c1.setComp { k with stage := .stash } else c1.toEdges k
  else (c.sendFrame k.task.ctx pos (.sigadd sig v)).toEdges k

/-- The target word of a stash entry for a memory word (Table 13-7): tier in bits 49:48, address bits 47:3 in bits 47:3. -/
def stashTarget (tier a : Nat) : W64 := w64 (tier % 4 * 2 ^ 48) ||| (w64 a &&& fields [(47, 3)])

/-- A MEM_WRITE action (R143): checked when the step runs; the region of an entry that is no longer resolvable has no
address, and the target of its stash entry is a free value. -/
def Core.memAction (c : Core) (k : Comp) (r : Run) (hidx off : Nat) (v : W64) : Core :=
  match c.hregion r hidx with
  | none =>
    let x := c.drawWord
    x.2.stashAction k 1 .badHandle 2 (x.1 &&& fields [(49, 48), (47, 3)]) v
  | some g =>
    let a := g.base + off
    match c.useHandle r hidx off 8 true with
    | .error e => c.stashAction k 1 .badHandle e (stashTarget (tierOf a) a) v
    | .ok b =>
      (c.setComp { k with stage := .ack }).reelWrite b (wordBytes v)
        (.memWrite k.task (stashTarget (tierOf b) b) v)

/-- A PEER_WRITE action: a tier 2 write on channel 0 (Table 05-8, R31). -/
def Core.peerAction (c : Core) (k : Comp) (a : Nat) (v : W64) : Core :=
  (c.setComp { k with stage := .ack }).reelIssue true 2 a (wordBytes v) (.peerWrite k.task (stashTarget 2 a) v)

/-- The ACTION step (Tables 05-7 and 05-8). -/
def Core.actionComp (c : Core) (k : Comp) (r : Run) (t : Task) (s : Skein) (h : Rec256) : Core :=
  if !hHasAction h then c.toEdges k
  else
    let a := s.actionRec t.node
    let v := w64 (rf a 2 0 64)
    match rf a 0 60 4 with
    | 1 => c.peerAction k (rf a 1 3 45 * 8) v
    | 2 => c.memAction k r (rf a 1 56 8) (rf a 1 3 45 * 8) v
    | 3 => (c.sigAdd (rf a 0 8 12) v).toEdges k
    | 4 => c.remoteAction k (rf a 0 44 16) (rf a 0 8 12) v
    | 5 => c.syncAction k .add 3 (rf a 0 8 24) v
    | _ => c.syncAction k .signal 4 (rf a 0 8 24) v

/-! TASK_COMPLETION -/

/-- Whether a completion may act in the present DCLK: its time has come and its pages are resident (R134, R142). -/
def Core.compReady (c : Core) (k : Comp) : Bool :=
  decide (k.since ≤ c.dclk) && decide (k.d ≤ c.dclk)
    && match c.taskOf k.task with | some (r, t) => c.pagesReady r t | none => true

/-- The first completion in the order of R142 whose next step is to be taken or to run its action. -/
def Core.nextComp (c : Core) (p : CompStage → Bool) : Option Comp :=
  c.graph.comps.find? fun k => p k.stage && c.compReady k

/-- One step of one completion: it is taken, or its action runs (R142). -/
def Core.completionStep (c : Core) : Core :=
  match c.nextComp fun s => s == .due || s == .action with
  | none => c
  | some k =>
    match c.taskOf k.task with
    | none => c.dropComp k.task
    | some (r, t) =>
      match c.skein r.ctx r.skein with
      | none => c.dropComp k.task
      | some s => if k.stage = .due then c.dueComp k r t (c.headOf r t) else c.actionComp k r t s (c.headOf r t)

/-- TASK_COMPLETION (R142). -/
def execTaskCompletion (s : State) : Host.Outcome State Fault Refusal := onRun s fun _ c => c.completionStep

/-! DEVICE_SIDE_ENQUEUE -/

/-- A record of an enqueue area (Table 05-15): template, argument and outermost count, none where it is malformed
(R128, R145). -/
def enqRecord (k : Skein) (w0 w1 : W64) : Option (Nat × Nat × Nat) :=
  let n := fld w0 0 20
  let top := fld w1 0 16
  if fld w0 20 12 == 0 && fld w1 16 48 == 0 && k.isTemplate n && decide (top ≤ 16384)
      && (top == 0 || hNNest (k.record n) != 0) && decide (tripProduct (withTop (k.trips n) top) < 2 ^ 32) then
    some (n, fld w0 32 32, top)
  else none

/-- The records of an area, none where one is malformed. -/
def enqRecords (k : Skein) : Nat → List W64 → Option (List (Nat × Nat × Nat))
  | 0, _ => some []
  | n + 1, ws =>
    match enqRecord k (ws.getD 0 0) (ws.getD 1 0), enqRecords k n (ws.drop 2) with
    | some x, some l => some (x :: l)
    | _, _ => none

/-- An enqueue area read and checked (R144, R145): its records, or the status and reason of the fault. -/
def Core.enqArea (c : Core) (r : Run) (k : Skein) (e : Rec256) : Except (Status × Nat) (List (Nat × Nat × Nat)) :=
  let hidx := rf e 0 56 8
  let off := 64 * rf e 0 24 32
  match c.useHandle r hidx off 64 false with
  | .error x => .error (.badHandle, x)
  | .ok a =>
    match c.readWords a 8 with
    | .error x => .error (.faulted, x)
    | .ok hd =>
      let count := fld (hd.getD 0 0) 0 16
      if fld (hd.getD 0 0) 16 48 ≠ 0 ∨ (hd.drop 1).any (fun w => w != 0) ∨ rf e 0 12 12 + 1 < count then
        .error (.badParam, 2)
      else
        match c.useHandle r hidx off (64 + 16 * count) false with
        | .error x => .error (.badHandle, x)
        | .ok _ =>
          match c.readWords (a + 64) (2 * count) with
          | .error x => .error (.faulted, x)
          | .ok ws =>
            match enqRecords k count ws with
            | none => .error (.badParam, 2)
            | some l => if k.enqLimit < r.dynNext + count then .error (.refusedFull, 5) else .ok l

/-- A dynamic task is created (R145); in a stopping run it becomes CANCELLED (R143). -/
def Core.createDyn (c : Core) (ctx tag : Nat) (kind : TaskKind) (x : Nat × Nat × Nat) : Core :=
  match c.findRun ctx tag with
  | none => c
  | some r =>
    let t := Task.fresh x.1 (some r.dynNext) kind x.2.1 x.2.2 0
    let c1 := c.setRun { r with dynNext := r.dynNext + 1, tasks := r.tasks ++ [t] }
    if r.stopping then c1.taskEnd (r.ref t) .cancelled else c1.activate (r.ref t)

/-- The ENQ step of the first completion that stands in it. -/
def Core.enqStep (c : Core) : Core :=
  match c.nextComp fun s => s == .enq with
  | none => c
  | some k =>
    match c.taskOf k.task with
    | none => c.dropComp k.task
    | some (r, t) =>
      match c.skein r.ctx r.skein with
      | none => c.dropComp k.task
      | some s =>
        match c.enqArea r s (s.enqRec t.node) with
        | .error e => if e = (.faulted, heldCode) then c.setComp { k with since := c.dclk + 1 } else c.faultPlain k.task e.1 e.2
        | .ok l =>
          l.foldl (fun d x => d.createDyn r.ctx r.tag .dynamic x)
            (c.setComp { k with stage := .action, since := c.dclk + 1 })

/-- DEVICE_SIDE_ENQUEUE (R144). -/
def execDeviceSideEnqueue (s : State) : Host.Outcome State Fault Refusal := onRun s fun _ c => c.enqStep

/-! COMPLETION_EDGES -/

/-- Decrements that all completions together may still make in the present DCLK (R142). -/
def Core.edgeBudget (c : Core) : Nat := 2 * c.cfg.spindles - c.graph.edgesUsed

/-- The successors of a task: node and class, in list order. -/
def Skein.succs (k : Skein) (h : Rec256) : List (Nat × Bool) :=
  (List.range (hEdgeCount h)).map (k.edge (hEdgeFirst h))

/-- Whether a decrement is live (R137). -/
def Comp.live (k : Comp) (exitClass : Bool) : Bool := !k.elided && (!k.exited || exitClass)

/-- The first completion whose edges can go on in the present DCLK, with what is left of its list. -/
def Core.nextEdges (c : Core) : Option (Comp × Run × List (Nat × Bool)) :=
  c.graph.comps.findSome? fun k =>
    if k.stage == .edges && c.compReady k then
      match c.taskOf k.task with
      | none => none
      | some (r, t) =>
        match c.skein r.ctx r.skein with
        | none => none
        | some s =>
          let rest := (s.succs (c.headOf r t)).drop k.applied
          if rest.isEmpty || decide (0 < c.edgeBudget) then some (k, r, rest) else none
    else none

/-- The edges of one completion, as far as the limit goes (R130, R142). -/
def Core.edgeRun (c : Core) (k : Comp) (r : Run) (rest : List (Nat × Bool)) : Core :=
  let now := rest.take c.edgeBudget
  let c1 := { c with graph := { c.graph with edgesUsed := c.graph.edgesUsed + now.length } }
  let c2 := c1.setComp { k with applied := k.applied + now.length }
  let c3 := now.foldl (fun d e => d.decrement { ctx := r.ctx, tag := r.tag, node := e.1, dyn := none } (k.live e.2)) c2
  if now.length = rest.length then ((c3.taskEnd k.task .done).dropComp k.task).settle r.ctx r.tag else c3

/-- Every completion in its edges goes on, in the order of R142. -/
def Core.edgesAll : Nat → Core → Core
  | 0, c => c
  | n + 1, c =>
    match c.nextEdges with
    | none => c
    | some x => Core.edgesAll n (c.edgeRun x.1 x.2.1 x.2.2)

/-- COMPLETION_EDGES (R130). -/
def execCompletionEdges (s : State) : Host.Outcome State Fault Refusal :=
  onRun s fun _ c => Core.edgesAll (c.graph.comps.length + 2 * c.cfg.spindles + 1) c

/-! Signal words and polled words -/

/-- SIGNAL_WORD_WRITE (R138). -/
def execSignalWordWrite (i : Nat) (v : W64) (acc : Access) (s : State) : Host.Outcome State Fault Refusal :=
  if i < 4096 then onWrite s (0x400000 + 8 * i) v acc fun _ c => some (c.sigWrite i v) else .next s

/-- One read of a watch entry (R139); while its last one is still outstanding the next stays due. -/
def Core.pollWatch (c : Core) (w : WatchEnt) : Core :=
  if c.reelServing fun x => x == .polled w.task then
    { c with graph := { c.graph with watches := c.graph.watches.map fun x => if x.task = w.task then { x with next := c.now } else x } }
  else
    Core.reelRead { c with graph := { c.graph with watches := c.graph.watches.map fun x =>
      if x.task = w.task then { x with next := c.now + c.pollTime } else x } } w.addr (.polled w.task)

/-- POLLED_WAIT_READ (R139): the poll interval of a watch entry has passed. -/
def execPolledWaitRead (ctx skein node : Nat) (s : State) : Host.Outcome State Fault Refusal :=
  onRun s fun _ c =>
    match c.runOfSkein ctx skein with
    | none => c
    | some r =>
      match c.graph.watches.find? fun w => w.task == { ctx := ctx, tag := r.tag, node := node, dyn := none } with
      | none => c
      | some w => if w.next ≤ c.now then c.pollWatch w else c

end Sys2Proof.Machine
end

