-- ==== Sys2Proof/Machine/Spindle.lean ====
section
/-! DEFINITION. Dispatch (06; R36 to R40, R63 to R65, R112 to R114): delay lists, slices, due records, candidates, the
selection of a Spindle, the bits of records, their presentation, the ramp governor's grants, and yield requests. -/

namespace Sys2Proof.Machine

/-! Delay lists -/

/-- Tasks whose entry of a delay list is due, in the order of R158. -/
def Core.delayDue (c : Core) (list : Nat) : List TaskRef :=
  let all := c.graph.runs.flatMap fun r => r.tasks.filterMap fun t =>
    match t.delay with
    | some d =>
      if d.1 = list ∧ d.2 ≤ c.gc.count ∧ t.st = .waiting then some ([d.2, r.ctx, t.node, r.skein], r.ref t) else none
    | none => none
  (sortBy (fun a b => keysLt a.1 b.1) all).map Prod.snd

/-- The release of a delay list in a DCLK (R158): at most 16 of its entries. -/
def Core.releaseList (c : Core) (list : Nat) : Core :=
  if aget c.graph.dlyAt list = some c.dclk then c
  else
    let c1 := { c with graph := { c.graph with dlyAt := aset c.graph.dlyAt list c.dclk } }
    ((c.delayDue list).take 16).foldl (fun d t => (d.ripen t).settle t.ctx t.tag) c1

/-- DELAY_LIST_RELEASE (R158). -/
def execDelayListRelease (list : Nat) (s : State) : Host.Outcome State Fault Refusal := onRun s fun _ c => c.releaseList list

/-! Slices (R112 to R114) -/

/-- Whether a context is open and has a Spindle in its mask. -/
def Core.onSpindle (c : Core) (n s : Nat) : Bool := (c.ctx n).st != .closed && (c.ctx n).spindleMask.testBit s

/-- Slice-mode contexts that share a Spindle. -/
def Core.slicers (c : Core) (s : Nat) : List Nat := (List.range 64).filter fun n => c.onSpindle n s && !(c.ctx n).owner

/-- Whether a task stands in the Bobbin of a Spindle: READY, in an OPEN context (R154). -/
def Core.hasReady (c : Core) (n s : Nat) : Bool :=
  (c.ctx n).st == .opened
    && c.graph.runs.any fun r => r.ctx == n && r.tasks.any fun t => t.st == .ready && hPortBase (c.headOf r t) / 64 == s

/-- Whether a context holds a Spindle: in owner mode, as the only slice-mode context on it, or in its slice (R112 to
R114). -/
def Core.holds (c : Core) (n s : Nat) : Bool :=
  c.onSpindle n s
    && ((c.ctx n).owner || c.slicers s == [n]
        || ((c.spindle s).holder == some n && decide (c.dclk < (c.spindle s).sliceEnd)))

/-- The length of a slice of a context in DCLK (R113). -/
def Core.sliceDclk (c : Core) (n : Nat) : Nat :=
  (if (c.ctx n).sliceLen = 0 then 64 else (c.ctx n).sliceLen) * 1024

/-- SLICE_END: the slice of a shared Spindle is over, or none runs, and the next holder is chosen (R113, R114). -/
def Core.sliceNext (c : Core) (s : Nat) : Core :=
  let x := c.spindle s
  let all := c.slicers s
  let ended := match x.holder with
    | none => true
    | some n => decide (x.sliceEnd ≤ c.dclk) || !c.hasReady n s || !all.contains n
  if all.length < 2 || !ended then c
  else
    let last := x.holder.getD x.prev
    let next := ((List.range 64).map fun i => (last + 1 + i) % 64).find? fun n => all.contains n && c.hasReady n s
    match next with
    | none => c.setSpindle s { x with holder := none, prev := last }
    | some n =>
      (c.setSpindle s { x with holder := some n, prev := last, sliceEnd := c.dclk + c.sliceDclk n }).ndInc n 1

/-- SLICE_END (R113). -/
def execSliceEnd (s : Nat) (st : State) : Host.Outcome State Fault Refusal :=
  onRun st fun _ c => if s < c.cfg.spindles then c.sliceNext s else c

/-! Due records (R173, R176) -/

/-- What record is due for a task on a port. -/
inductive Due where
  | setup
  | const (half : Nat)
  | tile (t : Nat) (resume last : Bool)
  deriving DecidableEq, Repr

/-- Ports of the set of a head. -/
def hWidth (h : Rec256) : Nat := hPortLast h + 1 - hPortBase h

/-- TILE records of a task that a port receives in all (Table 06-8): none in LIST mode. -/
def shareOf (h : Rec256) (tiles e : Nat) : Nat :=
  match hMode h with
  | 0 => tiles
  | 1 => (tiles + hWidth h - 1 - (e - hPortBase h)) / hWidth h
  | _ => 0

/-- TILE records presented, over all ports. -/
def Task.taken (t : Task) : Nat := sumBy (fun p : Nat × Nat => p.2) t.sent

/-- Whether a tile is the last that remains for a port (Table 06-6, `last`), `taken` records having been presented when it
is. -/
def lastTile (h : Rec256) (tiles tile taken : Nat) : Bool :=
  match hMode h with
  | 0 => decide (tiles ≤ tile + 1)
  | 1 => decide (tiles ≤ tile + hWidth h)
  | _ => decide (tiles ≤ taken)

/-- The next tile of a task on a port: a held one, or the next of Table 06-8. -/
def Task.nextTile (t : Task) (h : Rec256) (e : Nat) : Option (Nat × Bool) :=
  let tiles := t.tiles.getD 0
  match t.held.find? fun x => x.1 == e with
  | some x => some (x.2, true)
  | none =>
    let n := agetD t.sent e 0
    match hMode h with
    | 0 => if n < tiles ∧ (hPorts h).all (fun p => decide (n ≤ agetD t.back p 0)) then some (n, false) else none
    | 1 =>
      let i := e - hPortBase h + n * hWidth h
      if i < tiles then some (i, false) else none
    | _ => if t.taken < tiles then some (t.taken, false) else none

/-- The due record of a task on a port (R173). -/
def Core.dueOf (c : Core) (r : Run) (t : Task) (h : Rec256) (e : Nat) : Option Due :=
  let p := c.port e
  match t.nextTile h e with
  | none => none
  | some x =>
    if p.setup ≠ some (r.ref t) then some .setup
    else if p.consts < hNConst h then some (.const p.consts)
    else some (.tile x.1 x.2 (lastTile h (t.tiles.getD 0) x.1 (if x.2 then t.taken else t.taken + 1)))

/-! Candidates (R166, R167, R170) -/

/-- Whether a port is free (R166); under the engine stub its enable stays low (R386). -/
def Core.portFree (c : Core) (e : Nat) : Bool :=
  let p := c.port e
  c.present e && (p.en || c.engLoop e == 1) && p.out.isNone && p.sel.isNone
    && decide (p.freeFrom ≤ c.dclk) && (match p.doneAt with | some t => decide (t ≤ 3 * c.dclk) | none => true)

/-- Whether a clip keeps a port for its SAVE (R349). -/
def Core.portKept (c : Core) (e : Nat) : Bool :=
  match c.clip.run with
  | some q => q.ports.any fun x => x.1 == e
  | none => false

/-- The level of a named task. -/
def Core.levelOf (c : Core) (ref : TaskRef) : Nat :=
  match c.taskOf ref with
  | some (r, t) => hPrio (c.headOf r t)
  | none => 15

/-- Whether the bindings of a port admit a task (R167). -/
def Core.bindAdmits (c : Core) (e : Nat) (ref : TaskRef) (level : Nat) : Bool :=
  let p := c.port e
  match p.bind0, p.bind with
  | some u, _ => u == ref
  | none, some u => u == ref || (level == 0 && decide (0 < c.levelOf u))
  | none, none => true

/-- Whether an armed STOP_AT by count has taken effect: its count is reached or past (R90, R166). -/
def Core.stopPast (c : Core) (n : Nat) : Bool :=
  match (c.ctx n).stop with
  | some a => (match a.point with | .atCount k => decide (k ≤ c.gc.count) | .atNode _ _ => false)
  | none => false

/-- Whether the record of a task may be selected at all: it continues an ISSUED task, or its context is OPEN and holds the
Spindle, no armed STOP_AT has taken effect, and no clip has cut the run (R82, R166, R346). -/
def Core.mayStart (c : Core) (r : Run) (t : Task) (s : Nat) : Bool :=
  if t.st = .ready then
    (c.ctx r.ctx).st == .opened && !c.stopPast r.ctx && c.holds r.ctx s && !r.cut && !(r.cutAt.isSome && t.issuedAt.isNone)
  else t.st == .issued || t.st == .running

/-- A task is a candidate for a port, its flow apart; `asFree`: the port is taken as free (R179). -/
def Core.candidate (c : Core) (asFree : Option Nat) (r : Run) (t : Task) (h : Rec256) (e : Nat) : Option Due :=
  if (c.portFree e || asFree == some e) && !c.portKept e && !r.stopping && c.mayStart r t (e / 64)
      && c.bindAdmits e (r.ref t) (hPrio h) && c.pagesReady r t then c.dueOf r t h e
  else none

/-- Every task that may have records: READY, ISSUED or RUNNING, with its run and head. -/
def Core.live (c : Core) : List (Run × Task × Rec256) :=
  c.graph.runs.flatMap fun r =>
    (r.tasks.filter fun t => t.st == .ready || t.st == .issued || t.st == .running).map fun t => (r, t, c.headOf r t)

/-- The keys of Table 06-1. -/
def orderKeys (r : Run) (t : Task) : List Nat :=
  [t.readyAt, r.ctx, t.rank, t.node, r.skein, match t.dyn with | none => 0 | some n => n + 1]

/-- The physical flow of a head in a context (R162). -/
def Core.physFlow (c : Core) (n : Nat) (h : Rec256) : Nat := fld (c.ctx n).flowrange 0 16 + hFlow h

/-- The claimant of a free flow (R164). -/
def Core.claimant (c : Core) (asFree : Option Nat) (flow : Nat) : Option TaskRef :=
  let members := c.live.filter fun x =>
    x.2.1.st == .ready && hFlowEn x.2.2 && c.physFlow x.1.ctx x.2.2 == flow
      && (hPorts x.2.2).any fun e => (c.candidate asFree x.1 x.2.1 x.2.2 e).isSome
  let keyed := members.map fun x => (hPrio x.2.2 :: orderKeys x.1 x.2.1, x.1.ref x.2.1)
  ((sortBy (fun a b => keysLt a.1 b.1) keyed).head?).map Prod.snd

/-- Whether its flow admits a task (R163, R164): the claimant of a free flow is the one fixed for this DCLK; for a port taken as free
(R179) it is the one that would be. -/
def Core.flowOk (c : Core) (asFree : Option Nat) (r : Run) (t : Task) (h : Rec256) : Bool :=
  if hFlowEn h then
    let f := c.physFlow r.ctx h
    match c.disp.flows.held.find? fun x => x.1 == f with
    | some x => x.2 == r.ref t
    | none =>
      !c.disp.flows.freed.contains f
        && (match asFree with
            | none => c.disp.flows.claims.contains (f, r.ref t)
            | some _ => c.claimant asFree f == some (r.ref t))
  else true

/-- The claimants of the present DCLK are fixed for every free flow that has none yet (R164). -/
def Core.fixClaims (c : Core) : Core :=
  let flows := (c.live.filter fun x => x.2.1.st == .ready && hFlowEn x.2.2).map fun x => c.physFlow x.1.ctx x.2.2
  flows.foldl (fun d f =>
    if (d.disp.flows.claims.any fun x => x.1 == f) || d.disp.flows.held.any fun x => x.1 == f then d
    else
      match d.claimant none f with
      | none => d
      | some ref => { d with disp := { d.disp with flows := { d.disp.flows with claims := d.disp.flows.claims ++ [(f, ref)] } } }) c

/-- A candidate with its keys (R168). -/
structure Cand where
  keys : List Nat
  run  : Run
  task : Task
  head : Rec256
  port : Nat
  due  : Due
  deriving DecidableEq, Repr

/-- The candidates of a Spindle. -/
def Core.candidates (c : Core) (s : Nat) : List Cand :=
  (c.live.filter fun x => hPortBase x.2.2 / 64 == s).flatMap fun x =>
    (hPorts x.2.2).filterMap fun e =>
      match c.candidate none x.1 x.2.1 x.2.2 e with
      | none => none
      | some d =>
        if c.flowOk none x.1 x.2.1 x.2.2 then
          some { keys := [hPrio x.2.2, b2n (!hChain x.2.2)] ++ orderKeys x.1 x.2.1 ++ [e], run := x.1, task := x.2.1,
                 head := x.2.2, port := e, due := d }
        else none

/-! The bits of records (Tables 06-4 to 06-7) -/

/-- A field of a record of 256 bits from a bit upward. -/
def bitsAt (lo len v : Nat) : Nat := v % 2 ^ len * 2 ^ lo

/-- The program address of a task (R172); none where the entry is no longer resolvable (R121). -/
def Core.progAddr (c : Core) (r : Run) (h : Rec256) : Option Nat :=
  (c.hregion r (hProgHidx h)).map fun g => g.base + 64 * hProgOff h

/-- The SETUP record (Table 06-4). -/
def setupBits (tag : Nat) (r : Run) (t : Task) (h : Rec256) (prog share : Nat) : BitVec 256 :=
  BitVec.ofNat 256
    (bitsAt 0 16 tag + bitsAt 16 4 1 + bitsAt 20 1 (b2n (hChain h)) + bitsAt 21 1 (b2n (hYieldOk h))
     + bitsAt 22 1 (b2n t.dyn.isSome) + bitsAt 23 1 (b2n (t.kind == .replayStep)) + bitsAt 24 6 r.ctx
     + bitsAt 32 32 t.arg + bitsAt 64 37 (prog / 64) + bitsAt 101 2 (hNConst h)
     + bitsAt 104 37 ((r.cbuf.map fun b => b.1 / 64).getD 0) + bitsAt 141 11 ((r.cbuf.map (·.2)).getD 0)
     + bitsAt 160 32 share + bitsAt 192 20 t.node + bitsAt 212 10 r.skein + bitsAt 222 2 (hMode h)
     + bitsAt 224 20 (t.dyn.getD 0))

/-- The CONST record (Table 06-5). -/
def constBits (tag half : Nat) (k : Rec256) : BitVec 256 :=
  BitVec.ofNat 256
    (bitsAt 0 16 tag + bitsAt 16 4 2 + bitsAt 20 1 half + bitsAt 24 5 (rf k 0 3 5) + bitsAt 64 192 (rf k 1 0 192))

/-- An operand of a TILE record: its address and the lines to the end of its region, zero where it names none. -/
structure Opnd where
  addr : Nat
  lim  : Nat
  deriving DecidableEq, Repr

/-- The TILE record (Table 06-6). -/
def tileBits (tag : Nat) (h : Rec256) (arg tile : Nat) (resume last : Bool) (o : List Opnd) : BitVec 256 :=
  let a := o.getD 0 { addr := 0, lim := 0 }
  let b := o.getD 1 { addr := 0, lim := 0 }
  let d := o.getD 2 { addr := 0, lim := 0 }
  BitVec.ofNat 256
    (bitsAt 0 16 tag + bitsAt 16 4 4 + bitsAt 20 1 (b2n last) + bitsAt 21 1 (b2n (hChain h)) + bitsAt 22 1 (b2n resume)
     + bitsAt 32 32 tile + bitsAt 64 32 arg + bitsAt 96 37 (a.addr / 64) + bitsAt 133 16 a.lim
     + bitsAt 149 37 (b.addr / 64) + bitsAt 186 16 b.lim + bitsAt 202 37 (d.addr / 64) + bitsAt 239 16 d.lim)

/-- The SAVE and LOAD records (Table 06-7): the kind, the address and the lines of the area, the sequence number. -/
def saveBits (tag kind addr len seq : Nat) : BitVec 256 :=
  BitVec.ofNat 256 (bitsAt 0 16 tag + bitsAt 16 4 kind + bitsAt 32 32 seq + bitsAt 64 37 (addr / 64) + bitsAt 101 32 len)

/-- A wire-test record (R387): a SETUP whose bits 255:24 carry PRBS data, with the flags replay and dynamic. -/
def wireBits (tag : Nat) (prbs : List W64) : BitVec 256 :=
  let w := fun i => (prbs.getD i 0).toNat
  BitVec.ofNat 256
    (bitsAt 0 16 tag + bitsAt 16 4 1 + bitsAt 22 2 3 + bitsAt 24 40 (w 0) + bitsAt 64 64 (w 1) + bitsAt 128 64 (w 2)
     + bitsAt 192 64 (w 3))

/-- The bytes that an assignment can reach (R174): those of its operands, below x_addr + 64 × x_lim. -/
def PortRec.reach (r : PortRec) : List Nat :=
  let f := fun lo len => r.bits.toNat / 2 ^ lo % 2 ^ len
  if r.kind = 4 then
    ([(96, 133), (149, 186), (202, 239)].flatMap fun o => (List.range (64 * f o.2 16)).map (64 * f o.1 37 + ·)).filter fun a =>
      decide (a < memTop)
  else []

/-! Operand addresses (R127, R150) -/

/-- The indices of a tile, level 0 fastest. -/
def tileIdx : List Nat → Nat → List Nat
  | [], _ => []
  | [_], t => [t]
  | d :: r, t => t % max 1 d :: tileIdx r (t / max 1 d)

/-- The sum of index times signed increment, level l in bits 16l + 15 to 16l. -/
def incSum (inc : Nat) : List Nat → Nat → Int
  | [], _ => 0
  | i :: r, l => (i : Int) * signed 16 (inc / 2 ^ (16 * l) % 2 ^ 16) + incSum inc r (l + 1)

/-- An operand at an address of a region (R127): the address, if it lies inside. -/
def operandAt (g : Region) (a : Int) : Except Nat Opnd :=
  if (g.base : Int) ≤ a ∧ a < g.base + g.size then
    .ok { addr := a.toNat, lim := min 0xFFFF ((g.base + g.size - a.toNat) / 64) }
  else .error 3

/-- One operand of a NEST record: the word with hidx, offset and shift, and the word of increments. -/
def Core.nestOperand (c : Core) (r : Run) (x inc : Nat) (idx : List Nat) : Except Nat Opnd :=
  match c.hregion r (x / 2 ^ 56 % 256) with
  | none => .error 2
  | some g => operandAt g ((g.base : Int) + 64 * (x / 2 ^ 24 % 2 ^ 32 : Nat) + 64 * (2 ^ (x / 2 ^ 20 % 16) : Nat) * incSum inc idx 0)

/-- The operands of a tile: status and reason of the fault where one lies outside its region. -/
def Core.tileOperands (c : Core) (r : Run) (t : Task) (k : Skein) (h : Rec256) (tile : Nat) :
    Except (Status × Nat) (List Opnd) :=
  let wrap := fun (x : Except Nat (List Opnd)) => match x with | .ok l => Except.ok l | .error e => .error (Status.badHandle, e)
  if t.kind = .replayStep then
    let ws := r.steps.getD t.node []
    let off := fun i => (agetD k.params (fld (ws.getD i 0) 48 8) 0).toNat
    if [1, 2, 3].any fun i => off i % 64 != 0 then .error (.badParam, 2)
    else
      wrap ([1, 2, 3].mapM fun i =>
        match c.hregion r (fld (ws.getD i 0) 56 8) with
        | none => .error 2
        | some g => operandAt g ((g.base : Int) + off i))
  else if hNNest h = 0 then .ok []
  else
    let idx := tileIdx (k.trips t.node) tile
    let n0 := k.nestRec t.node 0
    let n1 := k.nestRec t.node 1
    let all := [(rf n0 1 0 64, rf n0 2 0 64)]
      ++ (if hNNest h = 2 then [(rf n1 0 0 64, rf n1 1 0 64), (rf n1 2 0 64, rf n1 3 0 64)] else [])
    wrap (all.mapM fun x => c.nestOperand r x.1 x.2 idx)

/-! Selection -/

/-- A record is put at a port to wait for its presentation; it takes the next issue tag (R169, R175). -/
def Core.selectRec (c : Core) (e : Nat) (bits : BitVec 256) (kind : Nat) (use : RecUse) (last : Bool) : Core :=
  let p := c.port e
  c.setPort e { p with sel := some { bits := bits, kind := kind, use := use, last := last, at_ := c.dclk,
                                     started := false },
                       tag := (p.tag + 1) % 2 ^ 16 }

/-- A port is bound to a task (R167): a level-0 task over another binding. -/
def Core.bindPort (c : Core) (e : Nat) (ref : TaskRef) (level : Nat) : Core :=
  let p := c.port e
  c.setPort e (if level = 0 then { p with bind0 := some ref } else { p with bind := some ref })

/-- The flow of a task is held from the selection of its first record (R163). -/
def Core.holdFlow (c : Core) (r : Run) (t : Task) (h : Rec256) : Core :=
  let f := c.physFlow r.ctx h
  if hFlowEn h && !(c.disp.flows.held.any fun x => x.1 == f) then
    { c with disp := { c.disp with flows := { c.disp.flows with held := c.disp.flows.held ++ [(f, r.ref t)] } } }
  else c

/-- What the selection of a record of a task does beside the record. -/
def Core.selectTask (c : Core) (x : Cand) : Core :=
  let ref := x.run.ref x.task
  let c1 := c.holdFlow x.run x.task x.head
  if hMode x.head = 2 then c1 else c1.bindPort x.port ref (hPrio x.head)

/-- The record of a candidate is built and selected, or its task faults (R121, R127, R150). `share` of a SETUP is what the port has
still to return of its whole share: Table 06-4 gives the remainder after a resumption, and does not say which a SETUP carries that is
sent again with no yield, after a level-0 record or a SAVE (DESIGN CHOICE, notes/assumptions/86). -/
def Core.select (c : Core) (x : Cand) : Core :=
  let ref := x.run.ref x.task
  let tag := (c.port x.port).tag
  match c.skein x.run.ctx x.run.skein with
  | none => c
  | some k =>
    match x.due with
    | .setup =>
      match c.progAddr x.run x.head with
      | none => (c.drawWord.2).faultTask ref .badHandle 2 x.port c.drawWord.1.toNat
      | some a =>
        let share := shareOf x.head (x.task.tiles.getD 0) x.port - agetD x.task.back x.port 0
        (c.selectTask x).selectRec x.port (setupBits tag x.run x.task x.head a share) 1 (.task ref 0) false
    | .const half =>
      (c.selectTask x).selectRec x.port (constBits tag half (k.constRec x.task.node half)) 2 (.task ref 0) false
    | .tile i resume last =>
      match c.tileOperands x.run x.task k x.head i with
      | .error e => c.faultTask ref e.1 e.2 x.port i
      | .ok ops =>
        let c1 := (c.selectTask x).selectRec x.port (tileBits tag x.head x.task.arg i resume last ops) 4 (.task ref i) last
        let c2 := c1.modTask ref fun t =>
          { t with sent := if resume then t.sent else aset t.sent x.port (agetD t.sent x.port 0 + 1),
                   held := t.held.filter fun y => y.1 != x.port }
        if hMode x.head = 2 ∧ resume = false then c2.ndInc x.run.ctx 1 else c2

/-- The clip sequence number (Table 14-8). -/
def Core.clipSeq (c : Core) : Nat := fld c.clip.status 32 32

/-- SAVE, LOAD and wire-test records that are due on a free port of a group (R349, R357, R387). -/
def Core.selectOther (c : Core) (e : Nat) : Core :=
  if !c.portFree e then c
  else
    let tag := (c.port e).tag
    let save : Option (Nat × Nat × Nat) := match c.clip.run with
      | some q => if q.phase = .save then q.ports.find? fun x => x.1 == e else none
      | none => none
    let load : Option (Nat × Nat × Nat) := match c.clip.restore with | some q => q.ports.find? fun x => x.1 == e | none => none
    match save, load with
    | some x, _ => c.selectRec e (saveBits tag 8 x.2.1 x.2.2 c.clipSeq) 8 .save false
    | none, some x => c.selectRec e (saveBits tag 9 x.2.1 x.2.2 c.clipSeq) 9 .load false
    | none, none =>
      if c.engLoop e = 2 ∧ aget c.tl.wireTurn (e / 64) = some e then
        let n := fld (agetD c.tl.eng0 (e / 64) 0) 32 32
        c.selectRec e (wireBits tag ((List.range 4).map fun i => prbsWord (e / 64) 0 (4 * n + i))) 1 .wire false
      else c

/-- One selection of a Spindle (R168). -/
def Core.spindleSelect (c : Core) (s : Nat) : Core :=
  let x := c.spindle s
  if x.selAt = some c.dclk then c
  else
    let c1 := c.setSpindle s { x with selAt := some c.dclk }
    let c2 := (List.range 64).foldl (fun d i => d.selectOther (64 * s + i)) c1
    let c3 := c2.fixClaims
    match sortBy (fun a b : Cand => keysLt a.keys b.keys) (c3.candidates s) with
    | [] => c3
    | y :: _ => c3.select y

/-- SPINDLE_SELECTION (R168). -/
def execSpindleSelection (s : Nat) (st : State) : Host.Outcome State Fault Refusal :=
  onRun st fun _ c => if s < c.cfg.spindles then c.spindleSelect s else c

/-! Presentation -/

/-- Records of a group that go to its stub or wire test are counted; the stub folds them into its hash (R386). -/
def Core.countRecord (c : Core) (e : Nat) (bits : BitVec 256) : Core :=
  let s := e / 64
  if c.engLoop e = 0 then c
  else
    let c1 := { c with tl := { c.tl with eng0 := aset c.tl.eng0 s (satAdd (agetD c.tl.eng0 s 0) 32 32 1) } }
    if c.engLoop e = 1 then
      let w := bits.extractLsb' 0 64 ^^^ bits.extractLsb' 64 64 ^^^ bits.extractLsb' 128 64 ^^^ bits.extractLsb' 192 64
      { c1 with tl := { c1.tl with eng1 := aset c1.tl.eng1 s (agetD c1.tl.eng1 s 0 ^^^ w.rotateLeft (e % 64)) } }
    else c1

/-- What the first beat of a record does to its task (Table 05-12). -/
def Core.issueTask (c : Core) (e : Nat) (r : PortRec) : Core :=
  match r.use with
  | .task ref tile =>
    let c1 := c.modTask ref fun t =>
      { t with st := if t.st = .ready then .issued else t.st,
               issuedAt := match t.issuedAt with | some n => some n | none => some c.now,
               lastTile := if r.kind = 4 then aset t.lastTile e tile else t.lastTile }
    c1.replayRun ref.ctx ref.tag
  | _ => c

/-- The first beat of the record selected for a port, at a time (R36, R169). -/
def Core.present_ (c : Core) (e time : Nat) : Core :=
  let p := c.port e
  match p.sel with
  | none => c
  | some r =>
    let latch := match r.use with
      | .task ref _ => if r.kind = 1 then (some ref, 0) else if r.kind = 2 then (p.setup, p.consts + 1) else (p.setup, p.consts)
      | .wire => (none, 0)
      | _ => (none, 0)
    let c1 := c.setPort e { p with out := some { r with at_ := time }, sel := none, waiting := false, issued := true,
                                   setup := latch.1, consts := latch.2 }
    (c1.countRecord e r.bits).issueTask e r

/-- Whether the first beat of a record at a time is a start (R63). -/
def Core.isStart (c : Core) (e time : Nat) : Bool :=
  let p := c.port e
  !p.issued || (match p.doneAt with
    | some t => decide (fld c.pwr.ramp 40 8 * 8 ≤ (time - t) / 2)
    | none => true)

/-- The first ECLK edge that is not before the present time. -/
def Core.nextEclk (c : Core) : Nat := ceilDiv c.now 2 * 2

/-- Whether the first beat of the record at a port has been granted in the present ECLK. -/
def Core.startGranted (c : Core) (e : Nat) : Bool :=
  match c.pwr.granted with
  | some w => w.port == e && w.kind == .beat
  | none => false

/-- Whether a record belongs to a run that a CANCEL or a fault has stopped. -/
def Core.recStopping (c : Core) (r : PortRec) : Bool :=
  match r.use with
  | .task t _ => c.stoppingRef t
  | _ => false

/-- RECORD_PRESENTATION: two DCLK after its selection a record is presented, or it waits for its ramp grant (R169). A record that
would wait for a grant is withdrawn where its run has stopped (R170). -/
def execRecordPresentation (e : Nat) (s : State) : Host.Outcome State Fault Refusal :=
  onRun s fun _ c =>
    let p := c.port e
    match p.sel with
    | none => c
    | some r =>
      if p.waiting ∨ c.dclk < r.at_ + 2 ∨ c.startGranted e then c
      else if c.isStart e c.nextEclk ∧ c.recStopping r then
        let c1 := c.setPort e { p with sel := none, freeFrom := c.dclk + 1 }
        match r.use with
        | .task t _ => c1.settle t.ctx t.tag
        | _ => c1
      else if c.isStart e c.nextEclk then
        { (c.setPort e { p with waiting := true }) with
          pwr := { c.pwr with waits := c.pwr.waits ++ [{ window := c.rampIndex, port := e, kind := .beat }] } }
      else c.present_ e c.nextEclk

/-! The ramp governor (R64, R65) -/

/-- Whether a waiting start can be granted: the enable of a port whose reset has been high for 16 ECLK (R40), or the first
beat of a record that waits. -/
def Core.startRipe (c : Core) (w : StartReq) : Bool :=
  let p := c.port w.port
  match w.kind with
  | .enable => p.rstN && decide (p.rstAt + 32 ≤ c.now)
  | .beat => p.waiting

/-- The start that is first in the order of R64. -/
def Core.nextStart (c : Core) : Option StartReq :=
  (sortBy (fun a b : StartReq => keysLt [a.window, a.port] [b.window, b.port]) (c.pwr.waits.filter c.startRipe)).head?

/-- Ports with a record running (R65, R169). -/
def Core.running (c : Core) : Nat := (c.disp.ports.filter fun p => p.2.out.isSome).length

/-- Whether the budget in force admits one more running port (R65). -/
def Core.budgetOk (c : Core) : Bool :=
  decide ((c.running + 1) * fld c.pwr.ramp 48 8 ≤ fld c.pwr.status 48 16)

/-- A start that fails the budget waits, and sets budget_low (R65): once for each start that waits (DESIGN CHOICE,
notes/assumptions/15). -/
def Core.budgetLow (c : Core) (w : StartReq) : Core :=
  if w.told then c
  else
    ({ c with pwr := { c.pwr with waits := modifyFirst (fun x => x == w) (fun x => { x with told := true }) c.pwr.waits,
                                  status := setBit c.pwr.status 4 true } }.mark 0x10038 4).logClock 4

/-- A start is granted in the present ECLK. It takes effect with the end of that ECLK: until then a rise of PW_THROTTLE
withdraws the grant (R69). -/
def Core.grantStart (c : Core) (w : StartReq) : Core :=
  let c1 := { c with pwr := { c.pwr with
    waits := removeFirst (fun x => x == w) c.pwr.waits, windowAt := some c.rampIndex, startsUsed := c.startsUsed + 1,
    grantAt := some (c.now / 2), granted := some w } }
  match w.kind with
  | .enable => c1
  | .beat => c1.setPort w.port { c1.port w.port with waiting := false }

/-- The grant of the ECLK that ends has its effect: ENG_EN rises, or the record has had its first beat in that ECLK (R64). -/
def Core.grantEffect (c : Core) : Core :=
  match c.pwr.granted with
  | none => c
  | some w =>
    let c1 := { c with pwr := { c.pwr with granted := none } }
    match w.kind with
    | .enable => c1.setPort w.port { c1.port w.port with en := true, issued := false }
    | .beat => c1.present_ w.port (c.now / 2 * 2)

/-- Whether the governor may grant at all now (R64, R69): it decides at an ECLK edge, with none granted in this ECLK, the throttle low
and its window over, and starts left in the window. -/
def Core.mayGrant (c : Core) : Bool :=
  c.now % 2 == 0 && !bitAt c.pwr.status 5
    && (match c.pwr.resumeAt with | some k => decide (k ≤ c.rampIndex) | none => true)
    && decide (c.startsUsed < fld c.pwr.ramp 0 7) && c.pwr.grantAt != some (c.now / 2)

/-- One grant of the governor, if the limits of R64, R65 and R69 leave one. -/
def Core.rampGrant (c : Core) : Core :=
  if c.mayGrant then
    match c.nextStart with
    | none => c
    | some w => if c.budgetOk then c.grantStart w else c.budgetLow w
  else c

/-- RAMP_GRANT (R64). -/
def execRampGrant (s : State) : Host.Outcome State Fault Refusal := onRun s fun _ c => c.rampGrant

/-! Starts of engines and yields -/

/-- ENGINE_START: the engine starts the record it received (R36); the first TILE takes its task to RUNNING
(Table 05-12). -/
def execEngineStart (e : Nat) (s : State) : Host.Outcome State Fault Refusal :=
  onRun s fun _ c =>
    match (c.port e).out with
    | none => c
    | some r =>
      if r.started ∨ c.now < r.at_ then c
      else
        let c1 := c.setPort e { c.port e with out := some { r with started := true } }
        match r.use with
        | .task ref _ =>
          if r.kind = 4 then c1.modTask ref fun t => { t with st := if t.st = .issued then .running else t.st } else c1
        | _ => c1

/-- Whether a level-0 task of a context has a record due for a port that runs a tile (R179). -/
def Core.levelZeroWaits (c : Core) (n e : Nat) : Bool :=
  c.live.any fun x =>
    x.1.ctx == n && hPrio x.2.2 == 0 && (hPorts x.2.2).contains e
      && (c.candidate (some e) x.1 x.2.1 x.2.2 e).isSome && c.flowOk (some e) x.1 x.2.1 x.2.2

/-- YIELD_REQUEST (R179). -/
def execYieldRequest (e : Nat) (s : State) : Host.Outcome State Fault Refusal :=
  onRun s fun _ c =>
    let p := c.port e
    match p.out with
    | none => c
    | some r =>
      match r.use with
      | .task ref _ =>
        match c.taskOf ref with
        | none => c
        | some (q, t) =>
          let h := c.headOf q t
          if r.kind = 4 ∧ p.yield = none ∧ c.engLoop e = 0 ∧ 0 < hPrio h ∧ hYieldOk h ∧ c.levelZeroWaits q.ctx e then
            c.setPort e { p with yield := some c.dclk }
          else c
      | _ => c

/-! Deadlines (R281 to R285) -/

/-- The time in RCLK at which the count reaches a value, by the anchors of the corrections (R281). -/
def countTime (target : Nat) : List (Nat × Nat) → Option Nat → Nat
  | [], cap => min (3 * target) (cap.getD (3 * target))
  | (k, t) :: r, cap =>
    if k ≤ target then min (t + 3 * (target - k)) (cap.getD (t + 3 * (target - k)))
    else countTime target r (some t)

/-- E(count): the ECLK whose edge is at or first after the DCLK of a count. -/
def Core.eclkOf (c : Core) (count : Nat) : Nat := ceilDiv (countTime count c.gc.anchors none) 2

/-- The deadline D of a share of W ECLK released at a count (R281). -/
def Core.deadlineOf (c : Core) (r : Run) (release w : Nat) : Nat :=
  c.eclkOf release + w + w * r.slackE8 / 800 + r.slackEclk

/-- The tile count that a deadline check uses: the one in force, or that of the nest of a task with no binding. -/
def Core.checkedTiles (c : Core) (r : Run) (t : Task) (k : Skein) (h : Rec256) : Nat :=
  match t.tiles with
  | some n => n
  | none =>
    if hExpertEn h || (c.fetchNode r.ctx r.skein t.node).isSome then 0 else tripProduct (k.trips t.node)

/-- The work W of a check (R281). -/
def dlWork (h : Rec256) (tiles e : Nat) : Nat :=
  if hMode h = 2 then ceilDiv tiles (hWidth h) * hBudget h else shareOf h tiles e * hBudget h

/-- Whether the completion that a check looks at has returned in an ECLK or earlier (R281, R282). -/
def dlBack (t : Task) (h : Rec256) (tiles e eclk : Nat) : Bool :=
  if hMode h = 2 then decide (tiles ≤ sumBy (fun p : Nat × Nat => p.2) t.back) && t.backAt.all fun p => decide (p.2 ≤ eclk)
  else decide (shareOf h tiles e ≤ agetD t.back e 0) && decide (agetD t.backAt e 0 ≤ eclk)

/-- The deadline of a task on a port (R281). -/
def Core.dlOf (c : Core) (r : Run) (t : Task) (k : Skein) (h : Rec256) (e : Nat) : Nat :=
  c.deadlineOf r (r.shifted (r.start + hStartOff h)) (dlWork h (c.checkedTiles r t k h) e)

/-- Whether a port has a record of a task outstanding at the end of an ECLK: it had its first beat by then, and no record of the task returned
on the port by then since. -/
def Core.outAt (c : Core) (ref : TaskRef) (t : Task) (eclk p : Nat) : Bool :=
  decide (eclk < agetD t.backAt p 0)
    || match (c.port p).out with | some x => x.serves ref && decide (x.at_ ≤ 2 * eclk + 1) | none => false

/-- The port of a DEADLINE record (R283). -/
def Core.dlPort (c : Core) (r : Run) (t : Task) (h : Rec256) (e : Nat) : Nat :=
  if hMode h = 2 then
    match c.skein r.ctx r.skein with
    | some k => ((hPorts h).find? fun p => c.outAt (r.ref t) t (c.dlOf r t k h e) p).getD (hPortBase h)
    | none => hPortBase h
  else e

/-- A missed deadline is counted, and the first of its task is reported; under deadline_halt the task faults, and what its
fault stops follows (R282, R283). -/
def Core.missDeadline (c : Core) (ref : TaskRef) (e : Nat) : Core :=
  match c.taskOf ref with
  | none => c
  | some (r, t) =>
    let h := c.headOf r t
    let x := c.ctx r.ctx
    let c1 := (c.setCtx r.ctx { x with det := satAdd x.det 32 32 1 }).modTask ref fun y =>
      { y with dlMissed := y.dlMissed ++ [e], dlTold := true }
    if t.dlTold then c1
    else
      let c2 := (c1.setDet r.ctx 1).setDet r.ctx 2
      let c3 := match c2.findRun r.ctx r.tag with
        | some q => c2.setRun { q with timing := true, deadline := true }
        | none => c2
      let port := c.dlPort r t h e
      let tile := (aget t.lastTile port).getD 0xFFFFFFFF
      if r.halt then
        ((c3.taskFaults ref .faulted 4 port tile).modTask ref fun y => { y with st := if y.st = .done then .faulted else y.st }).dropComp ref
      else c3.logTask r t 0 4 port tile

/-- Whether a clip keeps a task from being checked: its run is cut, or is at its cut node and the task has not been issued, as what the pause
does to it is no miss (R350, R351; DEDUCED, notes/assumptions/95). -/
def Run.uncheckedAt (r : Run) (t : Task) : Bool := r.cut || (r.cutAt.isSome && t.st != .issued && t.st != .running)

/-- Whether the check of a task on a port has failed and is still to be taken: in a DCLK whose edge is at or after ECLK D + 1, and
not where its run's end came first (R281, R282, R284, R285). -/
def Core.dlDue (c : Core) (r : Run) (t : Task) (e : Nat) : Bool :=
  match c.skein r.ctx r.skein with
  | none => false
  | some k =>
    let h := c.headOf r t
    let tiles := c.checkedTiles r t k h
    t.kind == .static && hFixed h && !r.checksOff && !r.stopping && !t.exempt && t.st != .cancelled && t.st != .faulted && !t.elided
      && !r.uncheckedAt t && decide (0 < dlWork h tiles e) && (hPorts h).contains e
      && !(t.dlMissed.contains e || (hMode h == 2 && t.dlTold))
      && !dlBack t h tiles e (c.dlOf r t k h e) && decide (2 * (c.dlOf r t k h e + 1) ≤ 3 * c.dclk)

/-- Every failed check of a context that is still to be taken, in ascending node (R284). -/
def Core.dlAll (c : Core) (n : Nat) : List (TaskRef × Nat) :=
  let all := (c.runsOf n).flatMap fun r => r.tasks.flatMap fun t =>
    let h := c.headOf r t
    ((if hMode h = 2 then [hPortBase h] else hPorts h).filter fun e => c.dlDue r t e).map fun e => (r.ref t, e)
  sortBy (fun a b : TaskRef × Nat => decide (a.1.node < b.1.node)) all

/-- DEADLINE (R282): a check of a task on a port whose D has passed with its completion still out. A check that halts its
context is taken together with the context's other failed checks, before the halt ends them (R284, R285). -/
def Core.deadline (c : Core) (ctx tag node e : Nat) : Core :=
  let ref : TaskRef := { ctx := ctx, tag := tag, node := node, dyn := none }
  match c.taskOf ref with
  | none => c
  | some (r, t) =>
    if !c.dlDue r t e then c
    else if !r.halt then c.missDeadline ref e
    else
      let all := c.dlAll ctx
      let runs := (c.runsOf ctx).filter fun q => q.halt && all.any fun x => x.1.tag == q.tag
      runs.foldl (fun d q => d.stopRun ctx q.tag) ((all.foldl (fun d x => d.missDeadline x.1 x.2) c).stopCtx ctx .halted)

/-- DEADLINE (R282). -/
def execDeadline (ctx tag node port : Nat) (s : State) : Host.Outcome State Fault Refusal :=
  onRun s fun _ c => c.deadline ctx tag node port

end Sys2Proof.Machine
end

