-- ==== Sys2Proof/Machine/Context.lean ====
section
/-! DEFINITION. Contexts and their registers (03 R82 to R89, Tables 03-10 and 03-11; 05 R121, R151; 06 R185; 11 R293): CTX_OPEN,
CTX_CLOSE, HANDLE_FLUSH, NOP, QUERY, DEVICE_RESET, and the range, delay and slack registers. -/

namespace Sys2Proof.Machine

/-! CTX_OPEN -/

/-- Step 9 of CTX_OPEN (Table 03-9). -/
def Core.ctxOpenFaults (c : Core) (p : Packet) : List PFault :=
  let hl := pf p 2 32 8
  let sl := pf p 2 24 8
  range 2 24 (sl == 0 || (decide (8 ≤ sl) && decide (sl ≤ 24))) ++ range 2 32 (hl == 0 || (decide (8 ≤ hl) && decide (hl ≤ 20)))
    ++ range 2 48 (decide (pf p 2 48 16 < 2 ^ c.cfg.spindles))
    ++ (if hl = 0 then [] else physFaults p 3 (16 * 2 ^ hl)) ++ (if sl = 0 then [] else physFaults p 4 (8 * 2 ^ sl))
    ++ range 5 0 (decide (pf p 5 0 19 ≤ 262144)) ++ limit 5 0 (decide (pf p 5 0 19 ≤ c.cfg.syncObjects))
    ++ range 5 32 (decide (pf p 5 32 13 ≤ 4096)) ++ limit 5 32 (decide (pf p 5 32 13 ≤ c.cfg.channels))

/-- Whether context 0 owns a skein, an object, a channel end, a table or a run. -/
def Core.owns (c : Core) (n : Nat) : Bool :=
  !(c.skeinsOf n).isEmpty || !(c.objsOf n).isEmpty || c.chanEnds n != 0 || !(c.tablesOf n).isEmpty || !c.noRuns n

/-- Whether any loop-back is set or a SELFTEST runs (R381). -/
def Core.testing (c : Core) : Bool :=
  c.tl.echoOn || c.tl.self.isSome || (c.tl.reelDepth.any fun (d : Nat × Nat) => d.2 != 0)
    || (c.tl.engDepth.any fun (d : Nat × Nat) => d.2 != 0) || c.tl.linkDepth.any fun (d : Nat × Nat) => d.2 != 0

/-- Whether an open context other than one uses a Spindle of a mask, in owner mode where that is asked. -/
def Core.maskUsed (c : Core) (target mask : Nat) (ownersOnly : Bool) : Bool :=
  c.openCtxs.any fun n =>
    n != target && (!ownersOnly || (c.ctx n).owner) && (List.range 16).any fun s => mask.testBit s && (c.ctx n).spindleMask.testBit s

/-- The effect of CTX_OPEN on its target (Table 03-10; R272, R293, R329, R358, R405). What progress its queue has made in the watch
period stands; zeroing stall_run ends an episode that was reported (R329, R331, notes/assumptions/100). -/
def Core.ctxOpenEffect (c : Core) (p : Packet) : Core :=
  let t := pf p 2 0 6
  let x := c.ctx t
  let y : Ctx := { Ctx.reset with
    st := if x.st = .closed then .opened else x.st, spindleMask := pf p 2 48 16, handleLog2 := pf p 2 32 8,
    syncLog2 := pf p 2 24 8, prioCeiling := pf p 2 16 4, owner := pkExp p && pb p 6 16,
    sliceLen := if pkExp p then pf p 6 0 16 else 0, htab := pw p 3, stab := pw p 4, chanQuota := pf p 5 32 13,
    syncQuota := pf p 5 0 19, peer := x.peer, sigrange := x.sigrange, flowrange := x.flowrange, stop := x.stop,
    progressed := x.progressed }
  let c1 := if x.stallTold then c.logStall t 2 else c
  ((c1.setCtx t y).setQueue t { c1.queue t with compl := 0 }).setPlyPage t .reset

/-- Steps 9 to 15 of CTX_OPEN. -/
def Core.ctxOpen (c : Core) (p : Packet) : Except Verdict CpRes := do
  step9 p (c.ctxOpenFaults p)
  let t := pf p 2 0 6
  let mask := pf p 2 48 16
  ensure (t == 0 || !c.testing) (vState 5)
  ensure (t != 0 || !c.owns 0) (vState 5)
  ensure (t == 0 || (c.ctx t).st == .closed) (vState 3)
  ensure (!c.maskUsed t mask true) (vState 5)
  ensure (!(pkExp p && pb p 6 16 && c.maskUsed t mask false)) (vState 5)
  let others := c.openCtxs.filter fun n => n != t
  ensure (decide (pf p 5 0 19 + sumBy (fun n => (c.ctx n).syncQuota) others ≤ c.cfg.syncObjects)) (vFull 3)
  ensure (decide (pf p 5 32 13 + sumBy (fun n => (c.ctx n).chanQuota) others ≤ c.cfg.channels)) (vFull 4)
  return .done vOk (c.ctxOpenEffect p)

/-- CTX_OPEN (R87). -/
def execCtxOpen (s : State) : Host.Outcome State Fault Refusal := onCommand s 0x01 fun _ c _ p => c.ctxOpen p

/-! CTX_CLOSE -/

/-- The answer of a CTX_CLOSE whose target has no run left: at once, or once the replies it caused are written. -/
def Core.closeAnswer (c : Core) (p : Packet) (target : Nat) (caused : Bool) : CpRes :=
  let owed := caused || (c.ctx target).stop.isSome
    || (match (c.queue target).cur with | .syncWait _ _ => true | .sigWait _ _ _ => true | _ => false)
  let c1 := c.closeEffect target
  if owed && !c1.flushed target then .hold (.closeReply p target) c1 else .done vOk c1

/-- Every run of a context is cancelled (Table 03-10, expert form). -/
def Core.cancelAll (c : Core) (n : Nat) : Core :=
  (c.runsOf n).foldl (fun d r =>
    match d.findRun n r.tag with
    | some q => (d.setRun { q with cancelled := true, cancelAt := some c.dclk }).stopRun n r.tag
    | none => d) c

/-- Steps 9 to 15 of CTX_CLOSE. -/
def Core.ctxClose (c : Core) (p : Packet) : Except Verdict CpRes := do
  let t := pf p 2 0 6
  step9 p (range 2 0 (t != 0))
  ensure ((c.ctx t).st != .closed) (vState 4)
  ensure (pkExp p || c.noRuns t) (vState 5)
  if c.noRuns t then return c.closeAnswer p t false
  else
    let c1 := c.cancelAll t
    return if c1.noRuns t then c1.closeAnswer p t true else .hold (.closeWait p t) c1

/-- CTX_CLOSE (R87). -/
def execCtxClose (s : State) : Host.Outcome State Fault Refusal := onCommand s 0x02 fun _ c _ p => c.ctxClose p

/-! RESUME -/

/-- The transitions that fall in the present DCLK whatever is commanded: starts of runs, releases of the delay lists, and edges. -/
def Core.dclkDue (c : Core) : Core :=
  let c1 := (List.range 4).foldl (fun d l => d.releaseList l) c.startDue
  Core.edgesAll (c1.graph.comps.length + 2 * c1.cfg.spindles + 1) c1

/-- Whether the stop that is armed for a context falls in the present DCLK: its count is reached, or its node becomes READY in it
(R90, R91). -/
def Core.stopHere (c : Core) (n : Nat) : Bool :=
  (c.ctx n).stop.isSome && (c.ctx n).st == .opened && (((c.stopDue n).ctx n).stop.isNone || ((c.dclkDue).ctx n).stop.isNone)

/-- RESUME (Table 03-10): a stop whose point falls in this DCLK is taken first, and its final OK comes first (R91). -/
def Core.resume (c : Core) (n : Nat) (p : Packet) : Except Verdict CpRes := do
  step9 p []
  let c1 := if c.stopHere n then c.stopReached n else c
  let x := c1.ctx n
  match x.st with
  | .opened =>
    match x.stop with
    | some a =>
      return .done vOk ((c1.setCtx n { x with stop := none }).finalReply n a.tag { status := .ok, detail := 1 } a.irq false)
    | none => return .done vOk c1
  | _ => return .done vOk (c1.setCtx n { x with st := .opened })

/-- RESUME (R87). -/
def execResume (s : State) : Host.Outcome State Fault Refusal := onCommand s 0x27 fun _ c n p => c.resume n p

/-! HANDLE_FLUSH and NOP -/

/-- The entries of the relocation store of a context in an index range, read again (R121). -/
def Core.flushEntries (c : Core) (n first count : Nat) : List RelocEnt → Except Nat (List RelocEnt)
  | [] => .ok []
  | e :: rest =>
    match Core.flushEntries c n first count rest with
    | .error k => .error k
    | .ok l =>
      if e.ctx = n ∧ first ≤ e.idx ∧ e.idx < first + count then
        match c.readWords (fld (c.ctx n).htab 0 48 + 16 * e.idx) 2 with
        | .error k => .error k
        | .ok ws =>
          .ok ({ e with region := (entryRegion (ws.getD 0 0) (ws.getD 1 0) e.gen false).map fun g => (g.write, g.base, g.size) } :: l)
      else .ok (e :: l)

/-- Steps 9 to 15 of HANDLE_FLUSH. -/
def Core.handleFlush (c : Core) (n : Nat) (p : Packet) : Except Verdict CpRes := do
  let first := pf p 2 32 20
  let count := pf p 2 0 21
  step9 p (range 2 0 (decide (1 ≤ count) && decide (count ≤ 2 ^ 20)))
  let x := c.ctx n
  ensure (x.handleLog2 != 0 && decide (first + count ≤ 2 ^ x.handleLog2)) (vWord .badHandle 2 1)
  match c.flushEntries n first count c.graph.reloc with
  | .error k => .error (vFaulted 2 k)
  | .ok l => return .done vOk { c with graph := { c.graph with reloc := l } }

/-- HANDLE_FLUSH (R121). -/
def execHandleFlush (s : State) : Host.Outcome State Fault Refusal := onCommand s 0x04 fun _ c n p => c.handleFlush n p

/-- NOP (R87): its final reply and nothing else. -/
def execNop (s : State) : Host.Outcome State Fault Refusal :=
  onCommand s 0x05 fun _ c _ p => do
    step9 p []
    return .done vOk c

/-! QUERY (R88, Table 03-11) -/

/-- Records of a skein in resident pages. -/
def Skein.residentNodes (k : Skein) : Nat := sumBy (fun g => min 128 (k.nodeCount - 128 * g)) k.resident

/-- Tasks of a run in a state; the steps of a replay are no tasks (R150). -/
def Run.countIn (r : Run) (st : TaskSt) : Nat := (r.tasks.filter fun t => t.kind != .replayStep && t.st == st).length

/-- The figures that a selector reports (Table 03-11), or that its subject does not exist. -/
def Core.queryFigures (s : Sys) (c : Core) (n sel subject : Nat) : Except Verdict (List Nat) :=
  let x := c.ctx n
  match sel with
  | 0 => .ok [(regVersion c).toNat, s.fwVersion, s.secVersion]
  | 1 => .ok [x.st.code, b2n (bitAt x.det 1), x.ndc, b2n x.stop.isSome]
  | 2 =>
    match c.findRun n subject with
    | none => .error (vState 4)
    | some r => .ok [b2n r.started, r.start, r.countIn .done, r.countIn .cancelled, r.countIn .faulted]
  | 3 =>
    match c.skein n subject with
    | none => .ok [0, 0, 0]
    | some k => .ok [1, k.residentNodes, k.nodeCount - k.residentNodes]
  | 4 => .ok [x.cmds, x.tasks, x.assigns, (regProg c n 3).toNat]
  | _ => .ok [x.syncQuota, (c.objsOf n).length, x.chanQuota, c.chanEnds n, c.unfinished n]

/-- The 64 bytes of a record: selector 0x04 as R329 gives; the layout of the others is not published, and its words are
free values (notes/assumptions/4). -/
def queryRecord (sel : Nat) (figures : List Nat) : List Byte :=
  (List.range 8).flatMap fun i =>
    wordBytes (if sel = 4 then w64 (figures.getD i 0) else Config.queryWord sel i figures)

/-- Steps 9 to 15 of QUERY. -/
def Core.query (s : Sys) (c : Core) (n : Nat) (p : Packet) : Except Verdict CpRes := do
  let sel := pf p 2 0 8
  let subject := pf p 2 16 32
  step9 p (range 2 0 (decide (sel ≤ 5)) ++ range 2 16 (sel != 3 || decide (subject < 1024)))
  let dst ← c.handleParam n p 3 0 true 64
  let f ← c.queryFigures s n sel subject
  c.writeThen 3 dst.base (queryRecord sel f) fun c1 => .ok (.done vOk c1)

/-- QUERY (R88). -/
def execQuery (s : State) : Host.Outcome State Fault Refusal := onCommand s 0xA0 fun sys c n p => c.query sys n p

/-! DEVICE_RESET (R89) -/

/-- RESET_PENDING. -/
def vResetPending : Verdict := { status := .resetPending, detail := 0 }

/-- Steps 1 to 3 of R89: fetching stops, and every open context's queue is told. -/
def Core.deviceReset (c : Core) (p : Packet) : Except Verdict CpRes := do
  step9 p []
  let c1 := { c with fe := { c.fe with stopped := true } }
  return .done vResetPending
    ((c1.openCtxs.filter fun n => n != 0).foldl (fun d n => d.finalReply n noHandle vResetPending false false) c1)

/-- DEVICE_RESET (R89). -/
def execDeviceReset (s : State) : Host.Outcome State Fault Refusal :=
  if s.sys.phase = .run then
    let c := s.core.cpTake 0xF0 fun d _ p => d.deviceReset p
    .next { s with core := c, sys := if c.fe.stopped && !s.core.fe.stopped then
                                       { s.sys with devResetAt := some s.core.now } else s.sys }
  else .next s

/-! Range registers (R151, R185, R293) -/

/-- Whether the range registers of a context may be written (R151). -/
def Core.rangesFree (c : Core) (n : Nat) : Bool :=
  if n = 0 then (c.skeinsOf 0).isEmpty else (c.ctx n).st == .closed

/-- Whether two ranges share a number. -/
def overlaps (a n b m : Nat) : Bool := decide (0 < n) && decide (0 < m) && decide (a < b + m) && decide (b < a + n)

/-- A write of SZ_CX_PEER or SZ_CX_SIGRANGE (R151). -/
def Core.rangeWrite (c : Core) (n : Nat) (which : RangeReg) (v : W64) : Option Core :=
  let x := c.ctx n
  if !c.rangesFree n then none
  else
    match which with
    | .peer =>
      if fld v 0 36 + fld v 36 24 ≤ 2 ^ 36 then some (c.setCtx n { x with peer := v &&& fields [(59, 0)] }) else none
    | .sigrange =>
      let a := fld v 0 12
      let k := fld v 16 13
      if a + k ≤ 4096 ∧ (List.range 64).all fun m =>
          m == n || !overlaps a k (fld (c.ctx m).sigrange 0 12) (fld (c.ctx m).sigrange 16 13) then
        some (c.setCtx n { x with sigrange := v &&& fields [(28, 16), (11, 0)] })
      else none

/-- CX_PEER_SIGRANGE (R151). -/
def execCxPeerSigrange (n : Nat) (which : RangeReg) (v : W64) (acc : Access) (s : State) :
    Host.Outcome State Fault Refusal :=
  if n < 64 then
    onWrite s (0x200000 + 0x1000 * n + (match which with | .peer => 0x18 | .sigrange => 0x20)) v acc
      fun _ c => c.rangeWrite n which v
  else .next s

/-- A write of SZ_CX_FLOWRANGE or SZ_DLY_CTRL (R185). -/
def Core.flowDlyWrite (c : Core) (which : FlowDlyReg) (v : W64) : Option Core :=
  match which with
  | .flowrange n =>
    let a := fld v 0 16
    let k := fld v 16 17
    if c.rangesFree n ∧ a + k ≤ 65536 ∧ (List.range 64).all fun m =>
        m == n || !overlaps a k (fld (c.ctx m).flowrange 0 16) (fld (c.ctx m).flowrange 16 17) then
      some (c.setCtx n { c.ctx n with flowrange := v &&& fields [(32, 0)] })
    else none
  | .dlyCtrl =>
    if c.allIdle ∧ [0, 5, 10].all (fun b => decide (fld v b 5 ≤ 20)) then
      some { c with graph := { c.graph with dlyCtrl := v &&& fields [(63, 32), (14, 0)] } }
    else none

/-- FLOWRANGE_DLY_CTRL (R185). -/
def execFlowrangeDlyCtrl (which : FlowDlyReg) (v : W64) (acc : Access) (s : State) : Host.Outcome State Fault Refusal :=
  if which.wf then
    onWrite s (match which with | .flowrange n => 0x200028 + 0x1000 * n | .dlyCtrl => 0x240018) v acc
      fun _ c => c.flowDlyWrite which v
  else .next s

/-- A write of SZ_SLACK_DEFAULT (R293). -/
def Core.slackWrite (c : Core) (v : W64) : Option Core :=
  if c.allIdle then some { c with graph := { c.graph with slack := v &&& fields [(47, 16), (15, 8)] } } else none

/-- SLACK_DEFAULT (R293). -/
def execSlackDefault (v : W64) (acc : Access) (s : State) : Host.Outcome State Fault Refusal :=
  onWrite s 0x240030 v acc fun _ c => c.slackWrite v

end Sys2Proof.Machine
end

