-- ==== Sys2Proof/Machine/Sync.lean ====
section
/-! DEFINITION. Synchronisation objects (08): SYNC_SET, SYNC_WAIT, SYNC_ALLOC, SYNC_FREE, the evaluation of R222, and the
operations of the manual-access window. -/

namespace Sys2Proof.Machine

/-! Commands -/

/-- A mapped identifier that a command names (R218). -/
def Core.syncNamed (c : Core) (n vid : Nat) : Except Verdict SyncObj :=
  match c.syncLookup n vid with
  | .error k => .error (vFaulted 2 k)
  | .ok none => .error (vWord .badHandle 2 1)
  | .ok (some o) => .ok o

/-- The operation of SYNC_SET (Table 03-9). -/
def syncOpOf (k : Nat) : SyncOp := if k = 0 then .set else if k = 1 then .add else .signal

/-- Steps 9 to 15 of SYNC_SET. -/
def Core.syncSet (c : Core) (n : Nat) (p : Packet) : Except Verdict CpRes := do
  let k := pf p 2 32 2
  step9 p (range 2 32 (k != 3))
  let o ← c.syncNamed n (pf p 2 0 24)
  ensure ((syncOpOf k).fits o.token false) (vParam 2 4)
  return .done vOk (c.syncUpdate o 1 (syncOpOf k) (pw p 3))

/-- SYNC_SET (R220). -/
def execSyncSet (s : State) : Host.Outcome State Fault Refusal := onCommand s 0x30 fun _ c n p => c.syncSet n p

/-- Steps 9 to 15 of SYNC_WAIT: on an object, or in the expert form on a signal word. -/
def Core.syncWait (c : Core) (n : Nat) (p : Packet) : Except Verdict CpRes := do
  if pkExp p then
    let i := pf p 2 0 12
    step9 p (range 2 0 (c.sigIn n i))
    return .hold (.sigWait p i (pw p 3)) c
  else
    step9 p []
    let vid := pf p 2 0 24
    let o ← c.syncNamed n vid
    return .hold (.syncWait p vid) (c.syncArm o { who := .queue n, skein := 0, equal := false, threshold := pw p 3 })

/-- SYNC_WAIT (R224). -/
def execSyncWait (s : State) : Host.Outcome State Fault Refusal := onCommand s 0x31 fun _ c n p => c.syncWait n p

/-- The lowest `count` numbers that a list does not hold. -/
def lowestFree (used : List Nat) : Nat → Nat → Nat → List Nat
  | 0, _, _ => []
  | _, _, 0 => []
  | fuel + 1, i, count + 1 =>
    if used.contains i then lowestFree used fuel (i + 1) (count + 1) else i :: lowestFree used fuel (i + 1) count

/-- Steps 9 to 15 of SYNC_ALLOC (R219). -/
def Core.syncAlloc (c : Core) (n : Nat) (p : Packet) : Except Verdict CpRes := do
  let vid := pf p 2 0 24
  let count := pf p 3 0 19
  let token := pb p 3 32
  step9 p (range 3 0 (decide (1 ≤ count) && decide (count ≤ 262144)))
  let x := c.ctx n
  ensure (x.syncLog2 != 0 && decide (vid + count ≤ 2 ^ x.syncLog2)) (vWord .badHandle 2 1)
  let found ← (List.range count).mapM fun i =>
    match c.syncLookup n (vid + i) with
    | .error k => Except.error (vFaulted 2 k)
    | .ok o => .ok o
  ensure (found.all Option.isNone) (vState 3)
  ensure (decide ((c.objsOf n).length + count ≤ x.syncQuota) && decide (c.sync.objs.length + count ≤ c.cfg.syncObjects)) (vFull 3)
  let used := c.sync.objs.map (·.phys)
  let objs := (lowestFree used (used.length + count) 0 count).zipIdx.map fun q =>
    ({ phys := q.1, ctx := n, vid := vid + q.2, token := token, value := 0, waiters := [], upds := [], arms := [] } : SyncObj)
  c.writeThen 2 (c.syncEntryAddr n vid) (objs.flatMap fun o => wordBytes (w64 (bitW 63 true + bitW 62 token + o.phys)))
    fun c1 => .ok (.done vOk { c1 with sync := { c1.sync with objs := c1.sync.objs ++ objs } })

/-- SYNC_ALLOC (R219). -/
def execSyncAlloc (s : State) : Host.Outcome State Fault Refusal := onCommand s 0x32 fun _ c n p => c.syncAlloc n p

/-- Whether an object has a queued or armed waiter. -/
def Core.hasWaiter (c : Core) (o : SyncObj) : Bool := (o.out ++ o.waiters ++ o.arms).any fun w => !c.waiterGone o w

/-- Steps 9 to 15 of SYNC_FREE: the objects are free and their entries invalid (R219). -/
def Core.syncFree (c : Core) (n : Nat) (p : Packet) : Except Verdict CpRes := do
  let vid := pf p 2 0 24
  let count := pf p 3 0 19
  step9 p (range 3 0 (decide (1 ≤ count) && decide (count ≤ 262144)))
  let objs ← (List.range count).mapM fun i =>
    match c.syncLookup n (vid + i) with
    | .error k => Except.error (vFaulted 2 k)
    | .ok none => .error (vState 4)
    | .ok (some o) => .ok o
  ensure (!objs.any c.hasWaiter) (vState 5)
  c.writeThen 2 (c.syncEntryAddr n vid) (objs.flatMap fun o => wordBytes (w64 (bitW 62 o.token + o.phys)))
    fun c1 => .ok (.done vOk (c1.freeObjs fun o => o.ctx == n && decide (vid ≤ o.vid) && decide (o.vid < vid + count)))

/-- SYNC_FREE (R219). -/
def execSyncFree (s : State) : Host.Outcome State Fault Refusal := onCommand s 0x33 fun _ c n p => c.syncFree n p

/-! Evaluation (R222) -/

/-- A released waiter goes on: a task has its wait satisfied, a SYNC_WAIT gets its final reply (R222, R224). -/
def Core.releaseWaiter (c : Core) (w : SyncWaiter) : Core :=
  match w.who with
  | .task t => ((c.modTask t fun x => { x with satisfied := true }).promote t).settle t.ctx t.tag
  | .queue n => c.release n vOk
  | _ => c

/-- One object goes through steps 1 and 2 of R222. -/
def Core.evalOne (c : Core) (phys : Nat) : Core :=
  match c.sync.objs.find? fun o => o.phys == phys with
  | none => c
  | some o =>
    let x := c.evalObj o
    let c1 := c.setObj x.2.1
    if x.2.2 then c1.ndInc o.ctx 1 else c1

/-- SYNC_OBJECT_EVALUATION (R222): every object, once in a DCLK, against the values at the end of the DCLK before. Its updates and
newly armed waits are taken in at the end of the DCLK, when the released waiters go on. -/
def execSyncObjectEvaluation (s : State) : Host.Outcome State Fault Refusal :=
  onRun s fun _ c =>
    if c.sync.evalAt = some c.dclk then c
    else
      (c.sync.objs.map (·.phys)).foldl Core.evalOne { c with sync := { c.sync with evalAt := some c.dclk } }

/-- R223 looked at again after a revision: a release that no longer leaves a waiter in contention is not counted. -/
def Core.uncount (c : Core) (o : SyncObj) : Core :=
  if o.counted && (o.out.isEmpty || o.waiters.isEmpty) then
    let x := c.ctx o.ctx
    c.setCtx o.ctx { x with ndc := x.ndc - 1 }
  else c

/-- The end of a DCLK for one object: the release revised, the updates and armed waits of the DCLK taken in, and the released
waiters going on (R222). -/
def Core.endOne (c : Core) (phys : Nat) : Core :=
  match c.sync.objs.find? fun o => o.phys == phys with
  | none => c
  | some o =>
    let o1 := c.reviseObj o
    o1.out.foldl Core.releaseWaiter ((c.uncount o1).setObj o1.fold)

/-- The end of a DCLK for every object (R222). -/
def Core.syncEnd (c : Core) : Core := (c.sync.objs.map (·.phys)).foldl Core.endOne c

/-! The manual-access window (R226 to R229) -/

/-- SZ_SM_STATUS after an operation has begun: manual_ops and ops_left, and the end of a grant without operations. -/
def manualUsed (w : W64) : W64 :=
  let left := fld w 32 16 - 1
  setBit (setFld (satAdd w 48 16 1) 32 16 left) 2 (left != 0)

/-- The value an operation of the window finds: after the takes of R222 step 2 and the manual operations before it. -/
def Core.manualBefore (c : Core) (o : SyncObj) : W64 :=
  let taken := if c.sync.evalAt = some c.dclk then (c.reviseObj o).value
               else (o.release (o.waiters.filter fun w => !c.waiterGone o w)).2.2
  (o.upds.filter fun u => u.rank == 0).foldl (fun a u => u.apply a) taken

/-- A MANUAL record (Table 13-4). -/
def Core.logManual (c : Core) (ctx vid op : Nat) (before after : W64) : Core :=
  c.logRaw 0x07 (w64 (vid * 2 ^ 40 + op * 2 ^ 16 + ctx)) before after

/-- The status code of a manual operation, with the object where all checks pass (R228). -/
def Core.manualCheck (c : Core) (op : Option SyncOp) : Nat × Option SyncObj :=
  let w := c.sync.win
  let n := fld w.target 0 6
  if n ≠ fld w.status 24 6 then (Status.isolation.code, none)
  else
    match c.syncLookup n (fld w.target 8 24) with
    | .ok (some o) =>
      match op with
      | none => (0, some o)
      | some k => if k.fits o.token true then (0, some o) else (Status.badParam.code, none)
    | _ => (Status.badHandle.code, none)

/-- The window's registers changed. -/
def Core.setWin (c : Core) (status data : W64) : Core :=
  { c with sync := { c.sync with win := { c.sync.win with status := status, data := data } } }

/-- Whether the entry that an operation of the window reads has to be waited for (R33, R34). -/
def Core.manualHeld (c : Core) : Bool :=
  match c.syncLookup (fld c.sync.win.target 0 6) (fld c.sync.win.target 8 24) with
  | .error k => k == heldCode && fld c.sync.win.target 0 6 == fld c.sync.win.status 24 6
  | .ok _ => false

/-- An operation of the window completes (R228, R229): its checks, its effect, and its record. -/
def Core.manualDo (c : Core) (code : Nat) (op : Option SyncOp) : Core :=
  let w := c.sync.win
  let x := c.manualCheck op
  let st := setFld (manualUsed w.status) 16 8 x.1
  match x.2 with
  | none => c.setWin st w.data
  | some o =>
    match op with
    | none => (c.setWin (setBit st 5 o.token) o.value).logManual o.ctx o.vid code o.value o.value
    | some k =>
      let before := c.manualBefore o
      let after := ({ rank := 0, op := k, val := w.data } : SyncUpd).apply before
      (((c.setWin st w.data).syncUpdate o 0 k w.data).ndInc o.ctx 1).logManual o.ctx o.vid code before after

/-- The operation that a code of SZ_SM_OP names (Table 08-9); READ is none. -/
def manualOf (code : Nat) : Option SyncOp :=
  if code = 1 then some .set else if code = 2 then some .add else if code = 3 then some .signal else none

/-- An operation of the window, given by its code in SZ_SM_OP (R228): it completes, or is busy until its entry can be read. -/
def Core.manualOp (c : Core) (code : Nat) (op : Option SyncOp) : Option Core :=
  let w := c.sync.win
  if !bitAt w.status 2 || bitAt w.status 3 then none
  else if c.manualHeld then
    some { c with sync := { c.sync with win := { w with status := setBit w.status 3 true, under := some (code, w.target, w.data) } } }
  else some (c.manualDo code op)

/-- The operation under way completes in the first DCLK in which its entry can be read, on the target and the data of its write; the
two registers keep what was written meanwhile, but for the result of a READ. -/
def Core.manualGo (c : Core) : Core :=
  match c.sync.win.under with
  | none => c
  | some (code, target, data) =>
    let w := c.sync.win
    let c1 := { c with sync := { c.sync with win := { w with target := target, data := data } } }
    if c1.manualHeld then c
    else
      let c2 := { c1 with sync := { c1.sync with win := { c1.sync.win with status := setBit w.status 3 false, under := none } } }
      let d := c2.manualDo code (manualOf code)
      { d with sync := { d.sync with win := { d.sync.win with target := w.target, data := if code = 0 then d.sync.win.data else w.data } } }

/-- MANUAL_READ (R228): a write of 0b00 to SZ_SM_OP. -/
def execManualRead (acc : Access) (s : State) : Host.Outcome State Fault Refusal :=
  onWrite s 0x800028 0 acc fun _ c => c.manualOp 0 none

/-- MANUAL_SET (R228): a write of 0b01 to SZ_SM_OP. -/
def execManualSet (acc : Access) (s : State) : Host.Outcome State Fault Refusal :=
  onWrite s 0x800028 1 acc fun _ c => c.manualOp 1 (some .set)

/-- MANUAL_ADD (R228): a write of 0b10 to SZ_SM_OP. -/
def execManualAdd (acc : Access) (s : State) : Host.Outcome State Fault Refusal :=
  onWrite s 0x800028 2 acc fun _ c => c.manualOp 2 (some .add)

/-- MANUAL_SIGNAL (R228): a write of 0b11 to SZ_SM_OP. -/
def execManualSignal (acc : Access) (s : State) : Host.Outcome State Fault Refusal :=
  onWrite s 0x800028 3 acc fun _ c => c.manualOp 3 (some .signal)

end Sys2Proof.Machine
end

