-- ==== Sys2Proof/Machine/Channel.lean ====
section
/-! DEFINITION. Message channels (09): CHAN_OPEN, CHAN_CLOSE, CHAN_RESET, the send slots and the sending of records (R242 to
R244), the receive ring and the delivery of records (R235 to R238, R245 to R247), and the notices (R239 to R241). -/

namespace Sys2Proof.Machine

/-! Opening and closing -/

/-- Bits of a record of words that are not listed. -/
def strayBits (ws masks : List W64) : Bool := (ws.zipIdx.any fun w => w.1 &&& ~~~(masks.getD w.2 0) != 0)

/-- Handler h of a receive route record, 1 to 15 (Table 09-2). -/
def routeHandlers (ws : List W64) : List Nat :=
  (List.range 15).map fun h => fld (ws.getD (2 + h / 3) 0) (20 * (h % 3)) 20

/-- The handler entry that means none. -/
def noHandler : Nat := 0xFFFFF

/-- The send record of a route is admitted at step 12 (R233). -/
def Core.sendRouteOk (c : Core) (n : Nat) (ws : List W64) : Bool :=
  let w := fun i => ws.getD i 0
  !strayBits ws [fields [(63, 48), (43, 32), (31, 22), (20, 16), (2, 0)], fields [(63, 44), (43, 24)], fields [(63, 32)]]
    && fld (w 0) 0 3 == 1 && decide (fld (w 1) 44 20 ≤ fld (w 1) 24 20) && decide (12 ≤ fld (w 0) 16 5)
    && decide (fld (w 0) 16 5 ≤ 20) && c.mayName n (fld (w 0) 48 16)

/-- The receive record of a route is admitted at step 12 (R233). -/
def Core.recvRouteOk (c : Core) (n : Nat) (ws : List W64) : Bool :=
  let w := fun i => ws.getD i 0
  let hs := (routeHandlers ws).filter fun h => h != noHandler
  !strayBits ws ([fields [(63, 48), (43, 32), (31, 22), (2, 0)], fields [(63, 32), (31, 3)]]
      ++ List.replicate 5 (fields [(59, 0)]))
    && fld (w 0) 0 3 == 2 && c.mayName n (fld (w 0) 48 16)
    && (hs.isEmpty || match c.skein n (fld (w 0) 22 10) with | none => false | some k => hs.all k.isTemplate)

/-- Whether a context, this one or another, holds the end that a packet names: step 11. -/
def heldBy (owner : Option Nat) (n : Nat) : Except Verdict Unit :=
  match owner with
  | none => .ok ()
  | some m => .error (if m = n then vState 3 else vIso 4)

/-- CHAN_OPEN of the send role (R233, R240, R250). -/
def Core.openTx (c : Core) (n ch : Nat) (p : Packet) (ws : List W64) (area : Region) : Core :=
  let w := fun i => ws.getD i 0
  c.setChan ch { c.chan ch with
    txMsgs := 0, txBytes := 0, refused := 0, stalls := 0,
    tx := some { ctx := n, st := .noReader, destPos := fld (w 0) 48 16, destChan := fld (w 0) 32 12,
                 skein := fld (w 0) 22 10, slotLog2 := fld (w 0) 16 5, first := fld (w 1) 44 20, last := fld (w 1) 24 20,
                 areaAt := area.base, areaLen := area.size, stallLimit := if pkExp p then pf p 5 0 32 else 0, ringLog2 := 0, epoch := 0,
                 wr := 0, consumed := 0, delivered := 0, sentRecs := 0, reason := 0, slots := [], waiting := [], sent := [] } }

/-- CHAN_OPEN of the receive role: the next epoch, the OPEN notice, and the first read of the consumed word (R236, R239,
R250). -/
def Core.openRx (c : Core) (n ch : Nat) (p : Packet) (ws : List W64) (ring cons : Region) : Core :=
  let w := fun i => ws.getD i 0
  let h := c.chan ch
  let e := (h.epoch + 1) % 2 ^ 16
  let at_ := cons.base + fld (w 1) 3 29 * 8
  let r : ChanRx := { ctx := n, srcPos := fld (w 0) 48 16, srcChan := fld (w 0) 32 12, skein := fld (w 0) 22 10,
                      handlers := routeHandlers ws, consAt := at_, ringAt := ring.base, ringLog2 := pf p 3 32 5, wr := 0,
                      consumed := 0, seqNext := 0, recs := [], dlvd := 0, nextPoll := c.now + c.pollTime, polling := true,
                      due := false }
  let c1 := c.setChan ch { h with epoch := e, rxMsgs := 0, rxBytes := 0, discarded := 0, held := 0, rx := some r }
  (c1.chanNotice ch r (.openNotice e (pf p 3 32 5))).reelRead at_ (.consumed ch)

/-- A handle of a route record resolved against W4 (R233). -/
def Core.routeHandle (c : Core) (n : Nat) (p : Packet) (h : Nat) (write : Bool) (extent : Nat) : Except Verdict Region :=
  match c.resolve n (pkBase p) h write extent with
  | .error e => .error (e.verdict 4)
  | .ok r => .ok r

/-- Steps 9 to 15 of CHAN_OPEN. -/
def Core.chanOpen (c : Core) (n : Nat) (p : Packet) : Except Verdict CpRes := do
  let recv := pb p 2 16
  let ch := pf p 2 0 12
  let rl := pf p 3 32 5
  step9 p (limit 2 0 (decide (ch < c.cfg.channels))
    ++ range 3 32 (if recv then decide (12 ≤ rl) && decide (rl ≤ 20) else rl == 0))
  let ring ← (if recv then c.handleParam n p 3 0 true (2 ^ rl) else .ok { write := false, base := 0, size := 0 })
  let route ← c.handleParam n p 4 0 false 64
  let ws ← c.readFor 4 route.base 8
  let w := fun i => ws.getD i 0
  let h := c.chan ch
  let room := ensure (decide (c.chanEnds n < (c.ctx n).chanQuota)) (vFull 4)
  if recv then
    let cons ← c.routeHandle n p (fld (w 1) 32 32) true (fld (w 1) 3 29 * 8 + 8)
    heldBy (h.rx.map (·.ctx)) n
    ensure (c.recvRouteOk n ws) (vParam 4 2)
    room
    return .done vOk (c.openRx n ch p ws ring cons)
  else
    let area ← c.routeHandle n p (fld (w 2) 32 32) false ((fld (w 1) 24 20 + 1 - fld (w 1) 44 20) * 2 ^ fld (w 0) 16 5)
    heldBy (h.tx.map (·.ctx)) n
    ensure (c.sendRouteOk n ws) (vParam 4 2)
    room
    return .done vOk (c.openTx n ch p ws area)

/-- CHAN_OPEN (R233). -/
def execChanOpen (s : State) : Host.Outcome State Fault Refusal := onCommand s 0x40 fun _ c n p => c.chanOpen n p

/-- A send end closes (Table 09-4): tasks that still have to send on it fault with REFUSED_CLOSED 0x04 (R243), and nothing
waits for the records that it had out. -/
def Core.closeSend (c : Core) (n : Nat) : Core :=
  match (c.chan n).tx with
  | none => c
  | some t =>
    let owed := (t.slots.map Prod.snd ++ t.waiting.map (·.task)).eraseDups
    let out := (t.sent.map fun s => s.2.task).eraseDups
    let c1 := owed.foldl (fun d r => d.faultPlain r .refusedClosed 4) (c.closeTx n)
    out.foldl (fun d r => (d.undefer r).settle r.ctx r.tag) c1

/-- The end that a packet names is open in its context: step 11 (R87). -/
def ownedBy (owner : Option Nat) (n : Nat) : Except Verdict Unit :=
  match owner with
  | none => .error (vState 4)
  | some m => ensure (m == n) (vIso 4)

/-- Steps 9 to 15 of CHAN_CLOSE. -/
def Core.chanClose (c : Core) (n : Nat) (p : Packet) : Except Verdict CpRes := do
  step9 p []
  let ch := pf p 2 0 12
  let h := c.chan ch
  if pb p 2 16 then
    ownedBy (h.rx.map (·.ctx)) n
    return .done vOk (c.closeRx ch 1)
  else
    ownedBy (h.tx.map (·.ctx)) n
    return .done vOk (c.closeSend ch)

/-- CHAN_CLOSE (R87). -/
def execChanClose (s : State) : Host.Outcome State Fault Refusal := onCommand s 0x41 fun _ c n p => c.chanClose n p

/-- Steps 9 to 15 of CHAN_RESET: ring and receive counters are discarded. -/
def Core.chanReset (c : Core) (n : Nat) (p : Packet) : Except Verdict CpRes := do
  step9 p []
  let ch := pf p 2 0 12
  ensure (pb p 2 16) (vState 4)
  ownedBy ((c.chan ch).rx.map (·.ctx)) n
  let c1 := c.closeRx ch 2
  return .done vOk (c1.setChan ch { c1.chan ch with rxMsgs := 0, rxBytes := 0, discarded := 0, held := 0 })

/-- CHAN_RESET (R87). -/
def execChanReset (s : State) : Host.Outcome State Fault Refusal := onCommand s 0x42 fun _ c n p => c.chanReset n p

/-! Sending (R242 to R244) -/

/-- The bytes of a record (09, Records and the receive ring). -/
def msgSize (m : MsgRec) : Nat := if m.kind = 1 then 64 + 64 * ceilDiv m.len 64 else 64

/-- The bits of a message header that its sender may set; what Serzo writes is ignored (Table 09-3). -/
def msgMasks : List W64 :=
  [fields [(63, 48), (47, 32), (27, 16), (8, 8), (7, 4), (2, 0)], fields [(20, 0)], fields [(63, 0)], fields [(11, 0)],
   fields [(63, 0)], fields [(63, 0)], fields [(27, 16), (15, 0)], 0]

/-- The header of a record in a slot, none where a check of R243 fails. -/
def msgOf (ws : List W64) : Option MsgRec :=
  let w := fun i => ws.getD i 0
  let kind := fld (w 0) 0 3
  if strayBits ws msgMasks || (kind != 1 && kind != 2) || decide (4096 < fld (w 1) 0 21)
      || (kind == 2 && fld (w 0) 4 4 != 0) then none
  else some { kind := kind, handler := fld (w 0) 4 4, fenceEn := bitAt (w 0) 8, fenceChan := fld (w 0) 16 12,
              len := fld (w 1) 0 21, fence := w 2, sig := fld (w 3) 0 12, value := w 4, user := w 5, payload := [] }

/-- The records of a slot from an address on, within the bytes that are left of the send area, or the status and reason of
the task's fault (R243). -/
def Core.slotRecords (c : Core) : Nat → Nat → Nat → Except (Status × Nat) (List MsgRec)
  | 0, _, _ => .ok []
  | n + 1, a, left =>
    if left < 64 then .error (.badHandle, 3)
    else
      match c.readWords a 8 with
      | .error k => .error (.faulted, k)
      | .ok ws =>
        match msgOf ws with
        | none => .error (.badParam, 2)
        | some m =>
          if left < (msgSize m) then .error (.badHandle, 3)
          else
            match c.readBytes (a + 64) (if m.kind = 1 then m.len else 0) with
            | .error k => .error (.faulted, k)
            | .ok bs =>
              match Core.slotRecords c n (a + (msgSize m)) (left - (msgSize m)) with
              | .error e => .error e
              | .ok l => .ok ({ m with payload := bs } :: l)

/-- A send slot read and checked (R243, Table 09-6); while no reader has announced its ring the size of the ring is not
known yet. A binding whose channel was closed and opened again by the context since the launch reads the slot of the new route:
the spec does not say (DESIGN CHOICE, notes/assumptions/93). -/
def Core.slotRead (c : Core) (t : ChanTx) (node : Nat) : Except (Status × Nat) (List MsgRec) :=
  let off := (node - t.first) * 2 ^ t.slotLog2
  if t.areaLen < off + 64 then .error (.badHandle, 3)
  else
    match c.readWords (t.areaAt + off) 8 with
    | .error k => .error (.faulted, k)
    | .ok ws =>
      if strayBits ws [fields [(7, 0)]] then .error (.badParam, 2)
      else
        match c.slotRecords (fld (ws.getD 0 0) 0 8) (t.areaAt + off + 64) (t.areaLen - off - 64) with
        | .error e => .error e
        | .ok l =>
          if t.st = .opened ∧ l.any fun m => decide (2 ^ t.ringLog2 < (msgSize m)) then .error (.badParam, 2) else .ok l

/-- Whether a lower channel still has a slot or a record of a task to send (R242). -/
def Core.sendsBelow (c : Core) (n : Nat) (ref : TaskRef) : Bool :=
  c.chans.any fun h => decide (h.1 < n) && match h.2.tx with
    | some t => (t.slots.any fun s => s.2 == ref) || t.waiting.any fun w => w.task == ref
    | none => false

/-- The oldest slot of a channel is read, in a DCLK after that of the deferral, so that the slots of one DCLK stand in their order
(R244): its records wait to be sent, or its task faults (R243). A read that waits for a write to its line is made later (R33). -/
def Core.readSlot (c : Core) (n : Nat) : Core :=
  let h := c.chan n
  match h.tx with
  | none => c
  | some t =>
    match t.slots with
    | [] => c
    | (d, ref) :: rest =>
      if c.dclk ≤ d || c.sendsBelow n ref then c
      else
        match c.slotRead t ref.node with
        | .error e => if e = (.faulted, heldCode) then c else c.faultPlain ref e.1 e.2
        | .ok l =>
          let ws := l.zipIdx.map fun m => ({ task := ref, index := m.2, tried := false, stalled := false, msg := m.1 } : TxRec)
          (c.setChan n { h with tx := some { t with slots := rest, waiting := t.waiting ++ ws } }).undefer ref

/-- SEND_SLOT_READ (R243). -/
def execSendSlotRead (n : Nat) (s : State) : Host.Outcome State Fault Refusal :=
  if n < 4096 then onRun s fun _ c => c.readSlot n else .next s

/-- The record at the front of a channel has to wait for a reader or for space. -/
def Core.stallSend (c : Core) (n : Nat) (t : ChanTx) (w : TxRec) (rest : List TxRec) : Core :=
  c.setChan n { c.chan n with tx := some { t with waiting := { w with tried := true } :: rest } }

/-- A record that had to wait in this DCLK leaves in a later one: it counts once (Tables 09-12, 09-16). -/
def Core.stallCount (c : Core) (n : Nat) : Core :=
  let h := c.chan n
  match h.tx with
  | none => c
  | some t =>
    match t.waiting with
    | [] => c
    | w :: rest =>
      if w.tried && !w.stalled then
        let k := sat32 h.stalls 1
        let c1 := c.setChan n { h with stalls := k, tx := some { t with waiting := { w with stalled := true } :: rest } }
        if t.stallLimit ≠ 0 ∧ k = t.stallLimit ∧ h.stalls ≠ k then c1.setChanEvt n 2 t.ctx else c1
      else c

/-- A refused send: refused and its flag, and the task faults with the index of the message (R241). A task of an instance that is
cancelled or faulted does not fault; it ends once nothing of it is out (R243). -/
def Core.refuseSend (c : Core) (n ctx : Nat) (ref : TaskRef) (index reason : Nat) : Core :=
  let h := c.chan n
  let c1 := (c.setChan n { h with refused := sat32 h.refused 1 }).setChanEvt n 1 ctx
  (if c1.stoppingRef ref then c1 else c1.faultTask ref .refusedClosed reason 0 index).settle ref.ctx ref.tag

/-- The pad that a record of r bytes needs at count wr of a ring (R237). -/
def padFor (ring wr r : Nat) : Nat := if ring < wr % ring + r then ring - wr % ring else 0

/-- A record leaves with its pad (R237, R243, R244). -/
def Core.sendRecord (c : Core) (n : Nat) (t : ChanTx) (w : TxRec) (rest : List TxRec) (pad : Nat) : Core :=
  let h := c.chan n
  let data := w.msg.kind == 1
  let c1 := c.setChan n { h with
    txMsgs := sat64 h.txMsgs 1, txBytes := if data then sat64 h.txBytes w.msg.len else h.txBytes,
    tx := some { t with wr := (t.wr + pad + (msgSize w.msg)) % 2 ^ 64, waiting := rest, sentRecs := t.sentRecs + 1,
                        sent := t.sent ++ [(t.epoch, w)] } }
  let c2 := if t.first < t.last then c1.ndInc t.ctx 1 else c1
  c2.sendFrame t.ctx t.destPos
    (.chan { toChan := t.destChan, fromPos := c.myLogical.getD 0, fromChan := n, body := .record t.epoch pad w.msg w.index })

/-- The turn of the record at the front of a channel (R237, R240, R241). -/
def Core.messageTurn (c : Core) (n : Nat) : Core :=
  match (c.chan n).tx with
  | none => c
  | some t =>
    match t.waiting with
    | [] => c
    | w :: rest =>
      match t.st with
      | .noReader => c.stallSend n t w rest
      | .closed => c.refuseSend n t.ctx w.task w.index t.reason
      | .opened =>
        let ring := 2 ^ t.ringLog2
        if t.ringLog2 = 0 then c.stallSend n t w rest   -- an end restored OPEN before any reader announced its ring
        else if t.waiting.any fun x => x.task == w.task && decide (ring < (msgSize x.msg)) then c.faultPlain w.task .badParam 2
        else
          let pad := padFor ring t.wr (msgSize w.msg)
          if pad + (msgSize w.msg) ≤ ring - diff64 t.wr t.consumed then c.sendRecord n t w rest pad
          else c.stallSend n t w rest

/-- MESSAGE_SEND (R237). -/
def execMessageSend (n : Nat) (s : State) : Host.Outcome State Fault Refusal :=
  if n < 4096 then onRun s fun _ c => c.messageTurn n else .next s

/-! Arrivals -/

/-- Whether a RESTORE covers a context until its resume count: frames for it are discarded and not counted (R357). -/
def Core.restoring (c : Core) (n : Nat) : Bool := match c.clip.restore with | some r => bitAt r.mask n | none => false

/-- A channel frame has arrived for a context, or for an end that no context holds (R347). -/
def Core.countChan (c : Core) (owner : Option Nat) : Core :=
  match owner with
  | some n => c.countRx n
  | none => if c.anyBound then { c with clip := { c.clip with rx := c.clip.rx + 1 } } else c

/-- A channel frame of a kind that has arrived here. -/
def Core.chanFrame (c : Core) (kind : ChanBody → Bool) (a : Arrival) : Core × Option ChanMsg :=
  let x := c.arrive (fun p => match p with | .chan m => kind m.body | _ => false) a
  match x.2 with
  | some f => match f.payload with | .chan m => (x.1, some m) | _ => (x.1, none)
  | none => (x.1, none)

/-! The receive ring (R235 to R238) -/

/-- The eight words of the header of a record at the receive end (Table 09-3). -/
def msgHeader (m : MsgRec) (seq epoch srcChan srcPos : Nat) : List W64 :=
  [w64 (seq % 2 ^ 16 * 2 ^ 48 + epoch % 2 ^ 16 * 2 ^ 32 + m.fenceChan % 2 ^ 12 * 2 ^ 16 + bitW 8 m.fenceEn
        + m.handler % 16 * 2 ^ 4 + m.kind % 8),
   w64 (m.len % 2 ^ 21), m.fence, w64 (m.sig % 2 ^ 12), m.value, m.user,
   w64 (srcChan % 2 ^ 12 * 2 ^ 16 + srcPos % 2 ^ 16), 0]

/-- The header of a PAD record: the fields that a sender writes, and its seq, are stated for no PAD: free values
(notes/assumptions/4). -/
def Core.padHeader (c : Core) (pad epoch : Nat) (r : ChanRx) : List W64 × Core :=
  let a := c.drawWord
  let b := a.2.drawWord
  let d := b.2.drawWord
  let e := d.2.drawWord
  let g := e.2.drawWord
  ([(a.1 &&& fields [(63, 48), (27, 16), (8, 8), (7, 4)]) ||| w64 (epoch % 2 ^ 16 * 2 ^ 32 + 3), w64 pad, b.1,
    d.1 &&& fields [(11, 0)], e.1, g.1, w64 (r.srcChan % 2 ^ 12 * 2 ^ 16 + r.srcPos % 2 ^ 16), 0], g.2)

/-- The record at the front of a receive end replaced. -/
def Core.setHead (c : Core) (n : Nat) (r : ChanRx) (x : RxRec) (rest : List RxRec) : Core :=
  c.setChan n { c.chan n with rx := some { r with recs := x :: rest } }

/-- The bytes that words spell. -/
def wordsBytes (ws : List W64) : List Byte := ws.flatMap wordBytes

/-- The header write of the record at the front, once its payload lines are acknowledged (R238). -/
def Core.rxHeader (c : Core) (n : Nat) : Core :=
  let h := c.chan n
  match h.rx with
  | none => c
  | some r =>
    match r.recs with
    | [] => c
    | x :: rest =>
      if x.stage = .payload ∧ !c.reelServing (fun s => s == .chanPayload n) then
        (c.setHead n r { x with stage := .header } rest).reelWrite (r.ringAt + x.offset)
          (wordsBytes (msgHeader x.msg x.seq h.epoch r.srcChan r.srcPos)) (.chanHeader n)
      else c

/-- The record at the front begins to be written: the pad before it and its payload lines (R237, R238). -/
def Core.rxStart (c : Core) (n : Nat) : Core :=
  let h := c.chan n
  match h.rx with
  | none => c
  | some r =>
    match r.recs with
    | [] => c
    | x :: rest =>
      if x.stage = .queued then
        let c1 := c.setHead n r { x with stage := .payload } rest
        let c2 := if x.pad = 0 then c1
          else
            let p := c1.padHeader x.pad h.epoch r
            p.2.reelWrite (r.ringAt + 2 ^ r.ringLog2 - x.pad) (wordsBytes p.1) (.chanPayload n)
        let c3 := if (msgSize x.msg) ≤ 64 then c2
          else c2.reelWrite (r.ringAt + x.offset + 64)
            (x.msg.payload.take x.msg.len ++ List.replicate ((msgSize x.msg) - 64 - (x.msg.payload.take x.msg.len).length) 0)
            (.chanPayload n)
        c3.rxHeader n
      else c

/-- The record at the front of a receive end whose header write is acknowledged. -/
def ChanRx.acked (r : ChanRx) : ChanRx :=
  match r.recs with
  | [] => r
  | x :: rest => if x.stage = .header then { r with recs := { x with stage := .written } :: rest } else r

/-- The header write is acknowledged: the record is delivered in this DCLK (R238), also where its end closes in it (R241). -/
def Core.rxWritten (c : Core) (n : Nat) : Core :=
  let h := c.chan n
  if c.reelServing fun s => s == .chanHeader n then c
  else c.setChan n { h with rx := h.rx.map ChanRx.acked, closing := h.closing.map fun k => { k with rx := k.rx.acked } }

/-- The record at the front has been dealt with; the next one begins. -/
def Core.rxNext (c : Core) (n : Nat) : Core :=
  let h := c.chan n
  (c.setChan n { h with rx := h.rx.map fun r => { r with recs := r.recs.drop 1 } }).rxStart n

/-- The place of a record at a receive end (R236, R237). -/
def ChanRx.take (r : ChanRx) (m : MsgRec) : ChanRx :=
  let ring := 2 ^ r.ringLog2
  let pad := padFor ring r.wr (msgSize m)
  { r with wr := (r.wr + pad + (msgSize m)) % 2 ^ 64, seqNext := (r.seqNext + 1) % 2 ^ 16,
           recs := r.recs ++ [{ pad := pad, offset := (r.wr + pad) % ring, seq := r.seqNext, stage := .queued,
                                heldIt := false, metAt := none, msg := m }] }

/-- The first context bound to the slice. -/
def Core.boundCtx (c : Core) : Nat := (findBelow 64 c.bound).getD 0

/-- A record has arrived (R238, R241, R357). -/
def Core.recordIn (c : Core) (m : ChanMsg) (epoch : Nat) (msg : MsgRec) : Core :=
  let h := c.chan m.toChan
  match h.rx with
  | none =>
    match h.closing with
    | some k =>
      (c.countChan none).setChan m.toChan { h with closing := some { k with late := k.late ++ [(m.fromPos, m.fromChan, epoch)] } }
    | none =>
      (c.countChan none).chanDiscard m.toChan c.boundCtx m.fromPos m.fromChan epoch
        (if h.lastReason = 0 then 3 else h.lastReason)
  | some r =>
    if c.restoring r.ctx then c
    else
      let c1 := c.countChan (some r.ctx)
      if epoch = h.epoch ∧ m.fromPos = r.srcPos ∧ m.fromChan = r.srcChan ∧ (msgSize msg) ≤ 2 ^ r.ringLog2 then
        (c1.setChan m.toChan { c1.chan m.toChan with rx := some (r.take msg) }).rxStart m.toChan
      else c1.chanDiscard m.toChan r.ctx m.fromPos m.fromChan epoch 3

/-- CHANNEL_RECORD (R238, R241). -/
def execChannelRecord (a : Arrival) (s : State) : Host.Outcome State Fault Refusal :=
  if a.wf then
    onRun s fun _ c =>
      match c.chanFrame (fun b => match b with | .record _ _ _ _ => true | _ => false) a with
      | (c1, some m) => match m.body with | .record e _ msg _ => c1.recordIn m e msg | _ => c1
      | (c1, none) => c1
  else .next s

/-! Delivery (R245 to R247) -/

/-- The template node of the handler that a record names, if it names one (R247). -/
def ChanRx.handlerOf (r : ChanRx) (m : MsgRec) : Option Nat :=
  if m.kind ≠ 1 ∨ m.handler = 0 then none
  else
    let t := r.handlers.getD (m.handler - 1) noHandler
    if t = noHandler then none else some t

/-- The record at the front is delivered: counts, and the credit that tells its sender (R239, R245). The spec does not say how a
send end learns that a record was delivered (R243): here a CREDIT notice with a count of them follows each delivery (DESIGN
CHOICE, notes/assumptions/92). -/
def Core.deliver (c : Core) (n : Nat) : Core :=
  let h := c.chan n
  match h.rx with
  | none => c
  | some r =>
    match r.recs with
    | [] => c
    | x :: rest =>
      if x.stage = .written then
        let r1 := { r with dlvd := r.dlvd + 1, recs := { x with stage := .handler } :: rest }
        let c1 := c.setChan n ({ h with rx := some r1 }.counted x)
        let c2 := c1.chanNotice n r1 (.credit h.epoch r1.consumed r1.dlvd)
        if x.msg.kind == 1 && (r.handlerOf x.msg).isNone then c2.rxNext n else c2
      else c

/-- A record whose header write was acknowledged in this DCLK is delivered in it (R238). -/
def Core.deliverAll (c : Core) : Core := (c.chans.map Prod.fst).foldl Core.deliver c

/-- Records that had to wait in this DCLK count at its end. -/
def Core.stallsEnd (c : Core) : Core := (c.chans.map Prod.fst).foldl Core.stallCount c

/-- RECORD_DELIVERED (R245). -/
def execRecordDelivered (n : Nat) (s : State) : Host.Outcome State Fault Refusal :=
  if n < 4096 then onRun s fun _ c => c.deliver n else .next s

/-- Whether the fence of a signal of a receiving context is met (R245). -/
def Core.fencePassed (c : Core) (m : MsgRec) : Bool :=
  !m.fenceEn || decide (m.fence.toNat ≤ (c.chan m.fenceChan).rxBytes)

/-- The status and reason with which a signal goes to the stash (R246). -/
def Core.signalBad (c : Core) (ctx : Nat) (m : MsgRec) : Option (Status × Nat) :=
  if !c.sigIn ctx m.sig then some (.badParam, 2)
  else if m.fenceEn && (c.chan m.fenceChan).rx.map (·.ctx) != some ctx then some (.stateError, 4)
  else none

/-- At the end of a DCLK the fences of the signals at the front are looked at; a signal that has to wait counts as held, but one
that goes to the stash is never held (R245, R246). -/
def Core.fenceTick (c : Core) : Core :=
  { c with chans := c.chans.map fun (p : Nat × Chan) =>
      match p.2.rx with
      | none => p
      | some r =>
        match r.recs with
        | [] => p
        | x :: rest =>
          if x.stage == .handler && x.msg.kind == 2 && x.metAt.isNone && (c.signalBad r.ctx x.msg).isNone then
            if c.fencePassed x.msg then (p.1, { p.2 with rx := some { r with recs := { x with metAt := some c.dclk } :: rest } })
            else if x.heldIt then p
            else (p.1, { p.2 with held := sat32 p.2.held 1, rx := some { r with recs := { x with heldIt := true } :: rest } })
          else p }

/-- A SIGNAL at the front of a receive end is applied, or goes to the stash (R245, R246). -/
def Core.applySignal (c : Core) (n : Nat) : Core :=
  match (c.chan n).rx with
  | none => c
  | some r =>
    match r.recs with
    | [] => c
    | x :: _ =>
      if x.stage == .handler && x.msg.kind == 2 && !(c.stash.waiting.any fun w => w.2 == .chan n) then
        match c.signalBad r.ctx x.msg with
        | some e =>
          let item : StashItem := { tag := 0, status := e.1, reason := e.2, source := 5, ctx := r.ctx,
                                    target := w64 (n * 2 ^ 32 + x.msg.sig), value := x.msg.value }
          let y := (c.setChanEvt n 4 r.ctx).stashPut item (.chan n)
          if y.2 then y.1.rxNext n else y.1
        | none =>
          match x.metAt with
          | some d => if d < c.dclk then (c.sigAdd x.msg.sig x.msg.value).rxNext n else c
          | none => c
      else c

/-- SIGNAL_APPLY (R245, R246). -/
def execSignalApply (n : Nat) (s : State) : Host.Outcome State Fault Refusal :=
  if n < 4096 then onRun s fun _ c => c.applySignal n else .next s

/-- The unfinished instance that can take a handler task (R247). -/
def Core.handlerRun (c : Core) (r : ChanRx) : Option Run :=
  match c.skein r.ctx r.skein with
  | none => none
  | some k => c.graph.runs.find? fun q =>
      q.ctx == r.ctx && q.skein == r.skein && q.kind == .launch && decide (q.dynNext < k.enqLimit)

/-- The handler task of the record at the front is created, or waits for an instance that can take it (R247). -/
def Core.handlerStep (c : Core) (n : Nat) : Core :=
  let h := c.chan n
  match h.rx with
  | none => c
  | some r =>
    match r.recs with
    | [] => c
    | x :: rest =>
      match r.handlerOf x.msg with
      | none => c
      | some t =>
        if x.stage = .handler then
          match c.handlerRun r with
          | some q => (c.createDyn q.ctx q.tag .handler (t, x.offset, 0)).rxNext n
          | none => if x.heldIt then c else (c.setHead n r { x with heldIt := true } rest).setChanEvt n 3 r.ctx
        else c

/-- HANDLER_CREATE (R247). -/
def execHandlerCreate (n : Nat) (s : State) : Host.Outcome State Fault Refusal :=
  if n < 4096 then onRun s fun _ c => c.handlerStep n else .next s

/-! Notices at the send end (R239 to R241) -/

/-- A notice for an open send end from the receive end its route names: it is counted, and handed over. -/
def Core.onNotice (c : Core) (m : ChanMsg) (f : Core → Chan → ChanTx → Core) : Core :=
  let h := c.chan m.toChan
  match h.tx with
  | none => c.countChan none
  | some t =>
    if c.restoring t.ctx then c
    else if m.fromPos = t.destPos ∧ m.fromChan = t.destChan then f (c.countChan (some t.ctx)) h t
    else c.countChan (some t.ctx)

/-- Records out are refused (R241): of a send end, those with an epoch. -/
def Core.refuseOut (c : Core) (n : Nat) (epoch reason : Nat) : Core :=
  let h := c.chan n
  match h.tx with
  | none => c
  | some t =>
    let gone := t.sent.filter fun s => s.1 == epoch
    let c1 := c.setChan n { h with tx := some { t with sent := t.sent.filter fun s => s.1 != epoch } }
    gone.foldl (fun d s => d.refuseSend n t.ctx s.2.task s.2.index reason) c1

/-- An OPEN notice (Table 09-4): epoch, ring size and credit are taken from it. The spec does not say which of two epochs modulo 2^16 is
the newer: any other than the present one is taken as newer (DESIGN CHOICE, notes/assumptions/91). -/
def Core.openIn (c : Core) (n epoch ringLog2 : Nat) (t : ChanTx) : Core :=
  let c1 := if t.st = .opened ∧ epoch ≠ t.epoch then c.refuseOut n t.epoch 3 else c
  let h := c1.chan n
  c1.setChan n { h with tx := h.tx.map fun x =>
    { x with st := .opened, epoch := epoch, ringLog2 := ringLog2, wr := 0, consumed := 0, delivered := 0, sentRecs := 0 } }

/-- OPEN_NOTICE (R240). -/
def execOpenNotice (a : Arrival) (s : State) : Host.Outcome State Fault Refusal :=
  if a.wf then
    onRun s fun _ c =>
      match c.chanFrame (fun b => match b with | .openNotice _ _ => true | _ => false) a with
      | (c1, some m) =>
        match m.body with
        | .openNotice e l => c1.onNotice m fun d _ t => if t.st = .opened ∧ e = t.epoch then d else d.openIn m.toChan e l t
        | _ => c1
      | (c1, none) => c1
  else .next s

/-- CLOSE_NOTICE (R240): an OPEN send end is CLOSED and keeps the reason. -/
def execCloseNotice (a : Arrival) (s : State) : Host.Outcome State Fault Refusal :=
  if a.wf then
    onRun s fun _ c =>
      match c.chanFrame (fun b => match b with | .closeNotice _ => true | _ => false) a with
      | (c1, some m) =>
        match m.body with
        | .closeNotice r => c1.onNotice m fun d h t =>
            if t.st = .opened then d.setChan m.toChan { h with tx := some { t with st := .closed, reason := r } } else d
        | _ => c1
      | (c1, none) => c1
  else .next s

/-- A credit of the present reader: what it has consumed, and the oldest records out that are now delivered (R239,
R243). -/
def Core.creditIn (c : Core) (n : Nat) (h : Chan) (t : ChanTx) (consumed delivered : Nat) : Core :=
  let k := delivered - t.delivered
  let mine := t.sent.filter fun s => s.1 == t.epoch
  let others := t.sent.filter fun s => s.1 != t.epoch
  let newer := diff64 consumed t.consumed ≤ diff64 t.wr t.consumed
  let c1 := c.setChan n { h with tx := some { t with consumed := if newer then consumed else t.consumed, delivered := max t.delivered delivered,
                                                     sent := others ++ mine.drop k } }
  (mine.take k).foldl (fun d s => (d.undefer s.2.task).settle s.2.task.ctx s.2.task.tag) c1

/-- CREDIT_NOTICE (R239). -/
def execCreditNotice (a : Arrival) (s : State) : Host.Outcome State Fault Refusal :=
  if a.wf then
    onRun s fun _ c =>
      match c.chanFrame (fun b => match b with | .credit _ _ _ => true | _ => false) a with
      | (c1, some m) =>
        match m.body with
        | .credit e k dl => c1.onNotice m fun d h t => if e = t.epoch then d.creditIn m.toChan h t k dl else d
        | _ => c1
      | (c1, none) => c1
  else .next s

/-- A refusal of the oldest record out of an epoch; one of which no record is out is discarded (R241, R357). -/
def Core.refusalIn (c : Core) (n : Nat) (h : Chan) (t : ChanTx) (epoch reason : Nat) : Core :=
  match t.sent.find? fun s => s.1 == epoch with
  | none => c
  | some s =>
    (c.setChan n { h with tx := some { t with sent := removeFirst (fun x => x.1 == epoch) t.sent } }).refuseSend n t.ctx
      s.2.task s.2.index reason

/-- SEND_REFUSAL (R241). -/
def execSendRefusal (a : Arrival) (s : State) : Host.Outcome State Fault Refusal :=
  if a.wf then
    onRun s fun _ c =>
      match c.chanFrame (fun b => match b with | .refusal _ _ => true | _ => false) a with
      | (c1, some m) =>
        match m.body with
        | .refusal e r => c1.onNotice m fun d h t => d.refusalIn m.toChan h t e r
        | _ => c1
      | (c1, none) => c1
  else .next s

/-! The consumed word (R236) -/

/-- An event is logged of which the spec names neither the class nor the words: a record of a class of Table 13-1 (R323), which one
and with what words being free values (notes/assumptions/4). -/
def Core.logOpen (c : Core) : Core :=
  let a := c.drawWord
  let b := a.2.drawWord
  let d := b.2.drawWord
  let e := d.2.drawWord
  e.2.logRaw (1 + a.1.toNat % 13) b.1 d.1 e.1

/-- A value of the consumed word is taken: one that runs backwards or past wr leaves it as it is (R236, R239). -/
def Core.consumedIn (c : Core) (n : Nat) (v : W64) : Core :=
  let h := c.chan n
  match h.rx with
  | none => c
  | some r =>
    if diff64 r.wr r.consumed < diff64 v.toNat r.consumed then c.logOpen
    else if v.toNat = r.consumed then c
    else
      let r1 := { r with consumed := v.toNat }
      (c.setChan n { h with rx := some r1 }).chanNotice n r1 (.credit h.epoch r1.consumed r1.dlvd)

/-- A read of the consumed word; while one is outstanding another is owed, since that one may have passed what is new. -/
def Core.readConsumed (c : Core) (n : Nat) (r : ChanRx) : Core :=
  if c.reelServing fun s => s == .consumed n then c.setChan n { c.chan n with rx := some { r with due := true } }
  else
    Core.reelRead (c.setChan n { c.chan n with rx := some { r with nextPoll := c.now + c.pollTime, due := false } }) r.consAt
      (.consumed n)

/-- A read of the consumed word that faulted: it is logged, and made again at the next interval (R236). -/
def Core.consumedBad (c : Core) (n : Nat) (r : ChanRx) : Core :=
  (c.setChan n { c.chan n with rx := some { r with due := true, nextPoll := c.now + c.pollTime } }).logOpen

/-- CONSUMED_WORD_READ (R236): a poll interval has passed while written bytes are unconsumed or a read is owed. -/
def execConsumedWordRead (n : Nat) (s : State) : Host.Outcome State Fault Refusal :=
  if n < 4096 then
    onRun s fun _ c =>
      match (c.chan n).rx with
      | none => c
      | some r => if r.polling && decide (r.nextPoll ≤ c.now) && (r.due || r.consumed != r.wr) then c.readConsumed n r else c
  else .next s

end Sys2Proof.Machine
end

