-- ==== Sys2Proof/Machine/Fp.lean ====
section
/-! DEFINITION. Arithmetic on the formats of Table 10-4: floating-point values as exact multiples of 2^-149, rounding to
nearest even, FP32 addition and division (07 R193, R195; 10 R261, R262, R264). -/

namespace Sys2Proof.Machine

/-- A floating-point value: NaN, an infinity, or a sign and a magnitude in units of 2^-149. -/
inductive FVal where
  | nan
  | inf (neg : Bool)
  | fin (neg : Bool) (mag : Nat)
  deriving DecidableEq, Repr

/-- A floating format: significand bits, the exponent field's width, the power of two of its smallest subnormal in units of
2^-149. -/
structure FFmt where
  p    : Nat
  e    : Nat
  unit : Nat
  deriving DecidableEq, Repr

/-- FP32. -/
def fp32 : FFmt := ⟨23, 8, 0⟩
/-- BF16. -/
def bf16 : FFmt := ⟨7, 8, 16⟩
/-- FP16. -/
def fp16 : FFmt := ⟨10, 5, 125⟩
/-- E5M2. -/
def e5m2 : FFmt := ⟨2, 5, 133⟩
/-- E4M3, whose highest exponent is an ordinary one but for its NaN pattern (R261). -/
def e4m3 : FFmt := ⟨3, 4, 140⟩

/-- The sign of a pattern. -/
def FFmt.neg (f : FFmt) (w : Nat) : Bool := w.testBit (f.p + f.e)

/-- The magnitude that an exponent field and a fraction give. -/
def FFmt.magOf (f : FFmt) (x m : Nat) : Nat := if x = 0 then m * 2 ^ f.unit else (2 ^ f.p + m) * 2 ^ (f.unit + x - 1)

/-- The value of a pattern, in a format whose highest exponent holds the infinities and NaNs. -/
def FFmt.decode (f : FFmt) (w : Nat) : FVal :=
  let m := w % 2 ^ f.p
  let x := w / 2 ^ f.p % 2 ^ f.e
  if x = 2 ^ f.e - 1 then (if m = 0 then .inf (f.neg w) else .nan) else .fin (f.neg w) (f.magOf x m)

/-- The value of an E4M3 pattern (R261). -/
def decodeE4m3 (w : Nat) : FVal :=
  if w % 128 = 127 then .nan else .fin (e4m3.neg w) (e4m3.magOf (w / 8 % 16) (w % 8))

/-- The value of an element of a floating format of Table 10-4. -/
def decodeFmt (fmt w : Nat) : FVal :=
  match fmt with
  | 0 => fp32.decode w
  | 1 => bf16.decode w
  | 2 => fp16.decode w
  | 3 => decodeE4m3 w
  | _ => e5m2.decode w

/-- The sign bit of a format in its place. -/
def FFmt.signBit (f : FFmt) (neg : Bool) : Nat := b2n neg * 2 ^ (f.p + f.e)

/-- The pattern of a positive infinity. -/
def FFmt.infBits (f : FFmt) : Nat := (2 ^ f.e - 1) * 2 ^ f.p

/-- The quotient of two numbers, rounded to nearest even. -/
def divRne (n d : Nat) : Nat :=
  let q := n / d
  let r := n % d
  if d < 2 * r ∨ (2 * r = d ∧ q % 2 = 1) then q + 1 else q

/-- The magnitude num / den rounded to nearest even in a format: its pattern, and whether it lies beyond the range. -/
def FFmt.round (f : FFmt) (num den : Nat) : Nat × Bool :=
  let k := max f.unit (Nat.log2 (num / den) - f.p)
  let w := (k - f.unit) * 2 ^ f.p + divRne num (den * 2 ^ k)
  if f.infBits ≤ w then (f.infBits, true) else (w, false)

/-- The canonical NaN of FP32, BF16 and FP16 (R261). -/
def FFmt.nanBits (f : FFmt) : Nat := f.infBits + 2 ^ (f.p - 1)

/-- A value in a format, rounded to nearest even, and whether a finite value became an infinity. -/
def FFmt.encode (f : FFmt) : FVal → Nat × Bool
  | .nan => (f.nanBits, false)
  | .inf n => (f.signBit n + f.infBits, false)
  | .fin n m => let r := f.round m 1; (f.signBit n + r.1, r.2)

/-- The exact sum of two finite values: a zero sum is -0 only of two -0 (R261). -/
def addFin (n1 : Bool) (m1 : Nat) (n2 : Bool) (m2 : Nat) : FVal :=
  let s := (if n1 then -(m1 : Int) else (m1 : Int)) + (if n2 then -(m2 : Int) else (m2 : Int))
  if s = 0 then .fin (n1 && n2 && m1 == 0 && m2 == 0) 0 else .fin (decide (s < 0)) s.natAbs

/-- FP32 addition of two patterns under round-to-nearest-even (R195, R261), and whether finite operands became an
infinity. -/
def fpAdd (a b : Nat) : Nat × Bool :=
  match fp32.decode a, fp32.decode b with
  | .nan, _ => (fp32.nanBits, false)
  | _, .nan => (fp32.nanBits, false)
  | .inf x, .inf y => if x = y then (fp32.signBit x + fp32.infBits, false) else (fp32.nanBits, false)
  | .inf x, .fin _ _ => (fp32.signBit x + fp32.infBits, false)
  | .fin _ _, .inf y => (fp32.signBit y + fp32.infBits, false)
  | .fin x m, .fin y n => fp32.encode (addFin x m y n)

/-- A finite FP32 pattern divided by a positive finite one under round-to-nearest-even (R195). -/
def fpDiv (a b : Nat) : Nat :=
  match fp32.decode a, fp32.decode b with
  | .fin x m, .fin _ n => fp32.signBit x + (fp32.round (m * 2 ^ 149) n).1
  | _, _ => 0

/-- The place of a value among the real numbers, none for NaN; -0 and +0 share a place (R193). -/
def FVal.key : FVal → Option Int
  | .nan => none
  | .inf n => some (if n then -(2 ^ 300) else 2 ^ 300)
  | .fin n m => some (if n then -(m : Int) else (m : Int))

/-- Whether a value is NaN. -/
def FVal.isNan : FVal → Bool
  | .nan => true
  | _ => false

/-- Whether an FP32 pattern is NaN. -/
def fpNan (w : Nat) : Bool := (fp32.decode w).isNan

end Sys2Proof.Machine
end

