-- ==== Sys2Proof/Machine/PlyNode.lean ====
section
/-! DEFINITION. The elements of a reduction and their combination (10 R251, R261 to R265): terms, nodes, the fragments of a run of
leaves, and segments (R253). -/

namespace Sys2Proof.Machine

/-! Elements -/

/-- Whether a format is a floating one: FIX320 holds a floating sum. -/
def floatFmt (f : Nat) : Bool := decide (f ≤ 4) || f == 9

/-- An element that no leaf gives. -/
def Partial.none_ : Partial :=
  { present := false, canon := 0, acc := 0, posInf := false, negInf := false, nan := false, allNegZero := false }

/-- A finite, infinite or NaN term of an exact sum (R262). -/
def exactTerm (v : FVal) (canon : BitVec 32) : Partial :=
  match v with
  | .nan => { Partial.none_ with present := true, canon := canon, nan := true }
  | .inf n => { Partial.none_ with present := true, canon := canon, posInf := !n, negInf := n }
  | .fin n m => { Partial.none_ with present := true, canon := canon, acc := if n then -(m : Int) else (m : Int),
                                     allNegZero := n && m == 0 }

/-- An FP32 pattern for a value of a narrower format: exact (R261). -/
def widen (fmt w : Nat) : Nat :=
  match fmt with
  | 0 => w
  | 1 => w * 65536
  | f => (fp32.encode (decodeFmt f w)).1

/-- A FIX320 element of 64 bytes (R263). -/
def fixTerm (bs : List Byte) : Partial :=
  let a := bytesNat (bs.take 40)
  let f := (bs.getD 40 0).toNat
  let stray := f / 32 != 0 || (bs.drop 41).any fun b => b != 0
  { present := f.testBit 4, canon := 0, acc := if a < 2 ^ 319 then (a : Int) else (a : Int) - 2 ^ 320,
    posInf := f.testBit 0, negInf := f.testBit 1, nan := f.testBit 2 || stray, allNegZero := f.testBit 3 }

/-- The value of an integer element. -/
def intOf (fmt w : Nat) : Int :=
  match fmt with
  | 5 => signed 32 w
  | 6 => signed 8 w
  | _ => (w : Int)

/-- An element of an input format as a present term of a reduction. -/
def termOf (fmt : Nat) (bs : List Byte) : Partial :=
  let w := bytesNat bs
  if fmt = 9 then fixTerm bs
  else if floatFmt fmt then exactTerm (decodeFmt fmt w) (BitVec.ofNat 32 (widen fmt w))
  else { Partial.none_ with present := true, canon := BitVec.ofInt 32 (intOf fmt w), acc := intOf fmt w }

/-- Whether a term is NaN. -/
def partNan (fmt : Nat) (p : Partial) : Bool := p.present && floatFmt fmt && p.nan

/-! Combination at a node (R251, R261, R262, R264, R265) -/

/-- The sum of two 320-bit accumulators: what leaves their range sets the infinity of its sign (R262). -/
def fixAdd (a b : Partial) : Partial × Bool :=
  let s := a.acc + b.acc
  let big := decide (s < -(2 ^ 319)) || decide (2 ^ 319 ≤ s)
  ({ present := true, canon := 0, acc := if big then signed 320 (twos 320 s) else s,
     posInf := a.posInf || b.posInf || (big && decide (0 < s)), negInf := a.negInf || b.negInf || (big && decide (s < 0)),
     nan := a.nan || b.nan, allNegZero := a.allNegZero && b.allNegZero }, big)

/-- The place of an FP32 pattern among the real numbers with +0 above -0 (R264). -/
def fpOrder (w : Nat) : Int := if w < 2 ^ 31 then (w : Int) else -((w : Int) - 2 ^ 31) - 1

/-- The place of an operand of MAX and MIN. -/
def orderOf (fmt : Nat) (p : Partial) : Int := if floatFmt fmt then fpOrder p.canon.toNat else p.acc

/-- MAX or MIN of two present terms (R264). -/
def pickTerm (fn fmt : Nat) (a b : Partial) : Partial :=
  if floatFmt fmt ∧ (a.nan || b.nan) then { (if a.nan then a else b) with canon := BitVec.ofNat 32 fp32.nanBits }
  else if fn = 1 then (if orderOf fmt a < orderOf fmt b then b else a)
  else (if orderOf fmt b < orderOf fmt a then b else a)

/-- Two present terms at a node: the node's value, NAN and OVF. -/
def joinTerms (fn : Nat) (exact : Bool) (fmt : Nat) (a b : Partial) : Partial × Bool × Bool :=
  if fn ≠ 0 then
    let r := pickTerm fn fmt a b
    (r, partNan fmt r, false)
  else if exact then
    if floatFmt fmt then let r := fixAdd a b; (r.1, r.1.nan, r.2)
    else ({ a with acc := a.acc + b.acc }, false, false)
  else if floatFmt fmt then
    let r := fpAdd a.canon.toNat b.canon.toNat
    let bad := fpNan r.1
    ({ a with canon := BitVec.ofNat 32 r.1, nan := bad }, bad, r.2)
  else ({ a with canon := a.canon + b.canon }, false, false)

/-- Two operands at a node: one that is present passes on unchanged (R265). -/
def joinParts (fn : Nat) (exact : Bool) (fmt : Nat) (a b : Partial) : Partial × Bool × Bool :=
  if a.present && b.present then joinTerms fn exact fmt a b
  else if a.present then (a, false, false)
  else (b, false, false)

/-- A node of every element of a vector, with NAN and OVF of all that led to it. -/
abbrev NodeVec := List Partial × Bool × Bool

/-- A node from its children. -/
def joinVec (fn : Nat) (exact : Bool) (fmt : Nat) (a b : NodeVec) : NodeVec :=
  let l := List.zipWith (joinParts fn exact fmt) a.1 b.1
  (l.map (·.1), a.2.1 || b.2.1 || l.any (·.2.1), a.2.2 || b.2.2 || l.any (·.2.2))

/-- Node (v, i) from its leaves (R251). -/
def nodeOf (fn : Nat) (exact : Bool) (fmt : Nat) (leaf : Nat → NodeVec) : Nat → Nat → NodeVec
  | 0, i => leaf i
  | v + 1, i => joinVec fn exact fmt (nodeOf fn exact fmt leaf v (2 * i)) (nodeOf fn exact fmt leaf v (2 * i + 1))

/-- A vector that no leaf gives. -/
def absentVec (count : Nat) : NodeVec := (List.replicate count Partial.none_, false, false)

/-- The fragments of the run of leaves from a to b (R253). -/
def fragsOf : Nat → Nat → Nat → List (Nat × Nat)
  | 0, _, _ => []
  | fuel + 1, a, b =>
    if b ≤ a then []
    else
      let v := (((List.range 17).reverse.find? fun v => a % 2 ^ v == 0 && decide (a + 2 ^ v ≤ b))).getD 0
      (v, a / 2 ^ v) :: fragsOf fuel (a + 2 ^ v) b

/-! Segments (R253) -/

/-- How many segments of 1024 consecutive elements a vector has. -/
def segCount (count : Nat) : Nat := ceilDiv count 1024

/-- How many elements a segment of a vector has. -/
def segLen (count s : Nat) : Nat := min 1024 (count - 1024 * s)

/-- The elements of a segment of a vector. -/
def segOf (s : Nat) (l : List Partial) : List Partial := (l.drop (1024 * s)).take 1024

/-- A leaf's terms of a segment as a node of level 0. -/
def leafNode (fmt : Nat) (ps : List Partial) : NodeVec := (ps, ps.any (partNan fmt), false)

/-- The fragments of a run of leaves, segment by segment (R253). -/
def fragments (fn : Nat) (exact : Bool) (fmt count : Nat) (run : List (Nat × Nat)) (leaf : Nat → List Partial) : List PlyData :=
  (List.range (segCount count)).flatMap fun s => run.map fun x =>
    let v := nodeOf fn exact fmt (fun l => leafNode fmt (segOf s (leaf l))) x.1 x.2
    .frag x.1 x.2 s v.2.1 v.2.2 v.1

/-- The node above (v, i) at which two halves meet, each with a leaf below n; none when (v, i) already stands for the root, leaves
from n on being absent (R251, R252, R265). -/
def nodeAbove (n : Nat) : Nat → Nat → Nat → Option (Nat × Nat)
  | 0, _, _ => none
  | f + 1, v, i => if (2 * (i / 2) + 1) * 2 ^ v < n then some (v + 1, i / 2) else nodeAbove n f (v + 1) (i / 2)

end Sys2Proof.Machine
end

