-- ==== Sys2Proof/Machine/Contrib.lean ====
section
/-! DEFINITION. Contributions to collectives and to Carder exchanges (10): what of them is held, on which chip a node is computed,
how fragments rise to the root and prefixes come down (R251 to R253, R256), and what a chip has of a root (R260, R268). -/

namespace Sys2Proof.Machine

/-! What is held -/

/-- What is held of a key with these parameters. -/
def Core.heldFor (c : Core) (key : PlyKey) (params : PlyParams) : List PlyHeld :=
  c.fab.plyHeld.filter fun h => h.msg.key == key && h.msg.params == params

/-- A contribution held. -/
def Core.holdPly (c : Core) (h : PlyHeld) : Core := { c with fab := { c.fab with plyHeld := c.fab.plyHeld ++ [h] } }

/-- A contribution of this chip itself, in the present DCLK. -/
def Core.ownPly (c : Core) (m : PlyMsg) : PlyHeld := { msg := m, src := none, since := c.dclk }

/-- Whether a contribution is the fragment or node (v, i) of a segment. -/
def PlyHeld.isNode (h : PlyHeld) (v i seg : Nat) : Bool :=
  match h.msg.data with
  | .frag a b s _ _ _ => a == v && b == i && s == seg
  | _ => false

/-- The vector that a contribution carries. -/
def PlyHeld.vec (h : PlyHeld) : NodeVec :=
  match h.msg.data with
  | .frag _ _ _ nan ovf l => (l, nan, ovf)
  | .root _ nan ovf l => (l, nan, ovf)
  | .below _ _ _ nan ovf l => (l, nan, ovf)
  | .leaf _ _ _ _ _ => ([], false, false)

/-- What is held for node (v, i) of a segment: itself, or its left half where no leaf of the right half is below n (R252, R265). -/
def standIn (n : Nat) (hs : List PlyHeld) (seg : Nat) : Nat → Nat → Option PlyHeld
  | 0, i => hs.find? fun h => h.isNode 0 i seg
  | v + 1, i =>
    match hs.find? fun h => h.isNode (v + 1) i seg with
    | some h => some h
    | none => if n ≤ (2 * i + 1) * 2 ^ v then standIn n hs seg v (2 * i) else none

/-- The node that a held contribution is. -/
def PlyHeld.node (h : PlyHeld) : Nat × Nat :=
  match h.msg.data with
  | .frag v i _ _ _ _ => (v, i)
  | _ => (0, 0)

/-- The root of a segment, as far as it has come. -/
def rootSeg (hs : List PlyHeld) (seg : Nat) : Option NodeVec :=
  hs.findSome? fun h => match h.msg.data with
    | .root s _ _ _ => if s = seg then some h.vec else none
    | _ => none

/-- The prefix handed down to node (v, i) of a segment. -/
def belowSeg (hs : List PlyHeld) (v i seg : Nat) : Option NodeVec :=
  hs.findSome? fun h => match h.msg.data with
    | .below a b s _ _ _ => if a = v ∧ b = i ∧ s = seg then some h.vec else none
    | _ => none

/-- Whether the roots of some segments have come. -/
def rootsIn (hs : List PlyHeld) (segs : List Nat) : Bool := segs.all fun s => (rootSeg hs s).isSome

/-- Segments joined to one vector; one that has not come is absent. -/
def joinSegs (count : Nat) (get : Nat → Option NodeVec) : NodeVec :=
  let l := (List.range (segCount count)).map fun s => (get s).getD (absentVec (segLen count s))
  (l.flatMap (·.1), l.any (·.2.1), l.any (·.2.2))

/-- The root values of a collective. -/
def rootVec (p : PlyParams) (hs : List PlyHeld) : NodeVec := joinSegs p.count (rootSeg hs)

/-- The exclusive prefix of the lowest leaf of a run: what was handed down to its first fragment. -/
def prefixVec (p : PlyParams) (hs : List PlyHeld) (run : List (Nat × Nat)) : NodeVec :=
  match run with
  | [] => absentVec p.count
  | x :: _ => joinSegs p.count fun s => belowSeg hs x.1 x.2 s

/-- Whether every prefix that a run waits for has come. -/
def prefixesIn (p : PlyParams) (hs : List PlyHeld) (run : List (Nat × Nat)) : Bool :=
  run.all fun x => (List.range (segCount p.count)).all fun s => (belowSeg hs x.1 x.2 s).isSome

/-! Places -/

/-- The group entry that a context may name (R252). -/
def Core.groupFor (c : Core) (group ctx : Nat) : Option GroupEnt :=
  match c.groupEnt group with
  | some e => if e.ctx = ctx then some e else none
  | none => none

/-- The logical positions that share a context's collectives: those of the slice (R309). -/
def Core.plyChips (c : Core) (ctx : Nat) : List Nat :=
  match c.fab.plan with
  | none => []
  | some p => (List.range p.logCount).filter fun l => c.mayName ctx l

/-- The other positions of the slice. -/
def Core.plyPeers (c : Core) (ctx : Nat) : List Nat := (c.plyChips ctx).filter fun l => c.myLogical != some l

/-- The fragments of this chip's run of a group (R253). -/
def GroupEnt.run (e : GroupEnt) : List (Nat × Nat) := fragsOf 64 e.first (e.first + e.count)

/-- The fragments of this chip's run of the group of a key. -/
def Core.ownRun (c : Core) (key : PlyKey) : List (Nat × Nat) :=
  match c.groupEnt key.group with
  | some e => e.run
  | none => []

/-- The chip to which a node goes: where its parent is computed, a choice of Ply (R253); none for this chip, also where the node
stands for the root. -/
def Core.plyPlace (c : Core) (ctx : Nat) (m : PlyMsg) : Option Nat :=
  match m.data with
  | .frag v i seg _ _ _ =>
    match nodeAbove m.params.nLeaves (16 - v) v i with
    | none => none
    | some p =>
      let chips := c.plyChips ctx
      match chips[Config.plyNode m.key.group m.params.nLeaves p.1 p.2 seg % chips.length]? with
      | some l => if c.myLogical = some l then none else some l
      | none => none
  | _ => none

/-! Up -/

/-- The node above a contribution, once both of its halves are held here (R251, R253). -/
def Core.nodeOver (c : Core) (m : PlyMsg) : Option PlyMsg :=
  match m.data with
  | .frag v i seg _ _ _ =>
    match nodeAbove m.params.nLeaves (16 - v) v i with
    | none => none
    | some p =>
      let hs := c.heldFor m.key m.params
      match standIn m.params.nLeaves hs seg (p.1 - 1) (2 * p.2), standIn m.params.nLeaves hs seg (p.1 - 1) (2 * p.2 + 1) with
      | some a, some b =>
        let x := joinVec m.params.fn (m.params.mode == 1) m.params.inFmt a.vec b.vec
        some { m with data := .frag p.1 p.2 seg x.2.1 x.2.2 x.1 }
      | _, _ => none
  | _ => none

/-- A contribution of this chip goes to every other chip of the slice. -/
def Core.plyAll (c : Core) (ctx : Nat) (m : PlyMsg) : Core :=
  (c.plyPeers ctx).foldl (fun d l => d.sendFrame ctx l (.ply m)) (c.holdPly (c.ownPly m))

/-! Down -/

/-- The exclusive prefix of a node reaches the chip on which the node stands: a fragment of its own run keeps it, a node computed here
hands it on to its halves (R256, R253). -/
def Core.plyDown : Nat → Core → Nat → PlyMsg → Nat → Nat → Nat → NodeVec → Core
  | 0, c, _, _, _, _, _, _ => c
  | f + 1, c, ctx, m, v, i, seg, p =>
    let keep := c.holdPly (c.ownPly { m with data := .below v i seg p.2.1 p.2.2 p.1 })
    if (c.ownRun m.key).contains (v, i) then keep
    else
      let hs := c.heldFor m.key m.params
      match standIn m.params.nLeaves hs seg (v - 1) (2 * i), standIn m.params.nLeaves hs seg (v - 1) (2 * i + 1) with
      | some a, some b =>
        let q := joinVec m.params.fn (m.params.mode == 1) m.params.inFmt p a.vec
        [(a, p), (b, q)].foldl (fun d x =>
          match x.1.src with
          | none => Core.plyDown f d ctx m x.1.node.1 x.1.node.2 seg x.2
          | some phys =>
            match d.logicalAt phys with
            | some l => d.sendFrame ctx l (.ply { m with data := .below x.1.node.1 x.1.node.2 seg x.2.2.1 x.2.2.2 x.2.1 })
            | none => d) c
      | _, _ => c

/-- The root of a segment is complete on this chip: every chip of the slice gets it, and the prefixes of a PREFIX start down. -/
def Core.plyRoot (c : Core) (ctx : Nat) (m : PlyMsg) : Core :=
  match m.data with
  | .frag v i seg nan ovf l =>
    let c1 := c.plyAll ctx { m with data := .root seg nan ovf l }
    if m.params.op = 8 then c1.plyDown 17 ctx m v i seg (absentVec l.length) else c1
  | _ => c

/-- Whether a fragment or node stands for the root. -/
def plyTop (m : PlyMsg) : Bool :=
  match m.data with
  | .frag v i _ _ _ _ => (nodeAbove m.params.nLeaves (16 - v) v i).isNone
  | _ => false

/-- A fragment or a node formed on this chip goes where the tree needs it (R253). -/
def Core.plyUp : Nat → Core → Nat → PlyMsg → Core
  | 0, c, _, _ => c
  | f + 1, c, ctx, m =>
    match c.plyPlace ctx m with
    | some l => c.sendFrame ctx l (.ply m)
    | none =>
      let c1 := c.holdPly (c.ownPly m)
      if plyTop m then c1.plyRoot ctx m
      else
        match c1.nodeOver m with
        | some x => Core.plyUp f c1 ctx x
        | none => c1

/-! Arrival -/

/-- A contribution is taken into a collective in EXCHANGE: a fragment or node may complete the node above it, a prefix goes on down,
a root or a leaf is kept. -/
def Core.plyTake (c : Core) (ctx : Nat) (h : PlyHeld) : Core :=
  match h.msg.data with
  | .frag v i seg _ _ _ =>
    if (c.heldFor h.msg.key h.msg.params).any fun x => x.isNode v i seg then c
    else
      let c1 := c.holdPly h
      if plyTop h.msg then c1.plyRoot ctx h.msg
      else
        match c1.nodeOver h.msg with
        | some x => c1.plyUp 17 ctx x
        | none => c1
  | .root _ _ _ _ => c.holdPly h
  | .below v i seg _ _ _ => c.plyDown 17 ctx h.msg v i seg h.vec
  | .leaf _ _ _ _ _ => c.holdPly h

/-- A collective enters EXCHANGE (R253, R268): what was held for it is taken, and what this chip contributes goes out. -/
def Core.plyEnter (c : Core) (ctx : Nat) (key : PlyKey) (params : PlyParams) (mine : List PlyData) : Core :=
  let early := c.heldFor key params
  let c1 := { c with fab := { c.fab with plyHeld := c.fab.plyHeld.filter fun h => !(h.msg.key == key && h.msg.params == params) } }
  let c2 := early.foldl (fun d h => d.plyTake ctx h) c1
  mine.foldl (fun d x =>
    let m : PlyMsg := { key := key, params := params, data := x }
    match x with
    | .frag _ _ _ _ _ _ => d.plyUp 17 ctx m
    | _ => d.plyAll ctx m) c2

/-! Bytes -/

/-- Elements of n bytes each. -/
def chunks (n : Nat) : Nat → List Byte → List Nat
  | 0, _ => []
  | k + 1, bs => bytesNat (bs.take n) :: chunks n k (bs.drop n)

/-- Collectives and Carder exchanges in progress on this chip (R259). -/
def Core.collsRunning (c : Core) : Nat :=
  sumBy (fun p : Nat × PlyPage =>
    (p.2.runs.filter fun (r : Nat × CollRun) => r.2.st == .loc || r.2.st == .exchange || r.2.st == .write).length) c.ply
  + (c.moe.tables.filter fun (t : Nat × Moe) => t.2.st == .exchange).length

/-- The collectives that wait to start, and the Carder exchanges whose LOCAL is done (R259): by d, Carder exchanges first within one
DCLK, then by context and slot. -/
def Core.collsWaiting (c : Core) : List (List Nat × (Nat × Nat ⊕ Nat)) :=
  let slots := c.ply.flatMap fun p => p.2.runs.filterMap fun (r : Nat × CollRun) =>
    match r.2.st, r.2.work with
    | .idle, some w => some ([w.d, 1, p.1, r.1], Sum.inl (p.1, r.1))
    | _, _ => none
  let tables := c.moe.tables.filterMap fun (t : Nat × Moe) =>
    match t.2.st, t.2.work with
    | .loc, some w => if w.ready then some ([w.d, 0, t.1, 0], Sum.inr t.1) else none
    | _, _ => none
  sortBy (fun a b => keysLt a.1 b.1) (slots ++ tables)

/-- Whether a collective or a Carder exchange may begin: there is room, and it is the first that waits (R259). -/
def Core.collFirst (c : Core) (x : Nat × Nat ⊕ Nat) : Bool :=
  decide (c.collsRunning < 32) && (match c.collsWaiting with | y :: _ => y.2 == x | [] => false)

end Sys2Proof.Machine
end

