-- ==== Sys2Proof/Machine/Expert.lean ====
section
/-! DEFINITION. Carder (07): MOE_TABLE_LOAD, MOE_TABLE_UNLOAD, MOE_STATS, and the routing step: selection (R193 to R195), the
exchange (R196), the decision (R198, R199), the commit (R191, R205), and its end (R190). -/

namespace Sys2Proof.Machine

/-! MOE_TABLE_LOAD -/

/-- Step 9 of MOE_TABLE_LOAD (Table 03-10). -/
def moeFaults (p : Packet) : List PFault :=
  let experts := pf p 3 0 14
  let k := pf p 3 16 5
  let groups := pf p 3 32 8
  let top := pf p 3 40 8
  let grouped := pb p 3 26
  limit 3 0 (decide (experts ≤ 8192)) ++ limit 3 16 (decide (k ≤ 16)) ++ range 3 16 (decide (1 ≤ k) && decide (k ≤ experts))
    ++ (if grouped then
          range 3 32 (groups != 0 && experts % groups == 0)
            ++ range 3 40 (decide (1 ≤ top) && decide (top ≤ groups) && (groups == 0 || decide (k ≤ top * (experts / groups))))
        else [])

/-- The table that a packet and an image give (Tables 07-1, 07-2), its regions at 0 until they are resolved. -/
def tableOf (n : Nat) (p : Packet) (h : List W64) (ents : List W64) : MoeTable :=
  let w := fun i => h.getD i 0
  let experts := pf p 3 0 14
  { ctx := n, experts := experts, k := pf p 3 16 5, scoreFp32 := pb p 3 24, renorm := pb p 3 25, grouped := pb p 3 26,
    groups := pf p 3 32 8, topGroups := pf p 3 40 8, capacity := pf p 4 0 32, pool := pf p 4 32 32,
    lookahead := pkExp p && pb p 5 0, lookaheadN := if pkExp p then pf p 5 16 16 else 0,
    routeSkein := fld (w 1) 54 10, routeNode := fld (w 1) 34 20, nLocal := fld (w 1) 17 17, tileTokens := fld (w 1) 0 17,
    tokBase := fld (w 2) 32 32, plyGroup := fld (w 2) 16 16, threshold := BitVec.ofNat 32 (fld (w 3) 32 32),
    mapEn := bitAt (w 3) 31, exitEn := bitAt (w 3) 30, exitReset := bitAt (w 3) 29, mapId := fld (w 3) 26 3,
    nSeq := fld (w 3) 12 13, scoreAt := 0, dispAt := 0, confAt := none, seqAt := none, statsAt := none,
    entries := (List.range experts).map fun e =>
      let a := ents.getD (2 * e) 0
      let b := ents.getD (2 * e + 1) 0
      { early := fld a 44 20, late := fld a 24 20, capEn := bitAt a 0, cap := fld b 0 32 } }

/-- The lines of one score vector in bytes (Table 07-3). -/
def MoeTable.scoreBytes (t : MoeTable) : Nat := lines64 (t.experts * (if t.scoreFp32 then 4 else 2))

/-- Where the entries of the dispatch region begin (Table 07-7). -/
def MoeTable.dirEnd (t : MoeTable) : Nat := 64 + 64 * ceilDiv t.experts 8

/-- The size of a step block (Table 07-10). -/
def MoeTable.blockSize (t : MoeTable) : Nat := 64 + 16 * t.experts

/-- The faults of a table image (R186, R187). -/
def imageBad (t : MoeTable) (h : List W64) (ents : List W64) : Bool :=
  let w := fun i => h.getD i 0
  strayBits h [fields [(63, 32), (13, 0)], fields [(63, 0)], fields [(63, 16)], fields [(63, 26), (24, 12)], fields [(63, 0)],
      fields [(63, 0)], fields [(63, 32)], 0]
    || strayBits ents ((List.range t.experts).flatMap fun _ => [fields [(63, 24), (0, 0)], fields [(31, 0)]])
    || fld (w 0) 32 32 != 0x43445234 || fld (w 0) 0 14 != t.experts
    || t.nLocal == 0 || decide (65536 < t.nLocal) || t.tileTokens == 0 || decide (65536 < t.tileTokens)
    || decide (4096 < t.nSeq) || fpNan t.threshold.toNat || (t.exitEn && !t.mapEn) || (t.nSeq != 0 && !t.mapEn)
    || decide (2 ^ 32 < t.tokBase + t.nLocal)
    || (!t.exitEn && fld (w 5) 32 32 != noHandle) || (t.nSeq == 0 && fld (w 5) 0 32 != noHandle)

/-- A region of an image resolved against W2 (R187). -/
def Core.moeHandle (c : Core) (n : Nat) (p : Packet) (h : Nat) (write : Bool) (extent : Nat) : Except Verdict Region :=
  match c.resolve n (pkBase p) h write extent with
  | .error e => .error (e.verdict 2)
  | .ok r => .ok r

/-- A region that an image may leave out where Table 07-1 allows it: then the handle 0xFFFF_FFFF is no handle. -/
def Core.moeMaybe (c : Core) (n : Nat) (p : Packet) (must : Bool) (h : Nat) (write : Bool) (extent : Nat) :
    Except Verdict (Option Nat) :=
  if must || h != noHandle then (c.moeHandle n p h write extent).map fun r => some r.base else .ok none

/-- The five regions of a table resolved (R187, Table 07-3). -/
def Core.moeRegions (c : Core) (n : Nat) (p : Packet) (h : List W64) (t : MoeTable) : Except Verdict MoeTable := do
  let w := fun i => h.getD i 0
  let score ← c.moeHandle n p (fld (w 4) 32 32) false (t.nLocal * t.scoreBytes)
  let disp ← c.moeHandle n p (fld (w 4) 0 32) true (t.dirEnd + 8 * t.nLocal * t.k)
  let conf ← c.moeMaybe n p t.exitEn (fld (w 5) 32 32) false (4 * t.nLocal)
  let seq ← c.moeMaybe n p (t.nSeq != 0) (fld (w 5) 0 32) false (2 * t.nLocal)
  let stats ← c.moeMaybe n p false (fld (w 6) 32 32) true (8 * t.blockSize)
  return { t with scoreAt := score.base, dispAt := disp.base, confAt := conf, seqAt := seq, statsAt := stats }

/-- A live map that a loaded table names becomes held, all live (R188). -/
def Core.takeMap (c : Core) (t : MoeTable) : Core :=
  if t.mapEn && (aget c.moe.maps t.mapId).isNone then
    let m : LiveMap := { ctx := t.ctx, nLocal := t.nLocal, bits := List.replicate t.nLocal true }
    { c with moe := { c.moe with maps := aset c.moe.maps t.mapId m } }
  else c

/-- Steps 9 to 15 of MOE_TABLE_LOAD. -/
def Core.moeLoad (c : Core) (n : Nat) (p : Packet) : Except Verdict CpRes := do
  step9 p (moeFaults p)
  let tn := pf p 2 0 6
  let experts := pf p 3 0 14
  let image ← c.handleParam n p 2 32 false (64 + 16 * experts)
  let h ← c.readFor 2 image.base 8
  let ents ← c.readFor 2 (image.base + 64) (2 * experts)
  let t ← c.moeRegions n p h (tableOf n p h ents)
  match (c.table tn).tab with
  | some x => .error (if x.ctx = n then vState 3 else vIso 4)
  | none => .ok ()
  let held := if t.mapEn then aget c.moe.maps t.mapId else none
  ensure (match held with | some m => m.ctx == n | none => true) (vIso 4)
  ensure (!imageBad t h ents) (vParam 2 2)
  ensure (match held with | some m => m.nLocal == t.nLocal | none => true) (vParam 2 2)
  return .done vOk ((c.setTable tn { Moe.reset with tab := some t }).takeMap t)

/-- MOE_TABLE_LOAD (R187). -/
def execMoeTableLoad (s : State) : Host.Outcome State Fault Refusal := onCommand s 0x50 fun _ c n p => c.moeLoad n p

/-- Steps 9 to 15 of MOE_TABLE_UNLOAD. -/
def Core.moeUnload (c : Core) (n : Nat) (p : Packet) : Except Verdict CpRes := do
  step9 p []
  let tn := pf p 2 0 6
  match (c.table tn).tab with
  | none => .error (vState 4)
  | some t =>
    ensure (t.ctx == n) (vIso 4)
    ensure (c.skeinIdle n t.routeSkein) (vState 5)
    return .done vOk (c.tableFree tn)

/-- MOE_TABLE_UNLOAD (R87). -/
def execMoeTableUnload (s : State) : Host.Outcome State Fault Refusal := onCommand s 0x51 fun _ c n p => c.moeUnload n p

/-! Statistics (R213) -/

/-- A step block as bytes (Table 07-10). -/
def StepBlock.bytes (b : StepBlock) : List Byte :=
  natBytes 8 (b.gen % 2 ^ 32) ++ natBytes 8 b.selections ++ natBytes 8 b.nan ++ natBytes 8 b.exited ++ natBytes 8 b.pooled
    ++ natBytes 8 b.dropped ++ natBytes 16 0
    ++ b.experts.flatMap fun x => natBytes 4 x.routed ++ natBytes 4 x.overCap ++ natBytes 4 x.dropped ++ natBytes 4 x.accepted

/-- Steps 9 to 15 of MOE_STATS. With an empty history the spec gives the header's generation no value: a free one. -/
def Core.moeStats (c : Core) (n : Nat) (p : Packet) : Except Verdict CpRes := do
  step9 p []
  let dst ← c.handleParam n p 3 0 true 0
  let m := c.table (pf p 2 0 6)
  match m.tab with
  | none => .error (vState 4)
  | some t =>
    ensure (t.ctx == n) (vIso 4)
    extentCheck 3 dst (64 + 8 * t.blockSize)
    let x : Nat × Core := match m.hist with
      | b :: _ => (b.gen, c)
      | [] => (c.drawWord.1.toNat, c.drawWord.2)
    let head := natBytes 8 (m.hist.length * 2 ^ 32 + x.1 % 2 ^ 32) ++ natBytes 56 0
    x.2.writeThen 3 dst.base (head ++ m.hist.flatMap StepBlock.bytes) fun d => .ok (.done vOk d)

/-- MOE_STATS (R213). -/
def execMoeStats (s : State) : Host.Outcome State Fault Refusal := onCommand s 0x52 fun _ c n p => c.moeStats n p

/-! Selection (R193 to R195) -/

/-- Whether candidate a comes before candidate b: the higher score, then the lower index. -/
def scoreBefore (a b : Nat × Int) : Bool := decide (b.2 < a.2) || (decide (a.2 = b.2) && decide (a.1 < b.1))

/-- The first n of some candidates in the order of R193. -/
def topScores (n : Nat) (l : List (Nat × Int)) : List (Nat × Int) := (sortBy scoreBefore l).take n

/-- The highest of some keys. -/
def maxKey : List Int → Option Int
  | [] => none
  | x :: r => some (match maxKey r with | some y => max x y | none => x)

/-- The experts among which a token selects, with their keys (R193, R194). -/
def MoeTable.eligible (t : MoeTable) (keys : List (Option Int)) : List (Nat × Int) :=
  let all := keys.zipIdx.filterMap fun x => x.1.map fun k => (x.2, k)
  if t.grouped then
    let size := t.experts / max 1 t.groups
    let groups := (List.range t.groups).filterMap fun g =>
      (maxKey ((all.filter fun x => x.1 / max 1 size == g).map Prod.snd)).map fun k => (g, k)
    let chosen := (topScores t.topGroups groups).map Prod.fst
    all.filter fun x => chosen.contains (x.1 / max 1 size)
  else all

/-- One level of the tree of selection slots (R195). -/
def sumLevel : List (Option Nat) → List (Option Nat)
  | a :: b :: r =>
    (match a, b with
     | some x, some y => some (fpAdd x y).1
     | some x, none => some x
     | none, y => y) :: sumLevel r
  | l => l

/-- The sum of the selected scores over 16 slots (R195). -/
def gateSum (scores : List Nat) : Nat :=
  let l := scores.map some ++ List.replicate (16 - scores.length) none
  ((sumLevel (sumLevel (sumLevel (sumLevel l)))).headD none).getD 0

/-- Whether an FP32 pattern is finite and above zero. -/
def fpPositive (w : Nat) : Bool :=
  match fp32.decode w with
  | .fin neg m => !neg && m != 0
  | _ => false

/-- The gates of a token, and whether its sum was unfit (R195). -/
def MoeTable.gates (t : MoeTable) (scores : List Nat) : List W32 × Bool :=
  let g := fun l : List Nat => l.map fun x => BitVec.ofNat 32 x
  if !t.renorm then (g scores, false)
  else
    let s := gateSum scores
    if fpPositive s then (g (scores.map fun x => fpDiv x s), false) else (g (scores.map fun _ => 0), true)

/-- What a token selects from its scores, as FP32 patterns: the selection, NaN scores, and whether its sum was unfit. -/
def MoeTable.selectToken (t : MoeTable) (scores : List Nat) : TokenSel × Nat × Bool :=
  let keys := scores.map fun x => (fp32.decode x).key
  let chosen := (topScores t.k (t.eligible keys)).map Prod.fst
  let g := t.gates (chosen.map fun e => scores.getD e 0)
  (chosen.zip g.1, (keys.filter Option.isNone).length, g.2)

/-! LOCAL (R192, R208, R209) -/

/-- A step whose Reel access failed, or whose exchange cannot go on, is abandoned and its route node faults (R190). -/
def Core.stepFails (c : Core) (t k : Nat) : Core :=
  let m := c.table t
  match m.work with
  | none => c
  | some w => (c.abandonStep t).faultPlain w.task .faulted k

/-- The live bits with which a step begins (R208). -/
def Core.liveBits (c : Core) (t : MoeTable) : List Bool :=
  if t.mapEn && !t.exitReset then
    match aget c.moe.maps t.mapId with | some m => m.bits | none => List.replicate t.nLocal true
  else List.replicate t.nLocal true

/-- The confidences of the live tokens: which stay live, NaNs, and how many exit (R208). -/
def Core.confPass (c : Core) (t : MoeTable) (at_ : Nat) : Nat → List Bool → Except Nat (List Bool × Nat × Nat)
  | _, [] => .ok ([], 0, 0)
  | i, b :: r =>
    if !b then (Core.confPass c t at_ (i + 1) r).map fun x => (b :: x.1, x.2)
    else
      match c.readBytes (at_ + 4 * i) 4 with
      | .error e => .error e
      | .ok bs =>
        (Core.confPass c t at_ (i + 1) r).map fun x =>
          match (fp32.decode (bytesNat bs)).key, (fp32.decode t.threshold.toNat).key with
          | some a, some y => if y ≤ a then (false :: x.1, x.2.1, x.2.2 + 1) else (true :: x.1, x.2)
          | _, _ => (true :: x.1, x.2.1 + 1, x.2.2)

/-- What the live tokens select (R192, R193): one entry a token, NaN scores and unfit sums counted. -/
def Core.scorePass (c : Core) (t : MoeTable) : Nat → List Bool → Except Nat (List (Option TokenSel) × Nat × Nat)
  | _, [] => .ok ([], 0, 0)
  | i, b :: r =>
    if !b then (Core.scorePass c t (i + 1) r).map fun x => (none :: x.1, x.2)
    else
      match c.readBytes (t.scoreAt + i * t.scoreBytes) (t.experts * (if t.scoreFp32 then 4 else 2)) with
      | .error e => .error e
      | .ok bs =>
        let raw := chunks (if t.scoreFp32 then 4 else 2) t.experts bs
        let y := t.selectToken (if t.scoreFp32 then raw else raw.map fun v => v * 65536)
        (Core.scorePass c t (i + 1) r).map fun x => (some y.1 :: x.1, x.2.1 + y.2.1, x.2.2 + b2n y.2.2)

/-- The slots of the tokens, none where a token has none, and how many values were out of range (R209). -/
def Core.slotPass (c : Core) (t : MoeTable) : Except Nat (List (Option Nat) × Nat) :=
  match t.seqAt with
  | none => .ok (List.replicate t.nLocal none, 0)
  | some a =>
    match c.readBytes a (2 * t.nLocal) with
    | .error e => .error e
    | .ok bs =>
      let raw := chunks 2 t.nLocal bs
      .ok (raw.map fun v => if v < t.nSeq then some v else none, (raw.filter fun v => v != 0xFFFF && decide (t.nSeq ≤ v)).length)

/-- The count vector of a step (R196). -/
def countVec (t : MoeTable) (sels : List (Option TokenSel)) (live : List Bool) (slots : List (Option Nat)) : List Nat :=
  ((List.range t.experts).map fun e =>
    sumBy (fun s : Option TokenSel => match s with | some l => (l.filter fun x => x.1 == e).length | none => 0) sels)
  ++ (List.range t.nSeq).map fun s =>
    ((live.zip slots).filter fun x => x.1 && x.2 == some s).length

/-- LOCAL as a whole: the working data with which the step enters EXCHANGE, or the code of a Reel fault. -/
def Core.localPass (c : Core) (t : MoeTable) (w : StepWork) : Except Nat StepWork := do
  let bits := c.liveBits t
  let conf ← match t.confAt with
    | some a => if t.exitEn then c.confPass t a 0 bits else .ok (bits, 0, 0)
    | none => .ok (bits, 0, 0)
  let sel ← c.scorePass t 0 conf.1
  let slots ← c.slotPass t
  return { w with sels := sel.1, nan := conf.2.1 + sel.2.1, renormBad := sel.2.2, slotBad := slots.2, exited := conf.2.2,
                  live := conf.1, gone := List.zipWith (fun a b => a && !b) bits conf.1, ready := true, vec := countVec t sel.1 conf.1 slots.1 }

/-- The key and the parameters of a Carder exchange (R259, R268). -/
def Core.moeKey (c : Core) (tn : Nat) (t : MoeTable) : PlyKey :=
  { group := t.plyGroup, isTable := true, slot := tn, gen := (c.table tn).gen }

/-- The parameters of a Carder exchange: an exact PREFIX of UINT32. -/
def moeParams (t : MoeTable) (g : GroupEnt) : PlyParams :=
  { op := 8, fn := 0, mode := 1, inFmt := 7, count := t.experts + t.nSeq, nLeaves := g.nLeaves }

/-- A count as an element of an exact sum. -/
def countTerm (n : Nat) : Partial :=
  { Partial.none_ with present := true, canon := BitVec.ofNat 32 n, acc := (n : Int) }

/-- The count vector of a step, contributed at the lowest leaf that the chip holds (R196): the fragments of its run. -/
def moeFrags (t : MoeTable) (g : GroupEnt) (vec : List Nat) : List PlyData :=
  let n := t.experts + t.nSeq
  fragments 0 true 7 n g.run fun l => if l = g.first then vec.map countTerm else List.replicate n Partial.none_

/-- A step enters EXCHANGE: its count vector goes to Ply (R196). -/
def Core.stepSend (c : Core) (tn : Nat) (t : MoeTable) (w : StepWork) : Core :=
  let c1 := c.setTable tn { c.table tn with st := .exchange, work := some { w with sinceAt := c.dclk } }
  match c1.groupFor t.plyGroup t.ctx with
  | none => c1
  | some g => c1.plyEnter t.ctx (c.moeKey tn t) (moeParams t g) (moeFrags t g w.vec)

/-- STEP_EXCHANGE (R196): LOCAL is done, and the exchange begins unless it has to wait for other collectives (R259). Reads of the
scores that cannot be issued yet leave the step in LOCAL. -/
def Core.stepExchange (c : Core) (tn : Nat) : Core :=
  let m := c.table tn
  match m.tab, m.work with
  | some t, some w =>
    if m.st ≠ .loc then c
    else
      match (if w.ready then .ok w else c.localPass t w) with
      | .error k => if k = heldCode then c else c.stepFails tn k
      | .ok w1 =>
        let c1 := c.setTable tn { m with work := some w1 }
        if c1.collFirst (.inr tn) then c1.stepSend tn t w1 else c1
  | _, _ => c

/-- STEP_EXCHANGE (R196). -/
def execStepExchange (t : Nat) (s : State) : Host.Outcome State Fault Refusal :=
  if t < 64 then onRun s fun _ c => c.stepExchange t else .next s

/-! DECIDE (R198, R199) -/

/-- The counts that a vector of an exact sum holds. -/
def countsOf (v : NodeVec) : List Nat := v.1.map fun p => p.acc.toNat

/-- One token of the rest of the pool to each expert that still overflows, in ascending order (R198). -/
def spreadRest : Nat → List (Nat × Nat) → List Nat
  | _, [] => []
  | 0, x :: r => x.2 :: spreadRest 0 r
  | n + 1, x :: r => if x.2 < x.1 then (x.2 + 1) :: spreadRest n r else x.2 :: spreadRest (n + 1) r

/-- The grants of a step, from what overflows each expert (R198). -/
def grants (pool : Nat) (over_ : List Nat) : List Nat :=
  let o := over_.foldl (· + ·) 0
  if o ≤ pool then over_
  else
    let base := over_.map fun x => pool * x / o
    spreadRest (pool - base.foldl (· + ·) 0) (over_.zip base)

/-- The capacity of expert e (R198). -/
def MoeTable.capOf (t : MoeTable) (e : Nat) : Nat :=
  match t.entries[e]? with
  | some x => if x.capEn then x.cap else t.capacity
  | none => t.capacity

/-- The accepted selections of expert e in token order, with global token index: those whose place is below its limit
(R198). -/
def MoeTable.acceptFor (t : MoeTable) (sels : List (Option TokenSel)) (e below top : Nat) : List (W32 × Nat) :=
  let mine := sels.zipIdx.flatMap fun s => match s.1 with
    | some l => (l.filter fun x => x.1 == e).map fun x => (x.2, t.tokBase + s.2)
    | none => []
  mine.take (top - below)

/-- What a step decides: the block, and the accepted selections expert by expert. -/
def MoeTable.decide_ (t : MoeTable) (gen : Nat) (w : StepWork) (totals below : List Nat) : StepBlock × List (List (W32 × Nat)) :=
  let over_ := (List.range t.experts).map fun e => totals.getD e 0 - t.capOf e
  let gr := grants t.pool over_
  let lists := (List.range t.experts).map fun e => t.acceptFor w.sels e (below.getD e 0) (t.capOf e + gr.getD e 0)
  let ents := (List.range t.experts).map fun e =>
    ({ routed := totals.getD e 0, overCap := over_.getD e 0, dropped := over_.getD e 0 - gr.getD e 0,
       accepted := (lists.getD e []).length } : ExpertCnt)
  ({ gen := gen, selections := sumBy (fun s : Option TokenSel => match s with | some l => l.length | none => 0) w.sels,
     nan := w.nan, exited := w.exited, pooled := gr.foldl (· + ·) 0, dropped := sumBy (fun x : ExpertCnt => x.dropped) ents,
     experts := ents, slots := (List.range t.nSeq).map fun s => totals.getD (t.experts + s) 0 }, lists)

/-- The directory of a dispatch region: first entry and count of each expert (Table 07-7). -/
def dirBytes : Nat → List (List (W32 × Nat)) → List Byte
  | _, [] => []
  | n, l :: r => natBytes 8 (l.length * 2 ^ 32 + n) ++ dirBytes (n + l.length) r

/-- The header and directory of a dispatch region, and its entries (Table 07-7). -/
def dispBytes (gen : Nat) (lists : List (List (W32 × Nat))) : List Byte × List Byte :=
  let all := lists.flatten
  (natBytes 8 (all.length * 2 ^ 32 + gen % 2 ^ 32) ++ natBytes 56 0 ++ dirBytes 0 lists,
   all.flatMap fun x => natBytes 8 (x.1.toNat * 2 ^ 32 + x.2 % 2 ^ 32))

/-- Whether the answer of Ply is there: every total, and the prefix of this chip's run (R196). -/
def moeAnswered (t : MoeTable) (g : GroupEnt) (hs : List PlyHeld) : Bool :=
  rootsIn hs (List.range (segCount (t.experts + t.nSeq))) && prefixesIn (moeParams t g) hs g.run

/-- STEP_DECIDE (R198, R199): the prefix result has arrived; the lists and the block are fixed. They are written from the next DCLK
on, since a CANCEL or fault of this one drops the result (R212). -/
def Core.stepDecide (c : Core) (tn : Nat) : Core :=
  let m := c.table tn
  match m.tab, m.work with
  | some t, some w =>
    match c.groupFor t.plyGroup t.ctx with
    | none => c
    | some g =>
      let p := moeParams t g
      let hs := c.heldFor (c.moeKey tn t) p
      if m.st = .exchange ∧ moeAnswered t g hs then
        let totals := countsOf (rootVec p hs)
        let below := countsOf (prefixVec p hs g.run)
        let d := t.decide_ m.gen w totals below
        c.setTable tn { m with st := .decide,
                               work := some { w with totals := totals, below := below, block := some d.1, lists := d.2,
                                                     sinceAt := c.dclk } }
      else c
  | _, _ => c

/-- The writes of a step that entered DECIDE in the present DCLK, at its end (R199, R213). -/
def Core.decideWrite (c : Core) (tn : Nat) : Core :=
  let m := c.table tn
  match m.tab, m.work with
  | some t, some w =>
    match w.block with
    | none => c
    | some blk =>
      if m.st = .decide ∧ w.sinceAt = c.dclk then
        let b := dispBytes m.gen w.lists
        let c1 := (c.reelWrite t.dispAt b.1 (.stepWrite tn)).reelWrite (t.dispAt + t.dirEnd) b.2 (.stepWrite tn)
        match t.statsAt with
        | some a => c1.reelWrite (a + m.gen % 8 * t.blockSize) blk.bytes (.stepWrite tn)
        | none => c1
      else c
  | _, _ => c

/-- The writes of every step that entered DECIDE in the present DCLK. -/
def Core.decideWrites (c : Core) : Core := (c.moe.tables.map Prod.fst).foldl Core.decideWrite c

/-- STEP_DECIDE (R198). -/
def execStepDecide (t : Nat) (s : State) : Host.Outcome State Fault Refusal :=
  if t < 64 then onRun s fun _ c => c.stepDecide t else .next s

/-! COMMIT and ROUTED (R190, R191, R205) -/

/-- STEP_COMMIT (R190, R191): every write of DECIDE is acknowledged. What COMMIT does takes effect when its DCLK has
passed. -/
def execStepCommit (t : Nat) (s : State) : Host.Outcome State Fault Refusal :=
  if t < 64 then
    onRun s fun _ c =>
      let m := c.table t
      if m.st = .decide ∧ !c.reelServing (fun x => x == .stepWrite t) ∧ (m.work.any fun w => w.sinceAt < c.dclk) then
        c.setTable t { m with st := .commit, work := m.work.map fun w => { w with sinceAt := c.dclk } }
      else c
  else .next s

/-- Whether tiles of a task are still untaken (R205). -/
def Task.untaken (t : Task) (h : Rec256) : Bool :=
  let tiles := t.tiles.getD 0
  !t.held.isEmpty
    || (if hMode h = 2 then decide (t.taken < tiles)
        else (hPorts h).any fun e => decide (agetD t.sent e 0 < shareOf h tiles e))

/-- A record of a task that waits for a ramp grant. -/
def Core.startWaits (c : Core) (ref : TaskRef) : Bool :=
  c.disp.ports.any fun p => p.2.waiting && (match p.2.sel with | some x => x.serves ref && x.kind == 4 | none => false)

/-- The untaken tiles of a granted early fetch node are withdrawn; the node completes once nothing of it is out (R205,
R206). -/
def Core.withdrawFetch (c : Core) (ref : TaskRef) : Core :=
  match c.taskOf ref with
  | none => c
  | some (r, t) =>
    if t.st == .ready || t.st == .issued || t.st == .running then
      let h := c.headOf r t
      if (t.untaken h || c.startWaits ref) && (c.compOf ref).isNone then
        let c1 := (c.withdrawStarts fun x => x == ref).ndInc ref.ctx 1
        let c2 := c1.modTask ref fun x => { x with tiles := some 0, held := [] }
        if c2.taskOut ref then c2
        else
          (c2.modTask ref fun x => { x with st := .running }).addComp
            { d := c.dclk + 1, task := ref, skein := r.skein, stage := .due, since := c.dclk + 1, elided := false,
              exited := false, applied := 0, matched := false }
      else c
    else c

/-- The counters and flags of a step that commits (Tables 07-13 to 07-16). -/
def Core.commitCounts (c : Core) (tn : Nat) (w : StepWork) (b : StepBlock) (misses : Nat) : Core :=
  let m := c.table tn
  let c1 := c.setTable tn { m with cnt0 := satAdd m.cnt0 32 32 w.nan, cnt1 := satAdd m.cnt1 32 32 misses,
                                   cnt2 := satAdd (satAdd m.cnt2 32 32 w.renormBad) 0 16 w.slotBad }
  let flags := [(0, w.nan != 0), (1, b.dropped != 0), (2, w.renormBad != 0), (6, w.slotBad != 0)]
  flags.foldl (fun d f => if f.2 then d.setMoeEvt tn f.1 else d) c1

/-- The live map after a step (R208): set all live by exit_reset, then without the tokens that exited in the step. -/
def MoeTable.mapAfter (t : MoeTable) (w : StepWork) (bits : List Bool) : List Bool :=
  List.zipWith (fun b g => b && !g) (if t.exitReset then List.replicate t.nLocal true else bits) w.gone

/-- STEP_ROUTED (R190): one DCLK after COMMIT its effects stand, and the route node's completion can go on (R189). -/
def Core.stepRoute (c : Core) (tn : Nat) : Core :=
  let m := c.table tn
  match m.tab, m.work with
  | some t, some w =>
    match w.block with
    | none => c
    | some b =>
      if m.st = .commit ∧ w.sinceAt < c.dclk then
        let cold := m.granted.filter fun e => b.taken e.1 == 0
        let c1 := c.setTable tn { m with st := .routed, hist := b :: m.hist.take 7, work := some { w with sinceAt := c.dclk } }
        let c2 := if t.mapEn then
            match aget c1.moe.maps t.mapId with
            | some x => { c1 with moe := { c1.moe with maps := aset c1.moe.maps t.mapId { x with bits := t.mapAfter w x.bits } } }
            | none => c1
          else c1
        let c3 := c2.commitCounts tn w b cold.length
        let c4 := (cold.filter fun e => decide (e.2 ≤ w.sinceAt)).foldl (fun d e => d.withdrawFetch
          { ctx := w.task.ctx, tag := w.task.tag, node := ((t.entries[e.1]?).map (·.early)).getD 0, dyn := none }) c3
        (c4.undefer w.task).settle w.task.ctx w.task.tag
      else c
  | _, _ => c

/-- STEP_ROUTED (R190). -/
def execStepRouted (t : Nat) (s : State) : Host.Outcome State Fault Refusal :=
  if t < 64 then onRun s fun _ c => c.stepRoute t else .next s

end Sys2Proof.Machine
end

