-- ==== Sys2Proof/Machine/Ply.lean ====
section
/-! DEFINITION. Ply (10): the results of a reduction (R261 to R265), the start of a collective (R259), its exchange, its outputs
(R256, R266, R267), its end (R260), contributions from other chips (R268) and the slot registers (R255). -/

namespace Sys2Proof.Machine

/-! Results (R261 to R265, Table 10-7) -/

/-- The bits of a magnitude that a format holds exactly. -/
def FFmt.exactBits (f : FFmt) (m : Nat) : Nat :=
  let k := max f.unit (Nat.log2 m - f.p)
  (k - f.unit) * 2 ^ f.p + m / 2 ^ k

/-- The bytes of a floating value in an output format, and whether a finite value became an infinity. -/
def floatBytes (fmt : Nat) (v : FVal) : List Byte × Bool :=
  match fmt with
  | 0 => let r := fp32.encode v; (natBytes 4 r.1, r.2)
  | 1 => let r := bf16.encode v; (natBytes 2 r.1, r.2)
  | 2 => let r := fp16.encode v; (natBytes 2 r.1, r.2)
  | 3 =>
    match v with
    | .nan => ([Config.narrowNan 3], false)
    | .inf n => ([Config.narrowInf n], false)
    | .fin n m => (natBytes 1 (e4m3.signBit n + e4m3.exactBits m), false)
  | _ =>
    match v with
    | .nan => ([Config.narrowNan 4], false)
    | _ => let r := e5m2.encode v; (natBytes 1 r.1, r.2)

/-- The identity of an absent root element (Table 10-7); an absent FIX320 element is one that is not present. -/
def identityBytes (fn inFmt outFmt : Nat) : List Byte :=
  if fn = 0 then List.replicate (fmtSize outFmt) 0
  else if floatFmt inFmt then (floatBytes outFmt (.inf (fn == 1))).1
  else
    match inFmt, fn with
    | 5, 1 => natBytes 4 0x80000000
    | 5, _ => natBytes 4 0x7FFFFFFF
    | 6, 1 => natBytes 1 0x80
    | 6, _ => natBytes 1 0x7F
    | _, 1 => natBytes 4 0
    | _, _ => natBytes 4 0xFFFFFFFF

/-- A FIX320 element (R263). -/
def fixBytes (p : Partial) : List Byte :=
  natBytes 40 (twos 320 p.acc)
    ++ natBytes 1 (b2n p.posInf + 2 * b2n p.negInf + 4 * b2n p.nan + 8 * b2n p.allNegZero + 16 * b2n p.present) ++ natBytes 23 0

/-- What an exact floating sum is, before it is rounded (R262). -/
def exactValue (p : Partial) : FVal :=
  if p.nan || (p.posInf && p.negInf) then .nan
  else if p.posInf then .inf false
  else if p.negInf then .inf true
  else if p.acc = 0 then .fin p.allNegZero 0
  else .fin (decide (p.acc < 0)) p.acc.natAbs

/-- An output element of a present root: its bytes, NAN and OVF. -/
def resultBytes (fn : Nat) (exact : Bool) (inFmt outFmt : Nat) (p : Partial) : List Byte × Bool × Bool :=
  if fn ≠ 0 then
    if floatFmt inFmt then
      if outFmt = 0 ∧ !p.nan then (natBytes 4 p.canon.toNat, false, false)
      else ((floatBytes outFmt (if p.nan then .nan else fp32.decode p.canon.toNat)).1, p.nan, false)
    else (natBytes (fmtSize outFmt) p.canon.toNat, false, false)
  else if exact then
    if floatFmt inFmt then
      if outFmt = 9 then (fixBytes p, p.nan, false)
      else
        let v := exactValue p
        let r := floatBytes outFmt v
        (r.1, v.isNan, r.2)
    else (natBytes 8 (twos 64 p.acc), false, decide (2 ^ 63 ≤ p.acc.natAbs))
  else if floatFmt inFmt then
    if outFmt = 0 then (natBytes 4 p.canon.toNat, fpNan p.canon.toNat, false)
    else
      let r := floatBytes outFmt (fp32.decode p.canon.toNat)
      (r.1, fpNan p.canon.toNat, r.2)
  else (natBytes 4 p.canon.toNat, false, false)

/-- Output elements: their bytes, NAN and OVF, and how many were absent. -/
def resultsOf (s : Slot) (ps : List Partial) : List Byte × Bool × Bool × Nat :=
  let l := ps.map fun p =>
    if p.present then resultBytes s.fn s.exact s.inFmt s.outFmt p else (identityBytes s.fn s.inFmt s.outFmt, false, false)
  (l.flatMap (·.1), l.any (·.2.1), l.any (·.2.2), (ps.filter fun p => !p.present).length)

/-! Starting (R259, R265) -/

/-- The slot, group, run and working data of a collective. -/
def Core.collParts (c : Core) (n k : Nat) : Option (Slot × GroupEnt × Run × CollWork) :=
  match (c.collRun n k).work with
  | none => none
  | some w =>
    match c.groupFor (c.slot n k).group n, c.findRun w.task.ctx w.task.tag with
    | some g, some r => some (c.slot n k, g, r, w)
    | _, _ => none

/-- COLLECTIVE_START (R259): a waiting collective enters LOCAL, and its binding is resolved (R265). -/
def Core.collStart (c : Core) (n k : Nat) : Core :=
  if !c.collFirst (.inl (n, k)) then c
  else
    match c.collParts n k with
    | none => c
    | some (s, _, r, w) =>
      let x := c.collRun n k
      if !s.bindEn then c.setCollRun n k { x with st := .loc, work := some { w with len := s.count } }
      else if c.bindOk s.table s.expert r then
        let a := (c.table s.table).accepted s.expert
        c.setCollRun n k { x with st := .loc, work := some { w with absent := a == 0, len := min s.count a } }
      else
        (c.setCollRun n k { x with st := .loc, work := some { w with absent := true, len := 0 } }).moeUnbound s.table n
          (w64 (2 ^ 63 + k))

/-- COLLECTIVE_START (R259). -/
def execCollectiveStart (n k : Nat) (s : State) : Host.Outcome State Fault Refusal :=
  if n < 64 ∧ k < 64 then onRun s fun _ c => c.collStart n k else .next s

/-! LOCAL: reading the sources and sending the contributions (R253, R260, R265) -/

/-- A collective whose access fails is abandoned, and its trigger faults (R260). -/
def Core.collFails (c : Core) (n k : Nat) (st : Status) (reason : Nat) : Core :=
  let x := c.collRun n k
  match x.work with
  | none => c
  | some w => (c.abandonColl n k).faultPlain w.task st reason

/-- Whether held leaf j contributes, and its length (R265). -/
def leafShare (s : Slot) (w : CollWork) (j : Nat) : Bool × Nat :=
  if w.absent || (s.bindEn && j != 0) then (false, 0) else (true, w.len)

/-- The address of a region of a slot, or the reason of BAD_HANDLE (R121, R258). -/
def Core.slotRegion (c : Core) (r : Run) (s : Slot) (i ext : Nat) (write : Bool) : Except (Status × Nat) Nat :=
  let x := s.regions.getD i (0, 0)
  match c.useHandle r x.1 x.2 ext write with
  | .error e => .error (.badHandle, e)
  | .ok a => .ok a

/-- Bytes read by a collective: a Reel fault is the fault of its trigger. -/
def Core.collRead (c : Core) (a n : Nat) : Except (Status × Nat) (List Byte) :=
  match c.readBytes a n with
  | .error k => .error (.faulted, k)
  | .ok bs => .ok bs

/-- The present terms of one held leaf of a reduction; elements beyond its length or masked out are absent (R265). -/
def leafTerms (s : Slot) (len : Nat) (bs mask : List Byte) : List Partial :=
  (List.range s.count).map fun i =>
    let kept := decide (i < len) && (!s.auxEn || (mask.getD (i / 8) 0).toNat.testBit (i % 8))
    if kept then termOf s.inFmt ((bs.drop (i * fmtSize s.inFmt)).take (fmtSize s.inFmt)) else Partial.none_

/-- One held leaf of a reduction read from memory. -/
def Core.reduceLeaf (c : Core) (r : Run) (s : Slot) (w : CollWork) (j : Nat) : Except (Status × Nat) (List Partial) := do
  let sh := leafShare s w j
  if !sh.1 then return List.replicate s.count Partial.none_
  else
    let n := s.count * fmtSize s.inFmt
    let src ← c.slotRegion r s 0 (j * 64 * s.srcStride + n) false
    let bs ← c.collRead (src + j * 64 * s.srcStride) n
    let m := 64 * ceilDiv s.count 512
    let mask ← (if s.auxEn then do
        let a ← c.slotRegion r s 2 ((j + 1) * m) false
        c.collRead (a + j * m) m
      else .ok [])
    return leafTerms s sh.2 bs mask

/-- One held leaf of a move: its source, its index entries, and its length. -/
def Core.moveLeaf (c : Core) (r : Run) (s : Slot) (g : GroupEnt) (w : CollWork) (j : Nat) : Except (Status × Nat) PlyData := do
  let sh := leafShare s w j
  let n := if s.indexed then s.count * s.rowLines * 64 else s.count * fmtSize s.inFmt
  let bs ← (if sh.1 then do
      let src ← c.slotRegion r s 0 (j * 64 * s.srcStride + n) false
      c.collRead (src + j * 64 * s.srcStride) n
    else .ok [])
  let step := lines64 (8 * s.count)
  let idx ← (if s.indexed && (sh.1 || s.op == 7) then do
      let a ← c.slotRegion r s 2 (j * step + 8 * s.count) false
      let l ← c.collRead (a + j * step) (8 * s.count)
      .ok ((chunks 8 s.count l).map w64)
    else .ok [])
  return .leaf (g.first + j) sh.1 sh.2 bs idx

/-- What this chip contributes to a collective, the fragments of a reduction or the leaves of a move, and the terms of its leaves
in a reduction. -/
def Core.collData (c : Core) (r : Run) (s : Slot) (g : GroupEnt) (w : CollWork) :
    Except (Status × Nat) (List PlyData × List (List Partial)) := do
  if s.reduces then
    let leaves ← (List.range g.count).mapM fun j => c.reduceLeaf r s w j
    return (fragments s.fn s.exact s.inFmt s.count g.run fun l => leaves.getD (l - g.first) [], leaves)
  else
    let mine := (List.range g.count).filter fun j => s.op != 4 || g.first + j == s.root
    let l ← mine.mapM fun j => c.moveLeaf r s g w j
    return (l, [])

/-- The parameters of a collective that a contribution carries (R268). -/
def plyParams (s : Slot) (g : GroupEnt) : PlyParams :=
  { op := s.op, fn := s.fn, mode := b2n s.exact, inFmt := s.inFmt, count := s.count, nLeaves := g.nLeaves }

/-- The key of the collective of a slot (R268). -/
def Core.plyKey (c : Core) (n k : Nat) : PlyKey :=
  { group := (c.slot n k).group, isTable := false, slot := k, gen := (c.collRun n k).gen }

/-- COLLECTIVE_EXCHANGE (R260): every source is read and every fragment formed and sent; reads that cannot be issued yet leave the
collective in LOCAL. -/
def Core.collExchange (c : Core) (n k : Nat) : Core :=
  let x := c.collRun n k
  match c.collParts n k with
  | none => c
  | some (s, g, r, w) =>
    if x.st ≠ .loc then c
    else
      match c.collData r s g w with
      | .error e => if e = (.faulted, heldCode) then c else c.collFails n k e.1 e.2
      | .ok l =>
        (c.setCollRun n k { x with st := .exchange, work := some { w with own := l.2 } }).plyEnter n (c.plyKey n k) (plyParams s g) l.1

/-- COLLECTIVE_EXCHANGE (R260). -/
def execCollectiveExchange (n k : Nat) (s : State) : Host.Outcome State Fault Refusal :=
  if n < 64 ∧ k < 64 then onRun s fun _ c => c.collExchange n k else .next s

/-! WRITE: the outputs (R256, R265 to R267) -/

/-- What a collective writes on this chip: bytes at offsets of the destination, the presence fields, and what it counts. -/
structure CollOut where
  writes  : List (Nat × List Byte)
  pres    : List (List Bool)
  empties : Nat
  oob     : Nat
  collide : Nat
  nan     : Bool
  ovf     : Bool
  deriving DecidableEq, Repr

/-- The leaf message of a leaf: whether it is present, its length, its bytes and its index entries. -/
def leafAt (hs : List PlyHeld) (l : Nat) : Bool × Nat × List Byte × List W64 :=
  (hs.findSome? fun h => match h.msg.data with
    | .leaf a p len bs idx => if a = l then some (p, len, bs, idx) else none
    | _ => none).getD (false, 0, [], [])

/-- Whether the message of a leaf has come. -/
def leafIn (hs : List PlyHeld) (l : Nat) : Bool :=
  hs.any fun h => match h.msg.data with | .leaf a _ _ _ _ => a == l | _ => false

/-- ALL_REDUCE and REDUCE_SCATTER (Table 10-2). -/
def outReduce (s : Slot) (g : GroupEnt) (hs : List PlyHeld) : CollOut :=
  let root := rootVec (plyParams s g) hs
  let b := s.count / max 1 g.nLeaves
  let parts : List (Nat × List Partial) := if s.op = 1 then [(0, root.1)]
    else (List.range g.count).map fun j => (j * 64 * s.dstStride, (root.1.drop ((g.first + j) * b)).take b)
  let rs := parts.map fun x => (x.1, resultsOf s x.2)
  { writes := rs.map fun x => (x.1, x.2.1), pres := parts.map fun x => x.2.map (·.present),
    empties := sumBy (fun x : Nat × List Byte × Bool × Bool × Nat => x.2.2.2.2) rs, oob := 0, collide := 0,
    nan := root.2.1 || rs.any (·.2.2.1), ovf := root.2.2 || rs.any (·.2.2.2.1) }

/-- PREFIX (Table 10-2): totals, then the exclusive sums of each held leaf: the prefix of the run and the lower leaves of the run. -/
def outPrefix (s : Slot) (g : GroupEnt) (own : List (List Partial)) (hs : List PlyHeld) : CollOut :=
  let p := plyParams s g
  let root := rootVec p hs
  let below := fun j => (own.take j).foldl (fun a l => joinVec 0 true s.inFmt a (leafNode s.inFmt l)) (prefixVec p hs g.run)
  let rs := (List.range g.count).map fun j =>
    (j * 64 * s.dstStride, resultsOf s root.1, resultsOf s (below j).1)
  { writes := rs.map fun x => (x.1, x.2.1.1 ++ x.2.2.1), pres := rs.map fun _ => root.1.map (·.present),
    empties := (root.1.filter fun p => !p.present).length, oob := 0, collide := 0, nan := false,
    ovf := rs.any fun x => x.2.1.2.2.1 || x.2.2.2.2.1 }

/-- n bytes of a leaf from an offset, zeros where it is absent. -/
def leafBytes (x : Bool × Nat × List Byte × List W64) (off n : Nat) : List Byte :=
  if x.1 then (x.2.2.1.drop off).take n else List.replicate n 0

/-- ALL_GATHER, BROADCAST and ALL_TO_ALL (Table 10-2). -/
def outMove (s : Slot) (g : GroupEnt) (hs : List PlyHeld) : CollOut :=
  let e := fmtSize s.inFmt
  let n := s.count * e
  let base : CollOut := { writes := [], pres := [], empties := 0, oob := 0, collide := 0, nan := false, ovf := false }
  if s.op = 3 then
    { base with writes := (List.range g.nLeaves).map fun l => (l * lines64 n, leafBytes (leafAt hs l) 0 n),
                pres := [(List.range g.nLeaves).map fun l => (leafAt hs l).1] }
  else if s.op = 4 then
    { base with writes := [(0, leafBytes (leafAt hs s.root) 0 n)], pres := [[(leafAt hs s.root).1]] }
  else
    let b := s.count / max 1 g.nLeaves * e
    { base with
      writes := (List.range g.count).map fun j =>
        (j * 64 * s.dstStride, (List.range g.nLeaves).flatMap fun l => leafBytes (leafAt hs l) ((g.first + j) * b) b),
      pres := (List.range g.count).map fun _ => (List.range g.nLeaves).map fun l => (leafAt hs l).1 }

/-- An index entry: skip, leaf and row (10, Indexed redistribution). -/
def entryOf (w : W64) : Bool × Nat × Nat := (bitAt w 63, fld w 32 16, fld w 0 32)

/-- Whether an entry names a row of a leaf within the group and the leaf's length (R267). -/
def entryIn (g : GroupEnt) (hs : List PlyHeld) (e : Bool × Nat × Nat) : Bool :=
  decide (e.2.1 < g.nLeaves) && decide (e.2.2 < (leafAt hs e.2.1).2.1)

/-- One row of a leaf. -/
def rowOf (s : Slot) (x : Bool × Nat × List Byte × List W64) (r : Nat) : List Byte :=
  (x.2.2.1.drop (r * s.rowLines * 64)).take (s.rowLines * 64)

/-- The entries that name rows of a leaf, in ascending (leaf, row) of the sender: destination row, sender and its row. -/
def entriesTo (g : GroupEnt) (hs : List PlyHeld) (d : Nat) : List (Nat × Nat × Nat) :=
  (List.range g.nLeaves).flatMap fun s =>
    let x := leafAt hs s
    (x.2.2.2.take x.2.1).zipIdx.filterMap fun w =>
      let e := entryOf w.1
      if !e.1 && e.2.1 == d && entryIn g hs e then some (e.2.2, s, w.2) else none

/-- Entries of some index lists that are out of range. -/
def oobOf (g : GroupEnt) (hs : List PlyHeld) (ls : List (List W64)) : Nat :=
  sumBy (fun l : List W64 => (l.filter fun w => let e := entryOf w; !e.1 && !entryIn g hs e).length) ls

/-- SCATTER_IDX (R267). -/
def outScatter (s : Slot) (g : GroupEnt) (hs : List PlyHeld) : CollOut :=
  let held := (List.range g.count).map fun j => (j, entriesTo g hs (g.first + j))
  let rows := held.flatMap fun h => (List.range s.count).filterMap fun r =>
    ((h.2.filter fun e => e.1 == r).getLast?).map fun e =>
      (h.1 * 64 * s.dstStride + r * s.rowLines * 64, rowOf s (leafAt hs e.2.1) e.2.2)
  { writes := rows, pres := held.map fun h => (List.range s.count).map fun r => h.2.any fun e => e.1 == r,
    empties := 0, oob := oobOf g hs ((List.range g.count).map fun j =>
      let x := leafAt hs (g.first + j); x.2.2.2.take x.2.1),
    collide := sumBy (fun h : Nat × List (Nat × Nat × Nat) => h.2.length) held - rows.length, nan := false, ovf := false }

/-- GATHER_IDX (R267). -/
def outGather (s : Slot) (g : GroupEnt) (hs : List PlyHeld) : CollOut :=
  let lists := (List.range g.count).map fun j => (leafAt hs (g.first + j)).2.2.2
  let good := fun w => let e := entryOf w; !e.1 && entryIn g hs e
  { writes := lists.zipIdx.map fun l => (l.2 * 64 * s.dstStride, l.1.flatMap fun w =>
      if good w then rowOf s (leafAt hs (entryOf w).2.1) (entryOf w).2.2 else List.replicate (s.rowLines * 64) 0),
    pres := lists.map fun l => l.map good, empties := 0, oob := oobOf g hs lists, collide := 0, nan := false, ovf := false }

/-- The outputs of a collective. -/
def collOut (s : Slot) (g : GroupEnt) (own : List (List Partial)) (hs : List PlyHeld) : CollOut :=
  match s.op with
  | 1 => outReduce s g hs
  | 2 => outReduce s g hs
  | 8 => outPrefix s g own hs
  | 6 => outScatter s g hs
  | 7 => outGather s g hs
  | _ => outMove s g hs

/-- Bits packed into bytes, bit i in byte i / 8 (R266). -/
def packBits : Nat → List Bool → List Byte
  | 0, _ => []
  | n + 1, l =>
    if l.isEmpty then []
    else BitVec.ofNat 8 (sumBy (fun x : Bool × Nat => b2n x.1 * 2 ^ x.2) (l.take 8).zipIdx) :: packBits n (l.drop 8)

/-- The segments that hold the root elements this chip writes (Table 10-2). -/
def segsFor (s : Slot) (g : GroupEnt) : List Nat :=
  let b := s.count / max 1 g.nLeaves
  (List.range (segCount s.count)).filter fun x =>
    s.op != 2 || (decide (g.first * b < 1024 * (x + 1)) && decide (1024 * x < (g.first + g.count) * b))

/-- The leaves that the index entries of this chip name (R267). -/
def leavesNamed (g : GroupEnt) (hs : List PlyHeld) : List Nat :=
  ((List.range g.count).flatMap fun j => (leafAt hs (g.first + j)).2.2.2).filterMap fun w =>
    let e := entryOf w
    if !e.1 && decide (e.2.1 < g.nLeaves) then some e.2.1 else none

/-- Whether every node, block or row that this chip writes has arrived or been computed (Table 10-5). -/
def collReady (s : Slot) (g : GroupEnt) (hs : List PlyHeld) : Bool :=
  let all := (List.range g.nLeaves).all (leafIn hs)
  let mine := (List.range g.count).all fun j => leafIn hs (g.first + j)
  if !s.oncePerChip && g.count == 0 then true
  else
    match s.op with
    | 1 => rootsIn hs (segsFor s g)
    | 2 => rootsIn hs (segsFor s g)
    | 8 => rootsIn hs (segsFor s g) && prefixesIn (plyParams s g) hs g.run
    | 4 => leafIn hs s.root
    | 7 => mine && (leavesNamed g hs).all (leafIn hs)
    | _ => all

/-- The flags of a collective (R266). -/
def CollOut.flags (o : CollOut) : Nat :=
  b2n (o.empties != 0) + 2 * b2n (o.oob != 0) + 4 * b2n o.nan + 8 * b2n o.ovf + 16 * b2n (o.collide != 0)

/-- The flags and counters of the Ply page for a collective (R266, R272). -/
def Core.plyCount (c : Core) (n : Nat) (o : CollOut) : Core :=
  let g := c.plyPage n
  let c1 := c.setPlyPage n { g with
    cnt0 := satAdd (satAdd g.cnt0 32 32 o.empties) 0 32 o.oob, cnt1 := satAdd g.cnt1 32 32 (b2n o.nan),
    cnt2 := satAdd (satAdd g.cnt2 32 32 o.collide) 0 32 (b2n o.ovf) }
  (List.range 5).foldl (fun d b => if o.flags.testBit b then d.setPlyFlag n b else d) c1

/-- The status line of a collective is written last, once its other writes are acknowledged (R266). -/
def Core.collStatus (c : Core) (n k : Nat) : Core :=
  let x := c.collRun n k
  match c.collParts n k with
  | none => c
  | some (s, g, r, w) =>
    if x.st == .write && w.status && !(c.reelServing fun y => y == .collWrite n k) then
      match c.slotRegion r s 3 (s.presBytes g) true with
      | .error e => c.collFails n k e.1 e.2
      | .ok a =>
        (c.setCollRun n k { x with work := some { w with status := false } }).reelWrite a
          (natBytes 8 (x.gen % 2 ^ 32 * 2 ^ 32 + w.flags) ++ natBytes 8 w.empties ++ natBytes 8 w.oob ++ natBytes 40 0)
          (.collWrite n k)
    else c

/-- The presence fields with their offsets from the presence region (Table 10-6). -/
def presWrites (s : Slot) (g : GroupEnt) (o : CollOut) : List (Nat × List Byte) :=
  if s.presEn then
    let f := s.presFields g
    o.pres.zipIdx.map fun x => (64 + x.2 * lines64 (ceilDiv f.2 8), packBits (ceilDiv f.2 8) x.1)
  else []

/-- The regions that a collective writes on this chip: destination and presence. -/
def Core.collRegions (c : Core) (r : Run) (s : Slot) (g : GroupEnt) : Except (Status × Nat) (Nat × Nat) := do
  let ext := if s.oncePerChip then s.dstBytes g else spanBytes g.count (64 * s.dstStride) (s.dstBytes g)
  let dst ← (if s.oncePerChip || g.count != 0 then c.slotRegion r s 1 ext true else .ok 0)
  let pres ← (if s.presEn then c.slotRegion r s 3 (s.presBytes g) true else .ok 0)
  return (dst, pres)

/-- COLLECTIVE_WRITE (R260): everything that this chip writes is available. -/
def Core.collWrite (c : Core) (n k : Nat) : Core :=
  let x := c.collRun n k
  match c.collParts n k with
  | none => c
  | some (s, g, r, w) =>
    let hs := c.heldFor (c.plyKey n k) (plyParams s g)
    if x.st = .exchange ∧ collReady s g hs then
      match c.collRegions r s g with
      | .error e => c.collFails n k e.1 e.2
      | .ok a =>
        let o := collOut s g w.own hs
        let c1 := c.plyCount n o
        let w1 := { w with oob := o.oob, flags := o.flags, empties := o.empties, collide := o.collide, status := s.presEn }
        let c2 := c1.setCollRun n k { x with st := .write, work := some w1 }
        let c3 := o.writes.foldl (fun d y => d.reelWrite (a.1 + y.1) y.2 (.collWrite n k)) c2
        let c4 := (presWrites s g o).foldl (fun d y => d.reelWrite (a.2 + y.1) y.2 (.collWrite n k)) c3
        c4.collStatus n k
    else c

/-- COLLECTIVE_WRITE (R260). -/
def execCollectiveWrite (n k : Nat) (s : State) : Host.Outcome State Fault Refusal :=
  if n < 64 ∧ k < 64 then onRun s fun _ c => c.collWrite n k else .next s

/-- The collectives that reached DONE in the present DCLK count at its end: a CANCEL or fault of the DCLK would have abandoned them
(R269, R272). -/
def Core.collCounts (c : Core) : Core :=
  (c.ply.map Prod.fst).foldl (fun d n =>
    let g := d.plyPage n
    let k := (g.runs.filter fun (x : Nat × CollRun) => x.2.st == .done && (x.2.work.any fun w => w.endedAt == some c.dclk)).length
    if k = 0 then d else d.setPlyPage n { g with cnt3 := w64 (sat64 g.cnt3.toNat k) }) c

/-- COLLECTIVE_DONE (R260): every write is acknowledged. -/
def Core.collDone (c : Core) (n k : Nat) : Core :=
  let x := c.collRun n k
  match x.work with
  | none => c
  | some w =>
    if x.st == .write && !w.status && !(c.reelServing fun y => y == .collWrite n k) then
      let c1 := c.setCollRun n k { x with st := .done, work := some { w with endedAt := some c.dclk } }
      (c1.undefer w.task).settle w.task.ctx w.task.tag
    else c

/-- COLLECTIVE_DONE (R260). -/
def execCollectiveDone (n k : Nat) (s : State) : Host.Outcome State Fault Refusal :=
  if n < 64 ∧ k < 64 then onRun s fun _ c => c.collDone n k else .next s

/-! Contributions from other chips (R211, R268) -/

/-- A dropped contribution whose key names no collective of this chip: it counts, and neither flag applies (DESIGN CHOICE,
notes/assumptions/37). -/
def Core.plyStray (c : Core) (n : Nat) : Core :=
  let g := c.plyPage n
  c.setPlyPage n { g with cnt1 := satAdd g.cnt1 0 32 1 }

/-- An accepted contribution: taken while its collective is in EXCHANGE or has gone on, else held (R211, R268). -/
def Core.plyAccept (c : Core) (ctx : Nat) (taking : Bool) (h : PlyHeld) : Core := if taking then c.plyTake ctx h else c.holdPly h

/-- Whether a step takes contributions: from EXCHANGE on, unless it is abandoned. -/
def Moe.taking (m : Moe) : Bool := m.st == .exchange || m.st == .decide || m.st == .commit || m.st == .routed

/-- Whether a collective takes contributions. -/
def CollRun.taking (x : CollRun) : Bool := x.st == .exchange || x.st == .write || x.st == .done

/-- A contribution to a Carder exchange (R211, R268). -/
def Core.tableIn (c : Core) (h : PlyHeld) (e : GroupEnt) : Core :=
  let m := h.msg
  let t := c.table m.key.slot
  match t.tab with
  | none => c.plyStray e.ctx
  | some x =>
    if x.ctx ≠ e.ctx ∨ x.plyGroup ≠ m.key.group then c.plyStray e.ctx
    else if m.key.gen ≠ t.gen then c.tableDrop m.key.slot e.ctx (decide (t.gen < m.key.gen))
    else if m.params ≠ moeParams x e then c.plyDrop e.ctx true
    else c.plyAccept e.ctx t.taking h

/-- A contribution to the collective of a slot (R268). -/
def Core.slotIn (c : Core) (h : PlyHeld) (e : GroupEnt) : Core :=
  let m := h.msg
  let s := c.slot e.ctx m.key.slot
  if !bitAt (c.slotWord e.ctx m.key.slot 0) 63 || s.group != m.key.group then c.plyStray e.ctx
  else if m.key.gen ≠ (c.collRun e.ctx m.key.slot).gen then c.plyDrop e.ctx false
  else if m.params ≠ plyParams s e then c.plyDrop e.ctx true
  else c.plyAccept e.ctx (c.collRun e.ctx m.key.slot).taking h

/-- A contribution has arrived for this chip. One of a group without an entry here names no context: it counts as dropped on the page
of context 0 (DESIGN CHOICE, notes/assumptions/37). -/
def Core.plyIn (c : Core) (src : Nat) (m : PlyMsg) : Core :=
  let h : PlyHeld := { msg := m, src := some src, since := c.dclk }
  match c.groupEnt m.key.group with
  | none => c.plyStray 0
  | some e => if m.key.isTable then c.tableIn h e else c.slotIn h e

/-- PLY_FRAME (R268). -/
def execPlyFrame (a : Arrival) (s : State) : Host.Outcome State Fault Refusal :=
  if a.wf then
    onRun s fun _ c =>
      match c.arrive (fun p => match p with | .ply _ => true | _ => false) a with
      | (c1, some f) => match f.payload with | .ply m => c1.plyIn f.src m | _ => c1
      | (c1, none) => c1
  else .next s

/-! Slot registers (R255) -/

/-- The writable bits of word m of a slot (Table 10-9). -/
def slotMask (m : Nat) : W64 :=
  match m with
  | 0 => fields [(63, 63), (59, 56), (55, 54), (53, 53), (51, 48), (47, 44), (41, 32), (31, 12), (2, 2), (1, 1)]
  | 1 => fields [(63, 48), (47, 32), (31, 31), (30, 25), (24, 12)]
  | 2 => fields [(63, 32), (31, 16)]
  | 7 => fields [(63, 32), (31, 0)]
  | _ => fields [(63, 56), (55, 24)]

/-- A write of a slot register, taken only with no unfinished instance of the context (R255). -/
def Core.plySlotWrite (c : Core) (n k m : Nat) (v : W64) : Option Core :=
  if c.noRuns n then
    let g := c.plyPage n
    some (c.setPlyPage n { g with slots := aset g.slots k (aset (agetD g.slots k []) m (v &&& slotMask m)) })
  else none

/-- PLY_SLOT (R255). -/
def execPlySlot (n k m : Nat) (v : W64) (acc : Access) (s : State) : Host.Outcome State Fault Refusal :=
  if n < 64 ∧ k < 64 ∧ m < 8 then
    onWrite s (0x1C00000 + 0x10000 * n + 64 * k + 8 * m) v acc fun _ c => c.plySlotWrite n k m v
  else .next s

end Sys2Proof.Machine
end

