-- ==== Sys2Proof/Machine/Fabric.lean ====
section
/-! DEFINITION. The plan, the routes and the names of the fabric (12): FABRIC_PLAN_LOAD, ROUTE_LOAD, SPARE_MAP, LINK_ACCEPT,
and how a port is parked, starts training and returns to service (R298, R306, Table 12-6). -/

namespace Sys2Proof.Machine

/-! The images -/

/-- Whether the fields of each word that a table does not list are zero. -/
def onlyFields (l : List (W64 × W64)) : Bool := l.all fun x => x.1 &&& ~~~x.2 == 0

/-- A port entry of a plan image (Table 12-2). -/
def planPort (w0 w1 : W64) : PlanPort :=
  { present := bitAt w0 63, role := fld w0 60 3, nbrPort := fld w0 57 3, lanes := fld w0 52 5, rate := fld w0 50 2,
    asym := signed 16 (fld w1 48 16) }

/-- The plan that an image spells (Tables 12-1, 12-2). -/
def planOf (h : List W64) : Plan :=
  let w := fun n => h.getD n 0
  { rev := fld (w 0) 0 32, domain := fld (w 1) 48 16, self := fld (w 1) 32 16, nAxes := fld (w 1) 28 2 + 1,
    dims := (List.range 4).map fun a => fld (w 1) (7 * a) 7,
    spares := (List.range 4).map fun a => (List.range 64).filter fun i => bitAt (w (2 + a)) i,
    refs := (List.range 4).map fun i => fld (w 6) (16 * i) 16,
    datelines := (List.range 4).map fun a => fld (w 7) (6 * a) 6,
    ports := (List.range 8).map fun p => planPort (w (16 + 2 * p)) (w (17 + 2 * p)) }

/-- The reserved bits of a plan image. -/
def planReserved (h : List W64) : Bool :=
  let w := fun n => h.getD n 0
  onlyFields [(w 1, fields [(63, 32), (29, 0)]), (w 7, fields [(23, 0)])]
    && ((List.range 8).all fun i => w (8 + i) == 0)
    && (List.range 8).all fun p => onlyFields [(w (16 + 2 * p), fields [(63, 50)]), (w (17 + 2 * p), fields [(63, 48)])]

/-- The product of the physical lengths. -/
def Plan.product (p : Plan) : Nat := p.dims.foldl (· * ·) 1

/-- The present ports of a plan. -/
def Plan.present (p : Plan) : List Nat :=
  (List.range 8).filter fun i => match p.ports[i]? with | some x => x.present | none => false

/-- The entry of a port of a plan, where it is present. -/
def Plan.portAt (p : Plan) (i : Nat) : Option PlanPort :=
  match p.ports[i]? with
  | some x => if x.present then some x else none
  | none => none

/-- Check 1 of R297. -/
def planForm (h : List W64) (p : Plan) : Bool :=
  fld (h.getD 0 0) 32 32 == 0x504C4E34 && planReserved h && (p.dims.all fun d => decide (1 ≤ d) && decide (d ≤ 64))
    && p.present.all fun i => match p.ports[i]? with
      | some x => [1, 2, 4, 8, 16].contains x.lanes && x.rate != 3
      | none => false

/-- Checks 7 and 8 of R297: roles name axes in use, none twice, and every role of such an axis once. -/
def planRoles (p : Plan) : Bool :=
  let used := fun r => decide (r / 2 < p.nAxes) && decide (2 ≤ p.dims.getD (r / 2) 1)
  let roles := p.present.filterMap fun i => (p.ports[i]?).map (·.role)
  roles.all used && (List.range 8).all fun r => roles.count r == (if used r then 1 else 0)

/-- The checks of R297 in order. -/
def Core.planCheck (c : Core) (h : List W64) (p : Plan) : Except Verdict Unit := do
  let bad := vParam 2 2
  ensure (planForm h p) bad
  ensure (((p.dims.drop p.nAxes).all fun d => d == 1) && decide (p.product ≤ 65536)) bad
  ensure (decide (p.self < p.product) && !p.isSpare p.self) bad
  ensure ((List.range 4).all fun a => ((p.spares.getD a []).all fun x => decide (x < p.dims.getD a 1)) && decide (1 ≤ p.logLen a)) bad
  ensure (p.refs.all fun x => decide (x < p.product) && !p.isSpare x) bad
  ensure (p.present.all fun i => decide (i < c.cfg.linkPorts)) (vLimit 2 1)
  ensure (planRoles p) bad

/-! Ports -/

/-- A port is parked: it leaves service, keeps its place in the plan, its identity and its lanes (R303, R322). -/
def Core.linkPark (c : Core) (p : Nat) : Core :=
  let l := c.link p
  let c1 := c.setLink p { l with st := .parked, since := c.now, taken := false, farTaken := false, probes := [],
                                 beacon := none, ackDue := [], ackSince := none, unackAt := none, locked := false }
  if l.st = .active then (c1.setFab 0 p).pleachBegin p else c1

/-- A parked port starts training: where the plan in force marks it present, and always in a loop-back (Table 12-6, R388). -/
def Core.linkStart (c : Core) (p : Nat) : Core :=
  let l := c.link p
  let planned := match c.fab.plan with | some x => x.portAt p | none => none
  let w := agetD c.tl.link0 p (w64 (0x10 * 2 ^ 54))
  match planned with
  | some x =>
    if l.oos && !l.looped then c
    else (c.setLink p { l with lanes := x.lanes, rate := x.rate, kind := 0 }).linkPhyUp p
  | none =>
    if l.looped then (c.setLink p { l with lanes := fld w 54 5, rate := fld w 52 2, kind := 0 }).linkPhyUp p else c

/-- A port parked by a plan or a reset: nothing of its service is left, and its counters are zero (R298, R322). -/
def Core.linkClear (c : Core) (p : Nat) : Core :=
  let l := c.link p
  let c1 := c.setLink p { Link.reset with oos := l.oos }
  if l.st = .active then c1.setFab 0 p else c1

/-- Every frame held for routing is discarded and counted (R298, R308). -/
def Core.dropHeld (c : Core) : Core :=
  let waiting := fun l : Link => l.vl0.waiting.length + l.vl1.waiting.length + l.vl2.waiting.length + l.vl3.waiting.length
  let n := c.fab.held.length + sumBy (fun (x : Nat × Link) => waiting x.2) c.fab.ports
  { c with fab := { c.fab with
      held := [], cnt := satAdd c.fab.cnt 0 32 n,
      ports := c.fab.ports.map fun (x : Nat × Link) =>
        (x.1, { x.2 with vl0 := { x.2.vl0 with waiting := [] }, vl1 := { x.2.vl1 with waiting := [] },
                         vl2 := { x.2.vl2 with waiting := [] }, vl3 := { x.2.vl3 with waiting := [] } }) } }

/-- This chip becomes the reference of its domain, as candidate i: aligned is set and its count stands (R274, R314). -/
def Core.beReference (c : Core) (i : Nat) : Core :=
  { c with fab := { c.fab with isRef := true, hops := 0, refIdx := i, parent := none },
           gc := { c.gc with status := setBit c.gc.status 0 true, hold := 0, offsets := [], realign := false,
                             anchors := (c.gc.count, 3 * c.dclk) :: c.gc.anchors } }

/-- The candidate number of this chip, the lowest that names it (Table 12-1). -/
def Core.candidate_ (c : Core) : Option Nat :=
  match c.fab.plan with
  | none => none
  | some p => p.refs.findIdx? fun x => x == p.self

/-- A plan takes effect (R298). -/
def Core.planTake (c : Core) (p : Plan) : Core :=
  let c1 := c.dropHeld
  let c2 := (List.range c.cfg.linkPorts).foldl (fun d i => d.linkClear i) c1
  let c3 : Core := { c2 with
    fab := { c2.fab with plan := some p, planAt := c.now, route := none, spareMap := [], hops := 0xFF, refIdx := 0,
                         parent := none, isRef := false, refQuiet := c.now },
    gc := { c2.gc with status := setBit (setBit c2.gc.status 0 false) 1 false, offsets := [], realign := false, hold := 0 },
    tl := { c2.tl with linkDepth := [] } }
  let c4 : Core := if p.product = 1 then c3.beReference (c3.candidate_.getD 0)
            else if c3.candidate_ = some 0 then c3.beReference 0 else c3
  p.present.foldl (fun d i => (d.setLink i { d.link i with role := ((p.portAt i).map (·.role)).getD 0xF }).linkStart i) c4

/-- FABRIC_PLAN_LOAD, steps 9 to 15 (R297, R298). -/
def Core.fabricPlanLoad (c : Core) (p : Packet) : Except Verdict CpRes := do
  ensure (!c.otherOpen) (vState 8)
  step9 p (physFaults p 2 0)
  ensure (decide (256 ≤ pf p 3 0 32)) (vWord .badHandle 3 3)
  let h ← c.readFor 2 (physAddr p 2) 32
  let plan := planOf h
  c.planCheck h plan
  return .done vOk (c.planTake plan)

/-- FABRIC_PLAN_LOAD (R298). -/
def execFabricPlanLoad (s : State) : Host.Outcome State Fault Refusal :=
  onCommand s 0x60 fun _ c _ p => c.fabricPlanLoad p

/-! ROUTE_LOAD -/

/-- A route entry (Table 12-10). -/
def routeEnt (b : Byte) : RouteEnt :=
  { valid := b.getLsbD 7, transit := b.getLsbD 6, role := b.toNat % 8 }

/-- A group entry packed from bit 0 upward in the order of Table 10-1 (R307). -/
def groupEntOf (n : Nat) : GroupEnt :=
  { group := n % 2 ^ 16, ctx := n / 2 ^ 16 % 2 ^ 6, nLeaves := n / 2 ^ 22 % 2 ^ 17, first := n / 2 ^ 39 % 2 ^ 16,
    count := n / 2 ^ 55 % 2 ^ 17 }

/-- The route that an image spells: header words, route table bytes, group entries (R307). -/
def routeOf (h : List W64) (tab : List Byte) (groups : List Nat) : Route :=
  { sliceEn := bitAt (h.getD 1 0) 63, sliceId := fld (h.getD 1 0) 32 16, ctxMask := h.getD 2 0,
    lens := (List.range 4).map fun a => fld (h.getD 3 0) (28 + 7 * a) 7,
    starts := (List.range 4).map fun a => fld (h.getD 3 0) (6 * a) 6,
    table := tab.map routeEnt, groups := groups.map groupEntOf }

/-- The checks of R308 in order. -/
def Core.routeCheck (c : Core) (pl : Plan) (h : List W64) (tab : List Byte) (groups : List Nat) (r : Route) :
    Except Verdict Unit := do
  let bad := vParam 2 2
  ensure (fld (h.getD 0 0) 32 32 == 0x524F5434 && fld (h.getD 0 0) 0 32 == pl.rev
    && onlyFields [(h.getD 1 0, fields [(63, 63), (47, 32), (10, 0)]), (h.getD 3 0, fields [(55, 28), (23, 0)])]
    && ((List.range 4).all fun i => h.getD (4 + i) 0 == 0) && (tab.all fun b => b.toNat / 8 % 8 == 0)
    && groups.all fun g => g / 2 ^ 72 == 0) bad
  let roles := pl.present.filterMap fun i => (pl.portAt i).map (·.role)
  ensure (r.table.all fun e => !e.valid || roles.contains e.role) bad
  ensure (!r.sliceEn ||
    (((List.range 4).all fun a => decide (1 ≤ r.lens.getD a 0) && decide (r.lens.getD a 0 ≤ pl.logLen a)
        && decide (r.starts.getD a 0 < pl.logLen a))
      && (match c.myLogical with | some l => inBlock pl r l | none => false))) bad
  ensure (r.groups.all fun g =>
    bitAt r.ctxMask g.ctx && decide (1 ≤ g.nLeaves) && decide (g.nLeaves ≤ 65536)
      && decide (g.first + g.count ≤ g.nLeaves)) bad

/-- New tables take effect (R308, R318, R347): Pleach ends on every port and the frame counters restart. -/
def Core.routeTake (c : Core) (r : Route) : Core :=
  let c1 := c.dropHeld
  { c1 with
    fab := { c1.fab with route := some r, ports := c1.fab.ports.map fun (x : Nat × Link) =>
      (x.1, { x.2 with pleach := false, psyncAt := none, wasActive := x.2.st == .active && !x.2.looped }) },
    clip := { c1.clip with tx := 0, rx := 0 } }

/-- ROUTE_LOAD, steps 9 to 15 (R308). -/
def Core.routeLoad (c : Core) (p : Packet) : Except Verdict CpRes := do
  step9 p (physFaults p 2 0)
  match c.fab.plan with
  | none => .error (vState 4)
  | some pl => do
    ensure c.allIdle (vState 5)
    let size := pf p 3 0 32
    let a := physAddr p 2
    ensure (decide (64 ≤ size)) (vWord .badHandle 3 3)
    let h ← c.readFor 2 a 8
    let ng := fld (h.getD 1 0) 0 11
    ensure (decide (ng ≤ 1024)) (vParam 2 2)
    let gAt := lines64 (64 + pl.product)
    ensure (decide (gAt + 16 * ng ≤ size)) (vWord .badHandle 3 3)
    match c.readBytes (a + 64) pl.product, c.readBytes (a + gAt) (16 * ng) with
    | .ok tab, .ok gb => do
      let groups := chunks 16 ng gb
      let r := routeOf h tab groups
      c.routeCheck pl h tab groups r
      return .done vOk (c.routeTake r)
    | .error k, _ => .error (vFaulted 2 k)
    | .ok _, .error k => .error (vFaulted 2 k)

/-- ROUTE_LOAD (R308). -/
def execRouteLoad (s : State) : Host.Outcome State Fault Refusal := onCommand s 0x61 fun _ c _ p => c.routeLoad p

/-! SPARE_MAP -/

/-- SPARE_MAP, steps 9 to 15 (R319). -/
def Core.spareMap (c : Core) (p : Packet) : Except Verdict CpRes := do
  step9 p []
  let l := pf p 2 0 16
  let x := pf p 2 16 16
  match c.fab.plan with
  | none => .error (vState 4)
  | some pl => do
    ensure c.allIdle (vState 5)
    ensure (decide (l < pl.logCount) && decide (x < pl.product) && pl.isSpare x
      && !(c.fab.spareMap.any fun (m : Nat × Nat) => m.2 == x && m.1 != l)) (vParam 2 2)
    return .done vOk { c with fab := { c.fab with spareMap := aset c.fab.spareMap l x } }

/-- SPARE_MAP (R319). -/
def execSpareMap (s : State) : Host.Outcome State Fault Refusal := onCommand s 0x62 fun _ c _ p => c.spareMap p

/-! Identities -/

/-- Whether a port is in a loop-back of depths 0x01 to 0x04. -/
def Core.selfLooped (c : Core) (p : Nat) : Bool := (c.link p).looped && agetD c.tl.linkDepth p 0 != 5

/-- The identity the plan expects of a port (R305), in a loop-back the port itself (R388). -/
def Core.expected (c : Core) (p : Nat) : Option (Nat × Nat) :=
  if c.selfLooped p then some (c.self, p)
  else
    match c.fab.plan with
    | none => none
    | some pl => (pl.portAt p).map fun x => (pl.step pl.self x.role, x.nbrPort)

/-- The role of this chip whose expected identity is the one observed (R306). -/
def Core.roleOfIdent (c : Core) (ident : Nat × Nat) : Option Nat :=
  match c.fab.plan with
  | none => none
  | some pl => pl.present.findSome? fun i => if c.expected i == some ident && !c.selfLooped i then (pl.portAt i).map (·.role) else none

/-- The kind that a port shows once an identity is taken (R306, Table 12-8): NONE where the identity is, or by the acceptance
became, an expected one. -/
def Core.takenKind (c : Core) (p : Nat) (ident : Nat × Nat) : Nat :=
  let e := c.expected p
  if e == some ident || e.map Prod.fst == some ident.1 || (c.roleOfIdent ident).isSome then 0 else 3

/-- The role that an accepted identity gives a port (R306). -/
def Core.acceptRole (c : Core) (p : Nat) (ident : Nat × Nat) : Nat :=
  match c.roleOfIdent ident with
  | some r => if (c.link p).kind = 4 then (c.link p).role else r
  | none => if (c.link p).kind = 4 then (c.link p).role else 0xF

/-- A port's role changes: the frames that waited on its lanes wait for the role it had. -/
def Core.setRole (c : Core) (p role : Nat) : Core :=
  let l := c.link p
  if l.role = role then c
  else
    let waits := [0, 1, 2, 3].flatMap fun v => (l.lane v).waiting.map fun f => (l.role, v, f)
    { (c.setLink p { l with role := role, vl0 := { l.vl0 with waiting := [] }, vl1 := { l.vl1 with waiting := [] },
                            vl2 := { l.vl2 with waiting := [] }, vl3 := { l.vl3 with waiting := [] } }) with
      fab := { (c.setLink p { l with role := role, vl0 := { l.vl0 with waiting := [] }, vl1 := { l.vl1 with waiting := [] },
                                     vl2 := { l.vl2 with waiting := [] }, vl3 := { l.vl3 with waiting := [] } }).fab with
               held := c.fab.held ++ waits } }

/-- A port takes a role; any other that holds it loses it (R306). -/
def Core.giveRole (c : Core) (p role : Nat) : Core :=
  let others := if role = 0xF then [] else
    (c.fab.ports.filter fun (x : Nat × Link) => x.1 != p && x.2.role == role).map Prod.fst
  (others.foldl (fun d q => d.setRole q 0xF) c).setRole p role

/-- The identity that a HELD port observes is accepted (R306). -/
def Core.linkTake (c : Core) (p : Nat) : Core :=
  let l := c.link p
  let ident := (l.obsPos, l.obsPort)
  let c1 := c.giveRole p (c.acceptRole p ident)
  (c1.setLink p { c1.link p with st := .ident, since := c.now, taken := true, accepted := some ident,
                                 kind := c.takenKind p ident }).retryHeld

/-- LINK_ACCEPT, steps 9 to 15 (R306). -/
def Core.linkAcceptCmd (c : Core) (p : Packet) : Except Verdict CpRes := do
  step9 p []
  let i := pf p 2 0 3
  ensure ((c.link i).st == .held && decide (i < c.cfg.linkPorts)) (vState 4)
  return .done vOk (if pb p 2 8 then c.linkTake i else c)

/-- LINK_ACCEPT (R306). -/
def execLinkAccept (s : State) : Host.Outcome State Fault Refusal := onCommand s 0x63 fun _ c _ p => c.linkAcceptCmd p

end Sys2Proof.Machine
end

