-- ==== Sys2Proof/Machine/Train.lean ====
section
/-! DEFINITION. The rows of the link ports (12): training (R303), beacons and the count they carry (R304, R305, R313 to
R315), acknowledgement (R301, R302), Pleach (R316), and the loop-backs that train as they do (R388 to R390). -/

namespace Sys2Proof.Machine

/-! Classification of beacons (R305) -/

/-- A port reports PLAN_REV or DOMAIN and stays in IDENT (R303): mismatch is set when it begins to. -/
def Core.identMismatch (c : Core) (p kind : Nat) : Core :=
  let l := c.link p
  if l.kind = kind then c else (c.setLink p { l with kind := kind, taken := false }).setFab 2 p

/-- A port whose observed identity is not expected is HELD (Table 12-8). -/
def Core.identHold (c : Core) (p kind peer : Nat) : Core :=
  (c.setLink p { c.link p with taken := false, peerPort := peer }).linkHold p kind

/-- The second port of a SWAPPED pair: HELD with the first, in the one record that names both (R305). -/
def Core.swapSecond (c : Core) (q p : Nat) : Core :=
  let l := c.link q
  if l.st = .ident ∨ l.st = .held then
    (c.setLink q { l with st := .held, kind := 5, peerPort := p, taken := false, since := c.now }).pleachBegin q
  else c

/-- The second local port whose expected identity a port observes (R305). -/
def Core.otherPort (c : Core) (p : Nat) (ident : Nat × Nat) : Option Nat :=
  if c.selfLooped p then none
  else findBelow c.cfg.linkPorts fun q => q != p && !c.selfLooped q && c.expected q == some ident

/-- The identity a beacon carries. -/
def beaconIdent (b : Beacon) : Nat × Nat := (b.self, b.port)

/-- A port in IDENT compares the beacon it holds with what is expected (R305, Table 12-8). -/
def Core.identify (c : Core) (p : Nat) : Core :=
  let l := c.link p
  match l.st, l.beacon with
  | .ident, some b =>
    let own := c.fab.plan
    let e := c.expected p
    if b.domainId ≠ (own.map (·.domain)).getD 0 then c.identMismatch p 7
    else if b.planRev ≠ (own.map (·.rev)).getD 0 then c.identMismatch p 6
    else if e = some (beaconIdent b) ∨ l.accepted = some (beaconIdent b) then
      let role := if e = some (beaconIdent b) ∧ !l.looped then
          (match own with | some pl => ((pl.portAt p).map (·.role)).getD l.role | none => l.role)
        else l.role
      let c1 := if role = l.role then c else c.giveRole p role
      c1.setLink p { c1.link p with taken := true, peerPort := 0, kind := c.takenKind p (beaconIdent b) }
    else
      let kind := if e.map Prod.fst = some b.self then 4 else 3
      match c.otherPort p (beaconIdent b) with
      | none => c.identHold p kind 0
      | some q =>
        let k := c.link q
        match k.beacon with
        | some bq =>
          if e = some (beaconIdent bq) then (c.identHold p 5 q).swapSecond q p else c.identHold p kind 0
        | none => if k.st = .failed ∨ k.st = .parked then c.identHold p kind 0 else c
  | _, _ => c

/-- Every port in IDENT is looked at again: what one port observes can decide another (R305). -/
def Core.identifyAll (c : Core) : Core := (List.range c.cfg.linkPorts).foldl (fun d p => d.identify p) c

/-- A port fails, and the ports that waited for what it observes are decided (R305). -/
def Core.failPort (c : Core) (p kind : Nat) : Core := (c.linkFail p kind).identifyAll

/-! Training (Table 12-6) -/

/-- Whether a link port exists. -/
def Core.isLink (c : Core) (p : Nat) : Bool := decide (p < c.cfg.linkPorts)

/-- A row of a link port of the configuration. -/
def onLink (s : State) (p : Nat) (f : Core → Link → Core) : Host.Outcome State Fault Refusal :=
  onRun s fun _ c => if c.isLink p then f c (c.link p) else c

/-- LINK_LOCK_LOSS (R302, R303). -/
def execLinkLockLoss (p : Nat) (s : State) : Host.Outcome State Fault Refusal :=
  onLink s p fun c l =>
    if l.st = .ident ∨ l.st = .held ∨ l.st = .measure ∨ l.st = .active then c.linkPhyUp p else c

/-- PHY_UP_LOCKED (R303). -/
def execPhyUpLocked (p : Nat) (s : State) : Host.Outcome State Fault Refusal :=
  onLink s p fun c l => if l.st = .phyUp then c.setLink p { l with st := .align, since := c.now, locked := false } else c

/-- PHY_UP_TIMEOUT: 2^20 SCLK without lock (R303). -/
def execPhyUpTimeout (p : Nat) (s : State) : Host.Outcome State Fault Refusal :=
  onLink s p fun c l => if l.st = .phyUp ∧ l.since + 2 ^ 20 * 48 ≤ c.now then c.failPort p 1 else c

/-- CODEWORD_LOCK: with a skew of at most 8 words the port enters IDENT; a reflecting port stays in ALIGN (R41, R303,
R389). -/
def execCodewordLock (p skew : Nat) (s : State) : Host.Outcome State Fault Refusal :=
  onLink s p fun c l =>
    if l.st = .align ∧ skew ≤ 8 then
      if l.looped ∧ !c.selfLooped p then c.setLink p { l with locked := true }
      else c.setLink p { l with st := .ident, since := c.now, locked := true, beacon := none }
    else c

/-- ALIGN_TIMEOUT: 2^16 PCLK without codeword lock (R303). -/
def execAlignTimeout (p : Nat) (s : State) : Host.Outcome State Fault Refusal :=
  onLink s p fun c l => if l.st = .align ∧ !l.locked ∧ l.since + 2 ^ 16 * 4 ≤ c.now then c.failPort p 2 else c

/-- IDENT_TIMEOUT: 2^20 DCLK without a beacon of this chip's plan (R303). -/
def execIdentTimeout (p : Nat) (s : State) : Host.Outcome State Fault Refusal :=
  onLink s p fun c l =>
    if l.st = .ident ∧ (l.beacon.isNone ∨ l.kind = 6 ∨ l.kind = 7) ∧ l.since + 2 ^ 20 * 3 ≤ c.now then c.failPort p 1
    else c

/-- MEASURE_TIMEOUT: 2^20 DCLK without a latency (R303). -/
def execMeasureTimeout (p : Nat) (s : State) : Host.Outcome State Fault Refusal :=
  onLink s p fun c l => if l.st = .measure ∧ l.since + 2 ^ 20 * 3 ≤ c.now then c.failPort p 2 else c

/-- FAILED_RETRY: 2^24 SCLK after entry to FAILED (R303). -/
def execFailedRetry (p : Nat) (s : State) : Host.Outcome State Fault Refusal :=
  onLink s p fun c l => if l.st = .failed ∧ l.since + 2 ^ 24 * 48 ≤ c.now then c.linkPhyUp p else c

/-! The parent and the count (R314, R315) -/

/-- What an ACTIVE port offers as a parent: the beacon it holds (R314, R388). -/
def Link.offer (l : Link) : Option Beacon :=
  if l.st = .active ∧ !l.looped then
    match l.beacon with
    | some b => if b.aligned ∧ b.hops < 128 then some b else none
    | none => none
  else none

/-- The port that R314 chooses as parent. -/
def Core.bestParent (c : Core) : Option (Nat × Beacon) :=
  let all := (List.range c.cfg.linkPorts).filterMap fun p => (c.link p).offer.map fun b => (p, b)
  (sortBy (fun x y => keysLt [x.2.refIdx, x.2.hops, x.1] [y.2.refIdx, y.2.hops, y.1]) all).head?

/-- The parent is chosen again; a reference that is offered a lower candidate gives way to it (R314). -/
def Core.chooseParent (c : Core) : Core :=
  let best := c.bestParent
  let lower := match best with | some x => decide (x.2.refIdx < c.fab.refIdx) | none => false
  if c.fab.isRef && !lower then c
  else
    match best with
    | none => { c with fab := { c.fab with parent := none, hops := 0xFF } }
    | some (p, b) =>
      let c1 := { c with fab := { c.fab with isRef := false, parent := some p, hops := b.hops + 1, refIdx := b.refIdx } }
      if c.fab.parent = some p then c1 else { c1 with gc := { c1.gc with offsets := [] } }

/-- An average in units of 1/256 DCLK, rounded to the nearest DCLK with ties away from zero (R315). -/
def roundOffset (offs : List Int) : Int :=
  let s := offs.foldl (· + ·) 0
  let d : Int := 256 * (max 1 offs.length : Nat)
  if 0 ≤ s then (2 * s + d) / (2 * d) else -((-2 * s + d) / (2 * d))

/-- Saturation at the limits of last_offset (Table 11-6). -/
def offsetField (o : Int) : Nat := twos 16 (max (-32768) (min 32767 o))

/-- The even number nearest to an offset, the higher of two: a count keeps its place among the ECLK edges (R51, R275; DEDUCED,
notes/assumptions/96). -/
def evenOffset (o : Int) : Int := 2 * ((o + 1) / 2)

/-- While aligned is 0, the domain's value is acquired (R315): at or above the own count it is taken, below it the count is
held. The offsets measured before do not hold after it. -/
def Core.acquire (c : Core) (avg : Int) : Core :=
  let o := evenOffset avg
  if 0 ≤ o then
    let n := (c.gc.count + o.toNat) % 2 ^ 64
    { c with gc := { c.gc with count := n, hold := 0, offsets := [], anchors := (n, 3 * c.dclk) :: c.gc.anchors,
                               status := setBit c.gc.status 0 true, realign := false } }
  else { c with gc := { c.gc with hold := (-o).toNat, offsets := [], realign := false } }

/-- An offset beyond ±2 was measured (R276). -/
def Core.loseAlign (c : Core) : Core :=
  ({ c with gc := { c.gc with status := setBit (setBit c.gc.status 0 false) 2 true } }.mark 0x48 2).logClock 5

/-- A beacon of the parent gives the offset of the domain (R315, R276). The own phase at arrival is no operand of the row: a
free value. -/
def Core.countBeacon (c : Core) (p : Nat) (b : Beacon) : Core :=
  let x := c.drawWord
  let off : Int := ((b.count : Int) - (c.gc.count : Int)) * 256 + b.phase + (c.link p).latency - (x.1.toNat % 256 : Nat)
  let c1 := x.2
  let offs := (off :: c1.gc.offsets).take 16
  let avg := roundOffset offs
  let c2 := { c1 with gc := { c1.gc with offsets := offs, status := setFld c1.gc.status 32 16 (offsetField avg) } }
  if bitAt c2.gc.status 0 then
    if avg.natAbs ≤ 2 then c2
    else if 4096 < avg.natAbs ∧ c2.graph.runs = [] then c2.loseAlign.acquire avg
    else
      let c3 := c2.loseAlign
      { c3 with gc := { c3.gc with realign := true } }
  else if c2.gc.realign then
    if avg.natAbs ≤ 2 then { c2 with gc := { c2.gc with status := setBit c2.gc.status 0 true, realign := false } } else c2
  else c2.acquire avg

/-- An ACTIVE port's offer of a lower candidate restarts the time of R314. -/
def Core.noteOffer (c : Core) (p : Nat) : Core :=
  match c.candidate_, (c.link p).offer with
  | some i, some b => if b.refIdx < i then { c with fab := { c.fab with refQuiet := c.now } } else c
  | _, _ => c

/-- At the beginning of a DCLK, ports in IDENT whose identity both ends took by the DCLK before enter MEASURE (R303, R321), and every
port in MEASURE that has not sent 1,024 PROBE frames sends one (R313; one a DCLK: DESIGN CHOICE, notes/assumptions/97). -/
def Core.measureTick (c : Core) : Core :=
  (c.fab.ports.map Prod.fst).foldl (fun d p =>
    let l := d.link p
    let l1 := if l.st = .ident ∧ l.taken ∧ l.farTaken then { l with st := .measure, since := d.now, probes := [], probeNext := 0 } else l
    if l1.st = .measure ∧ l1.probeNext < 1024 then
      (d.setLink p { l1 with probeNext := l1.probeNext + 1 }).sendLocal p (.probe (.fresh l1.probeNext))
    else d) c

/-- A good beacon arrives on a port that takes it (R276, R303, R305, R314, R315). -/
def Core.beaconTaken (c : Core) (p : Nat) (b : Beacon) : Core :=
  let c0 := { c with gc := { c.gc with lastBeacon := c.now, status := setBit c.gc.status 1 false } }
  let l := c0.link p
  match l.st with
  | .ident =>
    let c1 := c0.setLink p { l with beacon := some b, farTaken := b.taken, obsPos := b.self, obsPort := b.port }
    c1.identifyAll
  | .held =>
    if (beaconIdent b) = (l.obsPos, l.obsPort) then c0.setLink p { l with beacon := some b, farTaken := b.taken }
    else c0.setLink p { l with st := .ident, since := c.now, beacon := none, farTaken := b.taken }
  | .measure => c0.setLink p { l with beacon := some b, farTaken := b.taken }
  | .active =>
    let c1 := ((c0.setLink p { l with beacon := some b, farTaken := b.taken }).noteOffer p).chooseParent
    if c1.fab.parent = some p ∧ c1.fab.isRef = false then c1.countBeacon p b else c1
  | _ => c

/-- A link-local frame that fails its CRC is counted and ignored (R299, Table 12-5). -/
def Core.crcFail (c : Core) (p : Nat) : Core :=
  let l := c.link p
  c.setLink p { l with cnt0 := satAdd l.cnt0 32 32 1 }

/-- A link-local frame reaches a port: a reflecting port turns it around, a bad one is counted, and a good one has its
acknowledgement taken on a port in ACTIVE. Nothing where the port does not take frames in its state. -/
def Core.localFrame (c : Core) (p : Nat) (f : Frame) : Core × Bool :=
  let l := c.link p
  if c.reflecting p then (c.reflect p f, false)
  else if l.st ≠ .ident ∧ l.st ≠ .held ∧ l.st ≠ .measure ∧ l.st ≠ .active then (c, false)
  else if !crcOk f then (c.crcFail p, false)
  else if l.st = .active then
    let d := c.takeAck p f
    (d, (d.link p).st == .active)
  else (c, true)

/-- BEACON (R305, R315). -/
def execBeaconFrame (p : Nat) (f : Frame) (s : State) : Host.Outcome State Fault Refusal :=
  if f.wf then
    onLink s p fun c _ =>
      match f.payload with
      | .beacon b =>
        match c.localFrame p f with
        | (d, true) => d.beaconTaken p b
        | (d, false) => d
      | _ => c
  else .next s

/-- The beacon of a port (Table 12-7): its phase is the time of its first byte after the DCLK edge, a free value. -/
def Core.beaconOf (c : Core) (p phase : Nat) : Beacon :=
  let l := c.link p
  let al := bitAt c.gc.status 0
  { count := c.gc.count, phase := phase, refIdx := c.fab.refIdx, hops := if al then c.fab.hops else 0xFF, aligned := al,
    taken := l.taken, port := p, kind := l.kind, self := c.self,
    domainId := (c.fab.plan.map (·.domain)).getD 0, planRev := (c.fab.plan.map (·.rev)).getD 0 }

/-- A port sends its beacon, in a state from IDENT onward (R304). -/
def Core.sendBeacon (c : Core) (p : Nat) : Core :=
  let l := c.link p
  if l.st = .ident ∨ l.st = .held ∨ l.st = .measure ∨ l.st = .active ∨ l.st = .failed then
    let x := c.drawWord
    x.2.sendLocal p (.beacon (x.2.beaconOf p (x.1.toNat % 256)))
  else c

/-- BEACON_SEND: once for each multiple of 4,096 of the count (R304). -/
def execBeaconSend (s : State) : Host.Outcome State Fault Refusal :=
  onRun s fun _ c =>
    let k := c.gc.count / 4096
    if c.fab.beaconAt = some k then c
    else
      let d := (List.range c.cfg.linkPorts).foldl (fun e p => e.sendBeacon p) c
      { d with fab := { d.fab with beaconAt := some k } }

/-! Probes and test frames (R313, R388 to R390) -/

/-- Test frames fill the replay buffer of a port whose loop-back is ACTIVE (R388). -/
def Core.testFill (p : Nat) : Nat → Core → Core
  | 0, c => c
  | n + 1, c =>
    let l := c.link p
    if l.st ≠ .active ∨ !c.selfLooped p ∨ 122 ≤ l.testLane.replay.length then c
    else
      let k := agetD c.tl.linkTx p 0
      let g := l.stamp { c.mkFrame 0 0 (.probe (.test k (testWords k))) with vl := 2 }
      let a := g.2.testLane
      let l1 := { g.2 with testLane := { a with nextSeq := (a.nextSeq + 1) % 4096, replay := a.replay ++ [sealed { g.1 with seq := a.nextSeq }] },
                           unackAt := match g.2.unackAt with | some t => some t | none => some c.now }
      let c1 := c.setLink p l1
      Core.testFill p n { c1 with tl := { c1.tl with linkTx := aset c1.tl.linkTx p (sat64 k 1) } }

/-- A test frame accepted in order: compared with its sequence and counted, with the sequence numbers it shows were never received
(R388, Table 16-11). -/
def Core.testTaken (c : Core) (p seq : Nat) (words : List W64) : Core :=
  let next := agetD c.tl.linkNext p 0
  let w := agetD c.tl.linkBad p 0
  let w1 := satAdd w 0 32 (seq - next)
  { c with tl := { c.tl with linkRx := aset c.tl.linkRx p (sat64 (agetD c.tl.linkRx p 0) 1),
                             linkBad := aset c.tl.linkBad p (if words = testWords seq then w1 else satAdd w1 32 32 1),
                             linkNext := aset c.tl.linkNext p (max next (seq + 1)) } }

/-- A test frame reaches a port in a loop-back: its own sequence, replayed as R301 gives (R388). -/
def Core.testFrame (c : Core) (p : Nat) (f : Frame) (seq : Nat) (words : List W64) : Core :=
  let l := c.link p
  if c.reflecting p then c.reflect p f
  else if l.st ≠ .active ∨ !c.selfLooped p then c
  else if !crcOk f then
    let c1 := c.crcFail p
    if l.testLane.gap && f.seq != l.testLane.expect then c1 else c1.sendNak p 2
  else
    let c1 := c.takeAck p f
    let l1 := c1.link p
    let a := l1.testLane
    let c2 :=
      if f.seq = a.expect then
        (c1.setLink p ({ l1 with testLane := { a with expect := (a.expect + 1) % 4096, gap := false } }.owe c.now 2)).testTaken
          p seq words
      else if seqBefore f.seq a.expect then c1.setLink p (l1.owe c.now 2)
      else if a.gap then c1 else c1.sendNak p 2
    Core.testFill p 122 c2

/-- A fresh probe is returned with the times at which it came and went, which are free values (R313); in a loop-back only the
port's own (R390). -/
def Core.returnProbe (c : Core) (p id src : Nat) : Core :=
  if c.selfLooped p ∧ src ≠ c.self then c
  else
    let x := c.drawWord
    let y := x.2.drawWord
    let tin := c.gc.count * 256 + x.1.toNat % 256
    y.2.sendLocal p (.probe (.returned id tin (tin + y.1.toNat) 0 0))

/-- A returned probe gives one round trip less the far end's turnaround (R313). -/
def Core.probeBack (c : Core) (p id farIn farOut sentAt gotAt : Nat) : Core :=
  let l := c.link p
  if l.st = .measure ∧ id < l.probeNext ∧ l.probes.length < 1024 then
    c.setLink p { l with probes := l.probes ++ [(gotAt - sentAt) - (farOut - farIn)] }
  else c

/-- PROBE (R313, R388). -/
def execProbeFrame (p : Nat) (f : Frame) (s : State) : Host.Outcome State Fault Refusal :=
  if f.wf then
    onLink s p fun c _ =>
      match f.payload with
      | .probe (.test seq words) => c.testFrame p f seq words
      | .probe (.fresh id) =>
        match c.localFrame p f with
        | (d, true) => d.returnProbe p id f.src
        | (d, false) => d
      | .probe (.returned id farIn farOut sentAt gotAt) =>
        match c.localFrame p f with
        | (d, true) => d.probeBack p id farIn farOut sentAt gotAt
        | (d, false) => d
      | _ => c
  else .next s

/-- The latency that the probes give (R313): half the mean round trip with the plan's correction; in a loop-back the whole
loop (R388). The mean is over the probes that came back (DESIGN CHOICE, notes/assumptions/97). -/
def Core.latencyOf (c : Core) (p : Nat) : Nat :=
  let l := c.link p
  let sum := l.probes.foldl (· + ·) 0
  let n := l.probes.length
  if l.looped then sum / n % 2 ^ 24
  else
    let asym := match c.fab.plan with | some pl => ((pl.portAt p).map (·.asym)).getD 0 | none => 0
    twos 24 ((sum / (2 * n) : Nat) + asym)

/-- Frames of a port that are sent again. -/
def Link.unacked (l : Link) : Nat :=
  if l.looped then l.testLane.replay.length
  else if l.role = 0xF then 0
  else l.vl0.replay.length + l.vl1.replay.length + l.vl2.replay.length + l.vl3.replay.length

/-- A measured port enters ACTIVE: replay resumes from the first unacknowledged frame, and what waited is sent (R302,
R303). -/
def Core.enterActive (c : Core) (p : Nat) : Core :=
  let l := c.link p
  let n := l.unacked
  let l1 := { l with st := .active, since := c.now, latency := c.latencyOf p, wasActive := l.wasActive || !l.looped,
                     cnt0 := satAdd l.cnt0 0 32 n, unackAt := if n = 0 then none else some c.now }
  Core.testFill p 122 (c.setLink p (l1.pump c.now)).retryHeld

/-- LATENCY_MEASURED: every PROBE was sent, and those that are not lost came back (R303, R313). -/
def execLatencyMeasured (p : Nat) (s : State) : Host.Outcome State Fault Refusal :=
  onLink s p fun c l => if l.st = .measure ∧ l.probeNext = 1024 ∧ !l.probes.isEmpty then c.enterActive p else c

/-! Acknowledgement (R301, R302) -/

/-- ACK (R301). -/
def execAckFrame (p : Nat) (f : Frame) (s : State) : Host.Outcome State Fault Refusal :=
  if f.wf then
    onLink s p fun c _ =>
      match f.payload with
      | .ack => Core.testFill p 122 (c.localFrame p f).1
      | _ => c
  else .next s

/-- ACK_TIMER: 1,024 PCLK with an acknowledgement owed and no frame to carry it (R301). -/
def execAckTimer (p : Nat) (s : State) : Host.Outcome State Fault Refusal :=
  onLink s p fun c l =>
    match l.ackSince with
    | some t =>
      if l.st = .active ∧ t + 1024 * 4 ≤ c.now then l.ackDue.foldl (fun d _ => d.sendLocal p .ack) c else c
    | none => c

/-- UNACKNOWLEDGED_TIMEOUT: 2^16 PCLK with frames unacknowledged (R302). -/
def execUnacknowledgedTimeout (p : Nat) (s : State) : Host.Outcome State Fault Refusal :=
  onLink s p fun c l =>
    match l.unackAt with
    | some t => if l.st = .active ∧ t + 2 ^ 16 * 4 ≤ c.now then c.linkPhyUp p else c
    | none => c

/-- The symbol errors that RS(544,514) corrects in a codeword (R42). -/
def rsCorrects : Nat := (544 - 514) / 2

/-- UNCORRECTABLE_CODEWORD: a codeword with some symbol errors. Up to 15 are corrected and only counted; one with more is
uncorrectable, is counted, and each lane that lost a frame returns a NAK (R42, R301, R322). -/
def execUncorrectableCodeword (p : Nat) (lost : List Nat) (s : State) (errors : Nat := 16) :
    Host.Outcome State Fault Refusal :=
  onLink s p fun c l =>
    if l.st = .parked ∨ errors = 0 then c
    else if errors ≤ rsCorrects then c.setLink p { l with cnt1 := satAdd l.cnt1 32 32 1 }
    else
      let c1 := c.setLink p { l with cnt1 := satAdd l.cnt1 0 32 1 }
      if l.st = .active then
        (lost.filter fun v => decide (v < 4)).foldl (fun d v =>
          if ((d.link p).ackLane v).gap then d else d.sendNak p v) c1
      else c1

/-! Pleach (R316) -/

/-- The far end of a lost link tells the last VL3 frame it received: those up to it are done, the rest go through
Pleach. -/
def Core.psyncIn (c : Core) (last p : Nat) : Core :=
  let l := c.link p
  let rest := l.vl3.replay.dropWhile fun f => seqBefore f.seq ((last + 1) % 4096)
  if l.pleach then
    let c1 := c.setLink p { l with psyncAt := none, vl3 := { l.vl3 with replay := [] } }
    rest.foldl (fun d f => d.sendPleach p l.role f) c1
  else c.setLink p { l with psyncAt := none, vl3 := { l.vl3 with replay := rest } }

/-- PSYNC (R316). -/
def execPsyncFrame (a : Arrival) (s : State) : Host.Outcome State Fault Refusal :=
  if a.wf then
    onRun s fun _ c =>
      match c.arrive payPsync a with
      | (d, some f) =>
        (match f.payload with
         | .psync last p => if d.isLink p then d.psyncIn last p else d
         | _ => d)
      | (d, none) => d
  else .next s

/-- PSYNC_TIMEOUT: 2^20 DCLK without the far end's PSYNC (R316). -/
def execPsyncTimeout (p : Nat) (s : State) : Host.Outcome State Fault Refusal :=
  onLink s p fun c l =>
    match l.psyncAt with
    | some t =>
      if t ≤ c.now then
        (c.setLink p { l with psyncAt := none, vl3 := { l.vl3 with replay := [] } }).pleachLost p l.vl3.replay.length
      else c
    | none => c

/-! SZ_LK_CTRL (Table 12-22) -/

/-- A write of SZ_LK_CTRL: oos first, then retrain on a port in ACTIVE or FAILED (Table 12-6). -/
def Core.lkCtrlWrite (c : Core) (p : Nat) (v : W64) : Option Core :=
  if !c.isLink p then some c
  else
    let l := c.link p
    let c1 :=
      if bitAt v 0 && !l.oos then (c.setLink p { l with oos := true }).linkPark p
      else if !bitAt v 0 && l.oos then (c.setLink p { l with oos := false }).linkStart p
      else c
    let st := (c1.link p).st
    some (if bitAt v 1 && (st == .active || st == .failed) then c1.linkPhyUp p else c1)

/-- RETRAIN: a write of SZ_LK_CTRL (R303). -/
def execRetrain (p : Nat) (v : W64) (acc : Access) (s : State) : Host.Outcome State Fault Refusal :=
  if p < 8 then onWrite s (0x1400128 + 0x40 * p) v acc fun _ c => c.lkCtrlWrite p v else .next s

/-- OOS: a write of SZ_LK_CTRL (R322). -/
def execOos (p : Nat) (v : W64) (acc : Access) (s : State) : Host.Outcome State Fault Refusal :=
  if p < 8 then onWrite s (0x1400128 + 0x40 * p) v acc fun _ c => c.lkCtrlWrite p v else .next s

/-! Time without beacons -/

/-- HOLDOVER (R276). -/
def execHoldover (s : State) : Host.Outcome State Fault Refusal :=
  onRun s fun _ c =>
    match c.fab.plan with
    | some p =>
      if !p.present.isEmpty ∧ 1 < p.product ∧ max c.gc.lastBeacon c.fab.planAt + 2 ^ 20 * 3 ≤ c.now then
        { c with gc := { c.gc with status := setBit c.gc.status 1 true } }
      else c
    | none => c

/-- REFERENCE_CANDIDATE: candidate i > 0 becomes the reference (R314). -/
def execReferenceCandidate (s : State) : Host.Outcome State Fault Refusal :=
  onRun s fun _ c =>
    match c.candidate_ with
    | some i => if 0 < i ∧ !c.fab.isRef ∧ c.fab.refQuiet + 2 ^ 20 * 3 ≤ c.now then c.beReference i else c
    | none => c

/-! Remote signal adds -/

/-- SIGADD: a ring add of another chip, or of this one (R312). -/
def execSigaddFrame (a : Arrival) (s : State) : Host.Outcome State Fault Refusal :=
  if a.wf then
    onRun s fun _ c =>
      match c.arrive (fun p => match p with | .sigadd _ _ => true | _ => false) a with
      | (d, some f) =>
        (match f.payload with
         | .sigadd n v =>
           if (List.range 64).any fun k => d.restoring k && d.sigIn k n then d
           else
             let e := if d.anyBound then { d with clip := { d.clip with rx := d.clip.rx + 1 } } else d
             e.ringAdd f.src n v (match a with | .link p _ => .port p | .here => .port 8)
         | _ => d)
      | (d, none) => d
  else .next s

end Sys2Proof.Machine
end

