-- ==== Sys2Proof/Machine/Clip.lean ====
section
/-! DEFINITION. Clips (14 R341 to R354): arming and aborting, the rounds of a slice, the cut, the drain, the save and the
blob, and the continuation. -/

namespace Sys2Proof.Machine

/-! The registers -/

/-- The code of a phase in SZ_CLIP_STATUS (Table 14-8). -/
def ClipPhase.code : ClipPhase → Nat
  | .armed => 1
  | .agree => 2
  | .cutting => 3
  | .drain => 4
  | .save => 5
  | .confirm => 6
  | .cont => 7

/-- The phase field replaced. -/
def Core.setPhase (c : Core) (code : Nat) : Core :=
  { c with clip := { c.clip with status := setFld c.clip.status 12 4 code } }

/-- The running clip replaced, with its phase in the register. -/
def Core.setClip (c : Core) (q : ClipRun) : Core := { (c.setPhase q.phase.code) with clip := { (c.setPhase q.phase.code).clip with run := some q } }

/-- A clip or a RESTORE begins: the sequence number of the chip (Table 14-8). -/
def Core.clipBegin (c : Core) : Core :=
  { c with clip := { c.clip with status := setFld c.clip.status 32 32 (c.clipSeq + 1) } }

/-- A clip or a RESTORE ends: its flag, last_reason and CLIP record (R358, Table 14-8); `late`: R357. -/
def Core.clipEnd (c : Core) (reason count value : Nat) (late : Bool) : Core :=
  let w := setFld c.clip.status 12 4 0
  let w1 := if reason = 0 then setBit w 1 true else setFld (setBit w 2 true) 24 8 reason
  let c0 := { c with clip := { c.clip with status := if late then setBit w1 3 true else w1 } }.mark 0x240040
    (if reason = 0 then 1 else 2)
  let c1 := if late then c0.mark 0x240040 3 else c0
  c1.log 0x0A reason 0 0 (if reason = 0 then 0 else 0x40) c1.clipSeq (w64 count) (w64 value)

/-- Contexts of a mask. -/
def maskCtxs (m : W64) : List Nat := (List.range 64).filter (bitAt m)

/-! Engine areas -/

/-- The saved ports: the present ports of every Spindle in the mask of a masked context (R349). -/
def Core.savedPorts (c : Core) (mask : W64) : List Nat :=
  (List.range c.cfg.enginePorts).filter fun e =>
    c.present e && (maskCtxs mask).any fun n => (c.ctx n).spindleMask.testBit (e / 64)

/-- save_lines (Table 14-7). -/
def Core.saveLines (c : Core) : Nat := fld c.clip.ctrl 0 16

/-- The live maps of a context. -/
def Core.mapsOf (c : Core) (n : Nat) : List (Nat × LiveMap) := c.moe.maps.filter fun (m : Nat × LiveMap) => m.2.ctx == n

/-- The bound of Table 14-4. -/
def Core.blobBound (c : Core) (mask : W64) : Nat :=
  let per := sumBy (fun n =>
    4096 + 8 * (sumBy (·.nodeCount) (c.skeinsOf n) + sumBy (·.storeRes) (c.runsOf n)) + 32 * (c.objsOf n).length
      + 64 * c.chanEnds n
      + sumBy (fun t => 64 + 8 * (64 + 16 * ((c.table t).tab.map (·.experts)).getD 0)) (c.tablesOf n)
      + 8192 * (c.mapsOf n).length) (maskCtxs mask)
  lines64 (256 + per) + 64 * c.saveLines * (c.savedPorts mask).length

/-! CLIP_AT and CLIP_ABORT -/

/-- Whether a clip or a RESTORE is pending. -/
def Core.clipPending (c : Core) : Bool := c.clip.run.isSome || c.clip.restore.isSome

/-- CLIP_AT, steps 8 to 15 (R343, R354, Table 03-10). -/
def Core.clipAt (c : Core) (p : Packet) : Except Verdict CpRes := do
  ensure (bitAt c.gc.status 0) (vState 2)
  ensure (!c.clipPending) (vState 6)
  let count := (pw p 2).toNat
  step9 p (if count < c.gc.count + 16384 then [⟨2, 0, .badParam, 3⟩] else [])
  let mask := pw p 3
  let g ← c.handleParam 0 p 4 0 true (c.blobBound mask)
  ensure ((maskCtxs mask).all fun n => (c.ctx n).st != .closed) (vState 4)
  let lim := if pkExp p then pf p 5 0 32 else 0
  let q : ClipRun :=
    { phase := .armed, count := count, mask := mask, blobAt := g.base, blobLen := g.size,
      limit := if lim = 0 then fld c.clip.ctrl 32 32 else lim, tag := pkTag p, irq := pkIrq p, round := 0, roundAt := 0, owed := false,
      heard := [], sentUp := false, result := none, targets := [], cutCtxs := [], localCut := 0, ports := [],
      savedPorts := [], iv := [], engOff := 0, nSec := 0, text := [], areas := [], tx := 0, rx := 0, reason := 0, saveEnd := 0,
      sliceOk := false, contAt := 0 }
  return .accept (c.clipBegin.setClip q)

/-- CLIP_AT (R343). -/
def execClipAt (s : State) : Host.Outcome State Fault Refusal := onCommand s 0x70 fun _ c _ p => c.clipAt p

/-- CLIP_ABORT, steps 8 to 15 (R344, Tables 03-10 and 14-3): the final reply of the CLIP_AT, then its own. -/
def Core.clipAbort (c : Core) (p : Packet) : Except Verdict CpRes := do
  match c.clip.run with
  | none => .error (vState 6)
  | some q => do
    ensure (q.phase == .armed && decide (c.gc.count < q.count)) (vState 6)
    step9 p []
    let c1 := c.setPhase 0
    let c2 := { c1 with clip := { c1.clip with run := none } }
    return .done vOk (c2.finalReply 0 q.tag { status := .ok, detail := 1 } q.irq false)

/-- CLIP_ABORT (R344). -/
def execClipAbort (s : State) : Host.Outcome State Fault Refusal := onCommand s 0x71 fun _ c _ p => c.clipAbort p

/-! Rounds (R348) -/

/-- The positions of the slice in ascending order: the block of the routing image, or this chip alone (R343, R348). -/
def Core.clipPositions (c : Core) : List Nat :=
  match c.fab.plan, c.fab.route with
  | some p, some r => if r.sliceEn then (List.range p.logCount).filter (inBlock p r) else [c.myLogical.getD 0]
  | _, _ => [c.myLogical.getD 0]

/-- The index of this chip in the tree. -/
def Core.clipIdx (c : Core) : Nat := c.clipPositions.idxOf (c.myLogical.getD 0)

/-- The children of this chip in the tree. -/
def Core.clipKids (c : Core) : List Nat :=
  [2 * c.clipIdx + 1, 2 * c.clipIdx + 2].filter fun i => decide (i < c.clipPositions.length)

/-- A CLIP frame to an index of the tree. -/
def Core.clipSend (c : Core) (idx : Nat) (m : ClipMsg) : Core :=
  c.sendFrame 0 (c.clipPositions.getD idx 0) (.clip m)

/-- Two contributions combined: maximum, AND and sum over integers (R345, R347, R348, R350). -/
def clipJoin (a b : ClipMsg) : ClipMsg :=
  { a with ords := (List.range 64).map fun n => max (a.ords.getD n 0) (b.ords.getD n 0),
           flag := a.flag && b.flag, tx := a.tx + b.tx, rx := a.rx + b.rx, count := max a.count b.count }

/-- The result of a round goes down the tree. -/
def Core.clipDown (c : Core) (q : ClipRun) (m : ClipMsg) : Core :=
  let r := { m with up := false, fromIdx := c.clipIdx }
  let c1 := c.setClip { q with result := some r, sentUp := true }
  c1.clipKids.foldl (fun d i => d.clipSend i r) c1

/-- Once this chip and its children have contributed to the present round, the value goes to the parent, or the root has the
result (R348). -/
def Core.roundStep (c : Core) : Core :=
  match c.clip.run with
  | none => c
  | some q =>
    if q.sentUp || q.result.isSome then c
    else
      let have_ := q.heard.filter fun m => m.round == q.round
      if (c.clipIdx :: c.clipKids).all fun i => have_.any fun m => m.fromIdx == i then
        match have_ with
        | [] => c
        | m :: rest =>
          let v := rest.foldl clipJoin m
          if c.clipIdx = 0 then c.clipDown q v
          else (c.setClip { q with sentUp := true }).clipSend ((c.clipIdx - 1) / 2) { v with fromIdx := c.clipIdx, up := true }
      else c

/-- A contribution of this chip with nothing in it. -/
def Core.clipBlank (c : Core) (q : ClipRun) : ClipMsg :=
  { clipCount := q.count, round := q.round + 1, up := true, fromIdx := c.clipIdx, ords := List.replicate 64 0, flag := true,
    tx := 0, rx := 0, count := 0 }

/-- The next round begins with this chip's contribution. -/
def Core.beginRound (c : Core) (q : ClipRun) (m : ClipMsg) : Core :=
  (c.setClip { q with round := q.round + 1, roundAt := c.now, owed := false, sentUp := false, result := none,
                      heard := m :: q.heard.filter fun x => decide (q.round < x.round) }).roundStep

/-- A frame whose key names no clip or round of this chip is discarded and counted (R348). -/
def Core.clipDrop (c : Core) : Core := { c with fab := { c.fab with cnt := satAdd c.fab.cnt 0 32 1 } }

/-- A CLIP frame has arrived (R348). -/
def Core.clipIn (c : Core) (m : ClipMsg) : Core :=
  match c.clip.run with
  | none => c.clipDrop
  | some q =>
    if m.clipCount ≠ q.count then c.clipDrop
    else if m.up then
      if c.clipKids.contains m.fromIdx ∧ ((m.round = q.round ∧ !q.sentUp) ∨ m.round = q.round + 1) then
        (c.setClip { q with heard := q.heard ++ [m] }).roundStep
      else c.clipDrop
    else if m.round = q.round ∧ q.sentUp ∧ q.result.isNone then c.clipDown q m
    else c.clipDrop

/-- CLIP (R348). -/
def execClipFrame (a : Arrival) (s : State) : Host.Outcome State Fault Refusal :=
  if a.wf then
    onRun s fun _ c =>
      match c.arrive (fun p => match p with | .clip _ => true | _ => false) a with
      | (d, some f) => (match f.payload with | .clip m => d.clipIn m | _ => d)
      | (d, none) => d
  else .next s

/-! The end of a clip (R350, R352) -/

/-- A count moved by a shift; counts have 64 bits. -/
def countPlus (x shift : Nat) : Nat := (x + shift) % 2 ^ 64

/-- The runs of some contexts take up again: a start that was not reached, the counts above the local cut, and the completion of
the cut node, unless something else still holds it (R350). -/
def Core.resumeRun (c : Core) (localCut shift : Nat) (broken : Bool) (r : Run) : Core :=
  let unstarted := r.cut && !r.started
  let r1 := { r with start := if unstarted then countPlus r.start shift else r.start,
                     shifts := if unstarted then r.shifts else r.shifts ++ [(localCut, shift)],
                     cut := false, cutAt := none, timing := r.timing || broken }
  let back := fun t : Task =>
    let h := c.headOf r t
    let t1 := if t.kind = .static ∧ hFixed h ∧ ((t.st = .ready ∧ t.readyAt ≤ localCut) ∨ t.st = .issued ∨ t.st = .running)
      then { t with exempt := true } else t
    match t1.delay, c.releaseOf r t h with
    | some d, _ => { t1 with delay := some (d.1, if localCut < d.2 then countPlus d.2 shift else d.2) }
    | none, some d =>
      if t1.st = .ready ∧ localCut < t1.readyAt ∧ localCut < d.2 then
        { t1 with st := .waiting, delay := some (d.1, countPlus d.2 shift) }
      else t1
    | none, none => t1
  let freed := fun k : Comp =>
    if r.cutAt = some k.task.node ∧ k.task.dyn = none ∧ k.task.ctx = r.ctx ∧ k.task.tag = r.tag ∧ k.stage = .deferred
        ∧ !c.deferralOpen k.task then
      { k with stage := .due, since := c.dclk }
    else k
  let c1 := c.setRun { r1 with tasks := r.tasks.map back }
  { c1 with graph := { c1.graph with comps := c1.graph.comps.map freed } }

/-- Receive ends of a context poll again. -/
def Core.pollAgain (c : Core) (n : Nat) : Core :=
  { c with chans := c.chans.map fun (k : Nat × Chan) =>
      (k.1, match k.2.rx with
        | some r => if r.ctx = n then { k.2 with rx := some { r with polling := true, nextPoll := c.now } } else k.2
        | none => k.2) }

/-- A context is released from a clip or a RESTORE with a shift; `broken`: timing_broken is set (R350, R352, R357). -/
def Core.resumeCtx (c : Core) (localCut shift : Nat) (broken : Bool) (n : Nat) : Core :=
  let c1 := (c.runsOf n).foldl (fun d r => d.resumeRun localCut shift broken r) c
  let c2 := if broken then c1.setDet n 1 else c1
  c2.pollAgain n

/-- The masked contexts of the clip are released, and it is over; where no local cut was reached, the count of release
stands for it. -/
def Core.clipRelease (c : Core) (q : ClipRun) (value : Nat) (broken : Bool) (reason : Nat) : Core :=
  let cut := if q.localCut = 0 then value else q.localCut
  let c1 := { c with clip := { c.clip with run := none } }
  let c2 := (maskCtxs q.mask).foldl (fun d n => d.resumeCtx cut (diff64 value q.count) broken n) c1
  let v : Verdict := if reason = 0 then vOk else vFaulted 2 reason
  (c2.finalReply 0 q.tag v q.irq false).clipEnd reason q.count value false

/-- A clip that fails before CONFIRM outside SAVE releases its contexts at once (R352). -/
def Core.clipFail (c : Core) (q : ClipRun) (reason : Nat) : Core := c.clipRelease q c.gc.count true reason

/-! AGREE and CUTTING -/

/-- The passed ordinal of a context (R341). -/
def Core.passedOf (c : Core) (n : Nat) : Nat := (c.runsOf n).foldl (fun a r => r.passed.foldl (fun b x => max b x.1) a) 0

/-- Whether the routing image binds a context to the slice (R343). -/
def Core.ctxBound (c : Core) (n : Nat) : Bool :=
  match c.fab.route with | some r => bitAt r.ctxMask n | none => false

/-- The condition of R343 at the clip count. -/
def Core.clipAdmits (c : Core) (q : ClipRun) : Bool :=
  (maskCtxs q.mask).all fun n =>
    c.ctxBound n && decide (((c.runsOf n).filter fun r => !(c.cutNodes n r.skein).isEmpty).length ≤ 1)

/-- CLIP_COUNT: the clip count is reached and round A begins, this chip contributing at the end of the DCLK (R341, R344 to R346). -/
def Core.clipCountDue (c : Core) : Core :=
  match c.clip.run with
  | none => c
  | some q =>
    if q.phase ≠ .armed ∨ c.gc.count < q.count then c
    else if !c.clipAdmits q then c.clipFail q 7
    else
      let late := c.graph.runs.filter fun r => bitAt q.mask r.ctx && !r.started && decide (q.count < r.start)
      let c1 := late.foldl (fun d r => d.setRun { r with cut := true }) c
      c1.setClip { q with phase := .agree, owed := true }

/-- CLIP_COUNT (R344). -/
def execClipCount (s : State) : Host.Outcome State Fault Refusal := onRun s fun _ c => c.clipCountDue

/-- A run meets the conditions of R346: at its cut node, or it has not started. -/
def Core.runCut (c : Core) (r : Run) : Bool :=
  r.cut ||
    match r.cutAt with
    | none => false
    | some i =>
      (r.tasks.all fun t => (t.node == i && t.kind == .static) || (t.st != .issued && t.st != .running))
        && !c.runOut r
        && ((c.tablesOf r.ctx).all fun t =>
          let m := c.table t
          !(m.stepOf r) || m.st == .idle || m.st == .routed || m.st == .abandoned)
        && ((List.range 64).all fun k =>
          let x := c.collRun r.ctx k
          match x.work with
          | some w => w.task.tag != r.tag || x.st == .idle || x.st == .done || x.st == .abandoned
          | none => true)
        && (c.graph.comps.all fun k =>
          !(k.task.ctx == r.ctx && k.task.tag == r.tag) || (k.task.node == i && k.task.dyn.isNone))

/-- A context is cut: it has stopped, or each of its runs is cut (R346). -/
def Core.ctxCut (c : Core) (n : Nat) : Bool :=
  (c.ctx n).st == .stopped || (c.ctx n).st == .halted || (c.runsOf n).all c.runCut

/-- What the cut of a context does: no run of it goes on, and its receive ends read their consumed words once more
(R346). -/
def Core.cutCtx (c : Core) (n : Nat) : Core :=
  let c1 := (c.runsOf n).foldl (fun d r => if r.started then d.setRun { r with cut := true } else d) c
  (c1.chansWhere fun h => match h.rx with | some r => r.ctx == n | none => false).foldl (fun d k =>
    match (d.chan k).rx with
    | some r =>
      let d1 := d.readConsumed k { r with polling := false }
      (match (d1.chan k).rx with
       | some r1 => d1.setChan k { d1.chan k with rx := some { r1 with polling := false } }
       | none => d1)
    | none => d) c1

/-- Masked contexts that have come to their cut are cut, and with the last of them round B begins (R346, R347). -/
def Core.cutScan (c : Core) : Core :=
  match c.clip.run with
  | none => c
  | some q =>
    if q.phase ≠ .cutting then c
    else
      let new := (maskCtxs q.mask).filter fun n => !q.cutCtxs.contains n && c.ctxCut n
      let c1 := new.foldl Core.cutCtx c
      let q1 := { q with cutCtxs := q.cutCtxs ++ new }
      if (maskCtxs q.mask).all fun n => q1.cutCtxs.contains n then
        let ports := c1.savedPorts q.mask
        let q2 := { q1 with phase := .drain, localCut := c1.gc.count, savedPorts := ports, ports := ports.map fun e => (e, 0, 0) }
        c1.setClip { q2 with owed := true }
      else c1.setClip q1

/-- Whether the receive ends of the masked contexts have nothing on its way to their senders: no read of a consumed word, no
record before its delivery, no close (R346, R347). -/
def Core.endsQuiet (c : Core) (mask : W64) : Bool :=
  c.chans.all fun k => k.2.closing.isNone && match k.2.rx with
    | none => true
    | some r => !bitAt mask r.ctx
        || (!(c.reelServing fun s => s == .consumed k.1) && (r.recs.take 1).all fun x => x.stage == .handler)

/-- At the end of a DCLK this chip contributes to a round that it owes: the passed ordinals to round A (R341, R345), its frame counters to
round B once its ends are quiet (R347). -/
def Core.clipRounds (c : Core) : Core :=
  match c.clip.run with
  | none => c
  | some q =>
    if !q.owed then c
    else if q.phase = .agree then
      c.beginRound q { c.clipBlank q with ords := (List.range 64).map fun n => if bitAt q.mask n then c.passedOf n else 0 }
    else if q.phase = .drain ∧ c.endsQuiet q.mask then
      c.beginRound q { c.clipBlank q with tx := c.clip.tx.toNat, rx := c.clip.rx.toNat }
    else c

/-- The completion of a cut node of the target ordinal that was taken in the DCLK in which round A fixes the target is deferred after
all, and its instance cuts there (R353, Table 14-3); nothing of its sequence runs before the next DCLK. -/
def Core.cutBack (c : Core) (targets : List (Nat × Nat)) (r : Run) : Core :=
  match aget targets r.ctx with
  | none => c
  | some o =>
    if !r.passed.contains (o, c.dclk) then c
    else
      match c.graph.comps.find? fun k => k.task.ctx == r.ctx && k.task.tag == r.tag && k.task.dyn.isNone
          && c.ordinal r.ctx r.skein k.task.node == o with
      | none => c
      | some k =>
        (c.setRun { r with passed := removeFirst (fun x => x == (o, c.dclk)) r.passed, cutAt := some k.task.node }).setComp
          { k with stage := .deferred, matched := true }

/-- ROUND_A_RESULT (R345). -/
def execRoundAResult (s : State) : Host.Outcome State Fault Refusal :=
  onRun s fun _ c =>
    match c.clip.run with
    | none => c
    | some q =>
      match q.phase, q.result with
      | .agree, some m =>
        let targets := (maskCtxs q.mask).map fun n => (n, m.ords.getD n 0 + 1)
        let c1 := c.setClip { q with phase := .cutting, targets := targets }
        (c1.graph.runs.foldl (fun d r => d.cutBack targets r) c1).cutScan
      | _, _ => c

/-- INSTANCE_CUT: a run has come to its cut, or to its end (R346). -/
def execInstanceCut (ctx tag : Nat) (s : State) : Host.Outcome State Fault Refusal :=
  onRun s fun _ c =>
    match c.clip.run with
    | none => c
    | some q =>
      if q.phase ≠ .cutting then c
      else
        match c.findRun ctx tag with
        | none => c.cutScan
        | some r => if bitAt q.mask ctx && c.runCut r then (c.setRun { r with cut := true }).cutScan else c.cutScan

/-! DRAIN -/

/-- Whether a round B result shows the slice drained (R347). -/
def ClipRun.drained (m : ClipMsg) : Bool := m.flag && m.tx % 2 ^ 64 == m.rx % 2 ^ 64

/-- ROUND_B_START: the next round B, no sooner than 4,096 DCLK after the one before (R347); this chip contributes at the end of a
DCLK. -/
def execRoundBStart (s : State) : Host.Outcome State Fault Refusal :=
  onRun s fun _ c =>
    match c.clip.run with
    | none => c
    | some q =>
      match q.phase, q.result with
      | .drain, some m =>
        if !q.owed ∧ !ClipRun.drained m ∧ q.roundAt + 4096 * 3 ≤ c.now then c.setClip { q with owed := true } else c
      | _, _ => c

/-- DRAIN_LIMIT: the drain limit passes before the drain is complete (R344, R352). -/
def execDrainLimit (s : State) : Host.Outcome State Fault Refusal :=
  onRun s fun _ c =>
    match c.clip.run with
    | none => c
    | some q =>
      if (q.phase = .agree ∨ q.phase = .cutting ∨ q.phase = .drain) ∧ q.count + q.limit * 1024 ≤ c.gc.count then
        c.clipFail q 3
      else c

/-! SAVE (R349, R354) -/

/-- Round C begins with this chip's verdict on its SAVE (R350). -/
def Core.clipConfirm (c : Core) (q : ClipRun) (reason : Nat) : Core :=
  let q1 := { q with phase := .confirm, ports := [], reason := reason, saveEnd := c.gc.count }
  c.beginRound q1 { c.clipBlank q1 with flag := reason == 0, count := c.gc.count }

/-- Whether no update and no arming of this DCLK waits on an object of a context (R222). -/
def Core.objsFolded (c : Core) (mask : W64) : Bool :=
  c.sync.objs.all fun o => !bitAt mask o.ctx || (o.upds.isEmpty && o.arms.isEmpty && o.out.isEmpty)

/-- What a clip saves of a context (R230, R354): an object without its physical number. -/
def Core.ctxSave (c : Core) (n : Nat) : CtxSave :=
  { num := n, regs := c.ctx n, cur := (c.queue n).cur, skeins := (c.skeinsOf n).map fun k => (k.id, k.nodeCount),
    runs := c.runsOf n, comps := c.graph.comps.filter fun k => k.task.ctx == n, objs := (c.objsOf n).map fun o => { o with phys := 0 },
    chans := (c.chans.filter fun (k : Nat × Chan) =>
        (match k.2.tx with | some t => t.ctx == n | none => false) || (match k.2.rx with | some r => r.ctx == n | none => false)).map
      fun (k : Nat × Chan) =>
        (k.1, k.2.epoch, (match k.2.tx with | some t => if t.ctx = n then some t else none | none => none),
         (match k.2.rx with | some r => if r.ctx = n then some r else none | none => none)),
    tables := (c.tablesOf n).map fun t => (t, c.table t), maps := c.mapsOf n, ply := c.plyPage n }

/-- The header of a blob and its port mask: 256 bytes (Table 14-5). -/
def Core.blobHead (c : Core) (q : ClipRun) (sliceOk : Bool) (tag : List Byte) : List Byte :=
  let pl := c.fab.plan
  let lines := c.saveLines
  let total := q.engOff + lines * q.savedPorts.length
  wordBytes (w64 (0x434C5034 * 2 ^ 32 + total % 2 ^ 32))
    ++ wordBytes (w64 (c.clipSeq * 2 ^ 32 + c.cfg.code * 2 ^ 24 + 4 * 2 ^ 20 + bitW 16 sliceOk + (c.myLogical.getD 0) % 2 ^ 16))
    ++ wordBytes (w64 q.count) ++ wordBytes (w64 q.localCut) ++ wordBytes q.mask
    ++ wordBytes (w64 (((pl.map (·.domain)).getD 0) * 2 ^ 48 + ((c.fab.route.map (·.sliceId)).getD 0) * 2 ^ 32
        + (pl.map (·.rev)).getD 0))
    ++ wordBytes q.tx ++ wordBytes q.rx
    ++ (q.iv ++ natBytes 12 0).take 12 ++ natBytes 4 0 ++ tag16 tag
    ++ wordBytes (w64 (q.engOff % 2 ^ 32 * 2 ^ 32 + lines * 2 ^ 16 + q.nSec % 2 ^ 16)) ++ natBytes 24 0
    ++ natBytes 128 (sumBy (fun e => 2 ^ e) q.savedPorts)

/-- A run of bytes padded with zeros to whole lines. -/
def padLines (bs : List Byte) : List Byte := bs ++ List.replicate (lines64 bs.length - bs.length) 0

/-- SAVE begins: the encrypted sections and the header are written, and a SAVE record is due on every saved port (R349,
R354). slice_ok and the tag are written last. While an update of an object is not in its value yet, or a write has to wait (R33),
SAVE has not begun. -/
def Core.saveBegin (s : Sys) (c : Core) (q : ClipRun) : Core :=
  if s.hedgeDown then c.clipConfirm q 9
  else if !c.objsFolded q.mask then c
  else
    let iv := c.drawBytes 12
    let x := iv.2.drawWord
    let c1 := x.2
    let save : ClipSave := { ctxs := (maskCtxs q.mask).map c1.ctxSave, tx := c1.clip.tx, rx := c1.clip.rx, localCut := q.localCut }
    let text := gcmText s.keys.devKey iv.1 (padLines (Config.encodeSections save))
    let off := 4 + text.length / 64
    let lines := c1.saveLines
    let area := fun j : Nat => q.blobAt + 64 * off + 64 * lines * j
    let q1 := { q with phase := .save, iv := iv.1, engOff := off, nSec := x.1.toNat % 2 ^ 16, text := text, tx := save.tx, rx := save.rx,
                       ports := q.savedPorts.zipIdx.map fun e => (e.1, area e.2, lines) }
    if q.blobLen < 64 * (off + lines * q.savedPorts.length) then c1.clipConfirm q 4
    else
      match c1.writeFault q.blobAt (256 + text.length) with
      | none =>
        let c2 := (c1.writeBytes q.blobAt (c1.blobHead q1 false [])).writeBytes (q.blobAt + 256) text
        let c3 := { c2 with hedge := { c2.hedge with blobCount := min (c2.hedge.blobCount + 1) 0xFFFF } }
        q.savedPorts.foldl (fun d e => d.requestEnable e) (c3.setClip q1)
      | some 2 => (c1.freeBytes ((List.range (256 + text.length)).map (q.blobAt + ·))).clipConfirm q 2
      | some k => if k = heldCode then c else c1.clipConfirm q k

/-- ROUND_B_RESULT: a result that shows the slice drained begins the SAVE (R344, R347). -/
def execRoundBResult (s : State) : Host.Outcome State Fault Refusal :=
  onRun s fun sys c =>
    match c.clip.run with
    | none => c
    | some q =>
      match q.phase, q.result with
      | .drain, some m => if !q.owed ∧ ClipRun.drained m then c.saveBegin sys q else c
      | _, _ => c

/-- CLIP_SAVE_DONE: every SAVE record has returned; the areas are read, and round C begins (R344, R349). -/
def execClipSaveDone (s : State) : Host.Outcome State Fault Refusal :=
  onRun s fun _ c =>
    match c.clip.run with
    | none => c
    | some q =>
      if q.phase = .save ∧ q.ports = [] then
        match c.readBytes (q.blobAt + 64 * q.engOff) (64 * c.saveLines * q.savedPorts.length) with
        | .error k => if k = heldCode then c else c.clipConfirm q k
        | .ok bs => c.clipConfirm { q with areas := bs } 0
      else c

/-! CONFIRM and CONTINUE -/

/-- The tag of a blob: over the encrypted sections, with the header (its tag words zero), the port mask and the engine
areas as additional data (R354). -/
def blobTag (s : Sys) (head text areas : List Byte) (iv : List Byte) : List Byte :=
  tag16 (Config.gcmTag s.keys.devKey iv (head ++ areas) text)

/-- The result of round C fixes the continue count, and slice_ok and the tag are written (R350, R354), unless Hedge performs no
cryptographic operation (R369). -/
def Core.roundC (s : Sys) (c : Core) (q : ClipRun) (m : ClipMsg) : Core :=
  let q1 := { q with phase := .cont, sliceOk := m.flag, contAt := m.count + fld c.clip.ctrl 16 16 * 1024 }
  if q.reason ≠ 0 then c.setClip q1
  else if s.hedgeDown then c.setClip { q1 with reason := 9 }
  else
    let head := c.blobHead q m.flag []
    let full := c.blobHead q m.flag (blobTag s head q.text q.areas q.iv)
    match c.writeFault q.blobAt full.length with
    | none => (c.writeBytes q.blobAt full).setClip q1
    | some 2 => (c.freeBytes ((List.range full.length).map (q.blobAt + ·))).setClip { q1 with reason := 2 }
    | some k => if k = heldCode then c else c.setClip { q1 with reason := k }

/-- ROUND_C_RESULT (R350). -/
def execRoundCResult (s : State) : Host.Outcome State Fault Refusal :=
  onRun s fun sys c =>
    match c.clip.run with
    | none => c
    | some q =>
      match q.phase, q.result with
      | .confirm, some m => c.roundC sys q m
      | _, _ => c

/-- CONTINUE_COUNT: the masked contexts take up again, and the final reply of the clip is written (R350). -/
def execContinueCount (s : State) : Host.Outcome State Fault Refusal :=
  onRun s fun _ c =>
    match c.clip.run with
    | none => c
    | some q =>
      if q.phase = .cont ∧ q.contAt ≤ c.gc.count then
        c.clipRelease q q.contAt false (if q.reason ≠ 0 then q.reason else if q.sliceOk then 0 else 6)
      else c

/-! Registers (R358) -/

/-- A write of SZ_CLIP_CTRL (R358). -/
def Core.clipCtrlWrite (c : Core) (v : W64) : Option Core :=
  if c.clipPending || decide (fld v 16 16 < 16) || fld v 0 16 == 0 || fld v 32 32 == 0 then none
  else some { c with clip := { c.clip with ctrl := v } }

/-- A write of SZ_CX_CUT_k (R358). -/
def Core.cutWrite (c : Core) (n k : Nat) (v : W64) : Option Core :=
  if !c.noRuns n then none
  else
    let x := c.ctx n
    some (c.setCtx n { x with cuts := aset x.cuts k (v &&& fields [(63, 63), (41, 32), (19, 0)]) })

/-- CLIP_CTRL_CUT (R358). -/
def execClipCtrlCut (which : ClipReg) (v : W64) (acc : Access) (s : State) : Host.Outcome State Fault Refusal :=
  if which.wf then
    match which with
    | .clipCtrl => onWrite s 0x240038 v acc fun _ c => c.clipCtrlWrite v
    | .cut n k => onWrite s (0x200100 + 0x1000 * n + 8 * k) v acc fun _ c => c.cutWrite n k v
  else .next s

end Sys2Proof.Machine
end

