-- ==== Sys2Proof/Machine/Front.lean ====
section
/-! DEFINITION. The front end (04): doorbells, the fetcher, the checks of Distaff, replies and ring configuration. -/

namespace Sys2Proof.Machine

/-! Rings -/

/-- Words of the command ring. -/
def Queue.ringWords (q : Queue) : Nat := 2 ^ (fld q.ring 54 5 - 3)

/-- The byte address of word count w of the command ring (R102). -/
def Queue.ringAddr (q : Queue) (w : Nat) : Nat := fld q.ring 6 42 * 64 + w % q.ringWords * 8

/-- The byte address of reply number r (R110). -/
def Queue.replyAddr (q : Queue) (r : Nat) : Nat := fld q.reply 6 42 * 64 + r % q.slots * 16

/-- The byte address of line k of the packet at the head (R102): the line that holds the head is line 0. -/
def Queue.ringLine (q : Queue) (k : Nat) : Nat := q.ringAddr (q.head / 8 * 8 + 8 * k)

/-- The lines that a packet of a length at the head takes in the ring. -/
def Queue.ringLines (q : Queue) (len : Nat) : Nat := ceilDiv (q.head % 8 + len) 8

/-- A size field, tier and base that condition 3 to 6 of R101 admit. -/
def ringOk (v : W64) (most : Nat) : Bool :=
  let size := fld v 54 5
  let a := fld v 6 42 * 64
  let tier := fld v 48 2
  (size == 0 && decide (tier < 2))
    || (decide (12 ≤ size) && decide (size ≤ most) && a % 2 ^ size == 0 && inTier tier a (2 ^ size))

/-- Whether no command of a queue is at the control processor: none is offered, and none holds the queue (R101). -/
def QCur.away : QCur → Bool
  | .none => true
  | .replying => true
  | _ => false

/-- Conditions 1 and 2 of R101. A held reply is one that R76 or R335 holds: the reply ring has no room for it, or it waits for a
stash entry. -/
def Core.ringsFree (c : Core) (n : Nat) : Bool :=
  let q := c.queue n
  (q.fetch == .off || (q.fetch == .idle && q.buf.isEmpty && q.cur.away && !c.replyHeld n))
    && (n == 0 || (c.ctx n).st == .closed)

/-- A ring register written: the pointers and P are cleared and the queue is IDLE or OFF (R101). -/
def Core.ringWrite (c : Core) (n : Nat) (which : RingReg) (v : W64) : Option Core :=
  let q := c.queue n
  let ok := match which with
    | .ring => ringOk v 24
    | .reply => ringOk v 20
    | .mirror => inTier (fld v 48 2) (fld v 3 45 * 8) 8
  if c.ringsFree n && ok then
    let q1 := match which with
      | .ring => { q with ring := v &&& fields [(58, 54), (49, 48), (47, 6)] }
      | .reply => { q with reply := v &&& fields [(58, 54), (49, 48), (47, 6)] }
      | .mirror => { q with mirror := v &&& fields [(63, 63), (49, 48), (47, 3)] }
    some (c.setQueue n { q1 with head := 0, tail := 0, rplTail := 0, rplFree := 0, p := false,
                                 fetch := if fld q1.ring 54 5 ≠ 0 ∧ fld q1.reply 54 5 ≠ 0 then .idle else .off })
  else none

/-- RING_CONFIGURATION: a write of SZ_CQ_RING, SZ_CQ_REPLY or SZ_CQ_MIRROR (R100, R101). -/
def execRingConfiguration (n : Nat) (which : RingReg) (v : W64) (acc : Access) (s : State) :
    Host.Outcome State Fault Refusal :=
  if n < 64 then
    onWrite s (0x200000 + 0x1000 * n + (match which with | .ring => 0 | .reply => 8 | .mirror => 16)) v acc
      fun _ c => c.ringWrite n which v
  else .next s

/-! Doorbells -/

/-- A doorbell that reached its register: taken or refused (R103). -/
def Core.doorbell (c : Core) (n : Nat) (v : W64) : Core :=
  let q := c.queue n
  let t := fld v 0 32
  let dead := q.fetch == .off || q.fetch == .halted
  if !dead && decide (diff32 t q.tail ≤ q.ringWords - diff32 q.tail q.head) then
    c.setQueue n (if q.fetch = .idle then { q with tail := t, p := false, fetch := .armed }
                  else { q with tail := t, p := true })
  else
    let code := if dead then Status.stateError.code else Status.refusedFull.code
    let c1 := (c.setQueue n { q with status := satAdd (setFld q.status 40 8 code) 48 16 1 }).setQueueFlag n 1
    c1.logQueue n 1 code t (w64 q.tail)

/-- DOORBELL: what the host stored is visible first (R102), then the write of SZ_Q_DOORBELL (R103). -/
def execDoorbell (n : Nat) (v : W64) (acc : Access) (stores : List Host.Cell) (s : State) :
    Host.Outcome State Fault Refusal :=
  let s1 := { s with core := s.core.store stores }
  if n < 64 then onWrite s1 (0x100000 + 0x1000 * n) v acc fun _ c => some (c.doorbell n v)
  else .next s1

/-! The fetcher -/

/-- The queue the fetcher is granted to: the lowest ARMED number at or above the rotation pointer, wrapping (R108). -/
def Core.nextArmed (c : Core) : Option Nat :=
  (findBelow 64 fun i => (c.queue ((c.fe.rot + i) % 64)).fetch == .armed).map fun i => (c.fe.rot + i) % 64

/-- The grant of a free fetcher (R108). -/
def Core.fetcherGrant (c : Core) : Core :=
  if c.fe.stopped || c.fe.holder.isSome then c
  else
    match c.nextArmed with
    | none => c
    | some n =>
      let c1 := c.setQueue n { c.queue n with fetch := .fetch }
      { c1 with fe := { c1.fe with holder := some n, grantedAt := c.now, sliceOver := false, rot := (n + 1) % 64 } }

/-- FETCHER_GRANT (R108). -/
def execFetcherGrant (s : State) : Host.Outcome State Fault Refusal := onBootRun s fun _ c => c.fetcherGrant

/-- Whether the fetch slice of the holder has ended: fetch_slice × 16 PCLK from its grant (R108). -/
def Core.sliceEnded (c : Core) : Bool :=
  c.fe.sliceOver || decide (c.fe.grantedAt + fld c.fe.ctrl 0 8 * 64 ≤ c.now)

/-- FETCH_SLICE_END: the slice of the holder is over once its time has passed (R108). -/
def execFetchSliceEnd (s : State) : Host.Outcome State Fault Refusal :=
  onBootRun s fun _ c =>
    if c.fe.holder.isSome && c.sliceEnded then { c with fe := { c.fe with sliceOver := true } } else c

/-- The holder leaves FETCH and the fetcher is free. -/
def Core.fetchLeave (c : Core) (n : Nat) (q : Queue) : Core :=
  let c1 := c.setQueue n q
  { c1 with fe := { c1.fe with holder := none, sliceOver := false, fetch := none } }

/-- The fetch of a queue halts at a packet: HALTED, the reply that HALT_REPLY writes, and a QUEUE record (R79, R107). -/
def Core.fetchHalt (c : Core) (n tag : Nat) (irq : Bool) (v : Verdict) : Core :=
  let q := c.queue n
  let r : Reply := { tag := tag, status := v.status, detail := v.detail, count := 0, final := true, irq := irq,
                     gives := false }
  let c1 := c.fetchLeave n { q with fetch := .halted, haltWith := some r }
  c1.logQueue n 2 v.status.code v.detail (w64 q.tail)

/-- Lines of the packet are asked for as far as they are known to belong to it, up to 8 outstanding (R108). -/
def Core.askLines (c : Core) (n : Nat) (q : Queue) (f : RingFetch) (lines : Nat) : Core :=
  let k := min (lines - f.asked) (8 - (f.asked - f.got.length))
  let c1 := { c with fe := { c.fe with fetch := some { f with asked := f.asked + k } } }
  (List.range k).foldl (fun d i => d.reelRead (q.ringLine (f.asked + i)) (.ringRead n (f.asked + i))) c1

/-- A fetch attempt of the holder begins (R104 to R106, Table 04-11): it samples the tail and clears P, and asks for the line that
holds the packet's first word. -/
def Core.fetchAttempt (c : Core) : Core :=
  match c.fe.holder, c.fe.fetch with
  | some n, none =>
    let q := { c.queue n with p := false }
    let avail := diff32 q.tail q.head
    if 4096 < sumBy (fun p => 8 * p.length) q.buf + 2040 then c.fetchLeave n { q with fetch := .room }
    else if avail < 2 then c.fetchLeave n { q with fetch := .check }
    else (c.setQueue n q).askLines n q { avail := avail, asked := 0, got := [] } 1
  | _, _ => c

/-- A packet is whole in the buffer (Table 04-11): the head passes it, and the queue keeps the fetcher while its slice lasts. -/
def Core.fetchWhole (c : Core) (n : Nat) (p : Packet) : Core :=
  let q := c.queue n
  let q1 := { q with buf := q.buf ++ [p], head := (q.head + p.length) % 2 ^ 32 }
  if c.sliceEnded then c.fetchLeave n { q1 with fetch := .armed }
  else { (c.setQueue n q1) with fe := { c.fe with fetch := none } }

/-- The lines that have arrived, looked at (R79, R104): a length of 0 or 1 halts the queue, a packet that reaches past the sampled
tail is discarded, a packet whose lines are all there is whole, and else further lines are asked for. -/
def Core.fetchLook (c : Core) (n : Nat) (f : RingFetch) : Core :=
  let q := c.queue n
  match aget f.got 0 with
  | none => { c with fe := { c.fe with fetch := some f } }
  | some first =>
    let hd := first.drop (q.head % 8)
    let len := pkLen hd
    if len < 2 then c.fetchHalt n (pkTag hd) (pkIrq hd) { status := .badLength, detail := 0xFF00 + len }
    else if f.avail < len then c.fetchLeave n { q with fetch := .check }
    else
      let lines := q.ringLines len
      if f.got.length < lines then c.askLines n q f lines
      else c.fetchWhole n ((((List.range lines).flatMap fun k => agetD f.got k []).drop (q.head % 8)).take len)

/-- A ring line has been read, or its read has failed (R104, R107); nothing follows where the queue no longer fetches. -/
def Core.ringIn (c : Core) (n k code : Nat) (ws : List W64) : Core :=
  match c.fe.fetch with
  | none => c
  | some f =>
    if c.fe.stopped || c.fe.holder != some n then c
    else if code ≠ 0 then c.fetchHalt n noHandle false (vFaulted 0 code)
    else c.fetchLook n { f with got := aset f.got k ws }

/-- FETCH_ATTEMPT (R106). -/
def execFetchAttempt (s : State) : Host.Outcome State Fault Refusal :=
  onBootRun s fun _ c => if c.fe.stopped then c else c.fetchAttempt

/-- CHECK: the end of the CHECK PCLK (Table 04-11). -/
def execCheckEnd (n : Nat) (s : State) : Host.Outcome State Fault Refusal :=
  onBootRun s fun _ c =>
    let q := c.queue n
    if q.fetch = .check then
      c.setQueue n (if q.p then { q with p := false, fetch := .armed } else { q with fetch := .idle })
    else c

/-! Steps 1 to 7 -/

/-- The queues whose packets have been offered, with queue n added, which passed step 7 in the present PCLK: in the order of
passing, and within a PCLK by number (R109). -/
def Core.offerOrder (c : Core) (n : Nat) : List Nat :=
  let at_ := fun m => if m = n then c.pclk else (c.queue m).passedAt
  insertBy (fun a b => keysLt [at_ a, a] [at_ b, b]) n c.fe.offered

/-- Distaff runs steps 1 to 7 on the front packet of a queue whose previous packet has given way, and offers it to the
control processor; in BOOT only FW_LOAD of queue 0 goes on (R57, R77, R109). The spec says when a packet that fails leaves the
buffer; one that passes leaves it here too, with its offer (DESIGN CHOICE, notes/assumptions/85). -/
def Core.frontChecks (boot : Bool) (c : Core) (n : Nat) : Core :=
  let q := c.queue n
  match q.cur, q.buf with
  | .none, p :: rest =>
    if c.fe.stopped || c.replyHeld n then c
    else
      let q1 := Queue.room { q with buf := rest }
      match frontVerdict n p with
      | some v => (c.setQueue n q1).finalReply n (pkTag p) v (pkIrq p) true
      | none =>
        if fenceMet p q.compl then
          if boot && pkOp p != 0x90 then (c.setQueue n q1).finalReply n (pkTag p) (vState 2) (pkIrq p) true
          else
            let c1 := c.setQueue n { q1 with cur := .offered p, passedAt := c.pclk }
            { c1 with fe := { c1.fe with offered := c.offerOrder n } }
        else c
  | _, _ => c

/-- FRONT_END_CHECKS (R109). -/
def execFrontEndChecks (n : Nat) (s : State) : Host.Outcome State Fault Refusal :=
  if n < 64 then onBootRun s fun sys c => c.frontChecks (sys.phase == .boot) n else .next s

/-- HALT_REPLY: once every earlier packet has given way, the halting packet's final reply is finalised (R107); q_fault is set when
it has been written. -/
def Core.haltReply (c : Core) (n : Nat) : Core :=
  let q := c.queue n
  match q.haltWith, q.cur, q.buf with
  | some r, .none, [] =>
    let v : Verdict := { status := r.status, detail := r.detail }
    if c.mute v then c
    else (c.setQueue n { q with haltWith := none }).finalReplyOf n r.tag v r.irq false none true
  | _, _, _ => c

/-- HALT_REPLY (R107). -/
def execHaltReply (n : Nat) (s : State) : Host.Outcome State Fault Refusal :=
  if n < 64 then onBootRun s fun _ c => c.haltReply n else .next s

/-! Writing replies -/

/-- Whether a RESET_PENDING reply of another queue has to wait for that of queue 0, which is written first (R89). -/
def Core.afterQueueZero (c : Core) (n : Nat) (r : Reply) : Bool :=
  n != 0 && r.status == .resetPending && (c.queue 0).hasRoom && ((c.queue 0).replies.any fun x => x.status == .resetPending)

/-- The oldest reply of a queue is written once the ring has room for it and no other write of the queue is under way;
the packet it answers gives way (R98, R110, R111). -/
def Core.replyWrite (c : Core) (n : Nat) : Core :=
  let q := c.queue n
  match q.writing, q.replies with
  | none, r :: rest =>
    if q.hasRoom && !c.afterQueueZero n r then
      let q1 := { q with replies := rest, writing := some r }
      (c.setQueue n (if r.gives then q1.giveWay else q1)).reelWrite (q.replyAddr q.rplTail)
        (wordBytes r.word0 ++ wordBytes (w64 r.count)) (.reply n r)
    else c
  | _, _ => c

/-- REPLY_WRITE (R111). -/
def execReplyWrite (n : Nat) (s : State) : Host.Outcome State Fault Refusal :=
  if n < 64 then onBootRun s fun _ c => c.replyWrite n else .next s

/-- A queue's reply interrupt cause is set (R111). -/
def Core.replyIrq (c : Core) (n : Nat) : Core := c.setQueueFlag n 0

/-- q_fault is set once the reply of the packet that halted the fetch has been written (R107). -/
def Core.haltFlag (c : Core) (n : Nat) (r : Reply) : Core := if r.halts then c.setQueueFlag n 2 else c

/-- The write of a reply is acknowledged, or counts as written: rpl_tail, then the mirror word, then reply_irq
(R111). -/
def Core.replyDone (c0 : Core) (n : Nat) (r : Reply) : Core :=
  let c := c0.haltFlag n r
  let q := c.queue n
  let q1 := { q with rplTail := (q.rplTail + 1) % 2 ^ 32, writing := none }
  let d := if r.rest.isSome then (c.setQueue n q1).relocTrim else c.setQueue n q1
  let want := r.final && r.irq
  if bitAt q.mirror 63 then
    let word := w64 (q1.head * 2 ^ 32 + q1.rplTail)
    (d.setQueue n { q1 with mirrors := q1.mirrors + 1 }).reelWrite (fld q.mirror 3 45 * 8) (wordBytes word)
      (.mirror n want word r.tag)
  else if want then d.replyIrq n
  else d

/-- The mirror write is acknowledged, or counts as written (R111). -/
def Core.mirrorDone (c : Core) (n : Nat) (irq : Bool) : Core :=
  let q := c.queue n
  let c1 := c.setQueue n { q with mirrors := q.mirrors - 1 }
  if irq then c1.replyIrq n else c1

/-- A write of rpl_free (R110). -/
def Core.rplFreeWrite (c : Core) (n : Nat) (v : W64) : Option Core :=
  let q := c.queue n
  let new := fld v 0 32
  if diff32 new q.rplFree ≤ diff32 q.rplTail q.rplFree then some (c.setQueue n { q with rplFree := new }) else none

/-- RPL_FREE: a write of SZ_Q_RPL (R110). -/
def execRplFree (n : Nat) (v : W64) (acc : Access) (s : State) : Host.Outcome State Fault Refusal :=
  if n < 64 then onWrite s (0x100010 + 0x1000 * n) v acc fun _ c => c.rplFreeWrite n v else .next s

end Sys2Proof.Machine
end

