-- ==== Sys2Proof/Machine/Restore.lean ====
section
/-! DEFINITION. RESTORE (14 R356, R357; 08 R230): its checks, the saved state applied as one step, and the resume
count. -/

namespace Sys2Proof.Machine

/-! The checks (R356) -/

/-- The ports of a port mask. -/
def maskPorts (bs : List Byte) : List Nat := (List.range 1024).filter fun e => (bytesNat bs).testBit e

/-- Check 1 of R356, over the header words and the size of the region. -/
def Core.blobForm (c : Core) (h : List W64) (mask : W64) (ports size : Nat) : Bool :=
  let w := fun n => h.getD n 0
  let total := fld (w 0) 0 32
  let off := fld (w 12) 32 32
  fld (w 0) 32 32 == 0x434C5034 && decide (4 ≤ off) && total == off + fld (w 12) 16 16 * ports && decide (64 * total ≤ size)
    && fld (w 1) 20 4 == 4 && fld (w 1) 24 8 == c.cfg.code && bitAt (w 1) 16 && w 4 == mask
    && c.myLogical.getD 0 == fld (w 1) 0 16

/-- Whether a saved channel end is open in its context with the saved role (R356, check 4). -/
def Core.chanFits (c : Core) (n : Nat) (k : Nat × Nat × Option ChanTx × Option ChanRx) : Bool :=
  let h := c.chan k.1
  (match k.2.2.1 with | none => true | some _ => (match h.tx with | some t => t.ctx == n | none => false))
    && (match k.2.2.2 with | none => true | some _ => (match h.rx with | some r => r.ctx == n | none => false))

/-- Check 4 of R356: saved skeins, channel ends and tables are loaded or open, with node_count, role and experts. -/
def Core.saveFits (c : Core) (x : CtxSave) : Bool :=
  (x.skeins.all fun k => match c.skein x.num k.1 with | some s => s.nodeCount == k.2 | none => false)
    && x.chans.all (c.chanFits x.num)
    && x.tables.all fun t =>
      match (c.table t.1).tab, t.2.tab with
      | some a, some b => a.ctx == x.num && a.experts == b.experts
      | _, _ => false

/-- Check 5 of R356, the refusals of R230. -/
def Core.objsFit (c : Core) (x : CtxSave) : Except Verdict Unit := do
  let y := c.ctx x.num
  let mine := c.objsOf x.num
  ensure (mine.all fun o => (o.waiters ++ o.arms).all fun w => c.waiterGone o w) (vState 5)
  ensure (x.objs.all fun o => y.syncLog2 != 0 && decide (o.vid < 2 ^ y.syncLog2)) (vParam 2 2)
  ensure (decide (x.objs.length ≤ y.syncQuota)) (vFull 3)

/-- Every object of the saved contexts finds a free one (R230). -/
def Core.objsRoom (c : Core) (s : ClipSave) : Bool :=
  let freed := sumBy (fun (x : CtxSave) => (c.objsOf x.num).length) s.ctxs
  decide (c.sync.objs.length - freed + sumBy (fun (x : CtxSave) => x.objs.length) s.ctxs ≤ c.cfg.syncObjects)

/-- Checks 3 to 5 of R356, and the RESTORE that follows. -/
def Core.restoreTake (c : Core) (p : Packet) (base : Nat) (h : List W64) (ports : List Nat) (save : ClipSave) :
    Except Verdict CpRes := do
  match ports.find? fun e => !c.present e with
  | some e => .error { status := .engineAbsent, detail := e }
  | none => do
    ensure (save.ctxs.all c.saveFits) (vState 4)
    for x in save.ctxs do
      c.objsFit x
    ensure (c.objsRoom save) (vFull 3)
    let lines := fld (h.getD 12 0) 16 16
    let off := fld (h.getD 12 0) 32 32
    let area := fun j : Nat => base + 64 * off + 64 * lines * j
    let loads := ports.zipIdx.map fun e => (e.1, area e.2, lines)
    let q : RestoreRun :=
      { mask := pw p 3, blobAt := base, count := (h.getD 2 0).toNat, resume := (pw p 4).toNat, tag := pkTag p,
        irq := pkIrq p, ports := loads, applied := false,
        save := { save with tx := h.getD 6 0, rx := h.getD 7 0, localCut := (h.getD 3 0).toNat } }
    let c1 := c.clipBegin.setPhase 8
    return .accept (ports.foldl (fun d e => d.requestEnable e) { c1 with clip := { c1.clip with restore := some q } })

/-- A RESTORE that a Reel fault or Hedge ends FAULTED before it is accepted (R352, R358): its flag, last_reason and CLIP record. A clip
count that was not read is a free value of the record (notes/assumptions/4). -/
def Core.restoreStop (c : Core) (p : Packet) (count : Option W64) (k : Nat) : Except Verdict CpRes :=
  if k = heldCode then .error (vFaulted 2 k)
  else
    let x := match count with
      | some w => (w, c)
      | none => c.drawWord
    .ok (.done (vFaulted 2 k) (x.2.clipEnd k x.1.toNat (pw p 4).toNat false))

/-- RESTORE, steps 8 to 15 (R356, R364, R369): the whole blob is read before it is accepted. -/
def Core.restoreCmd (s : Sys) (c : Core) (p : Packet) : Except Verdict CpRes := do
  ensure (!c.clipPending) (vState 6)
  step9 p []
  let g ← c.handleParam 0 p 2 0 false 0
  let mask := pw p 3
  ensure ((maskCtxs mask).all fun n => (c.ctx n).st == .opened && c.noRuns n) (vState 5)
  extentCheck 2 g 256
  match c.readWords g.base 32 with
  | .error k => c.restoreStop p none k
  | .ok h => do
    let off := fld (h.getD 12 0) 32 32
    let lines := fld (h.getD 12 0) 16 16
    let ports := maskPorts ((h.drop 16).flatMap wordBytes)
    ensure (c.blobForm h mask ports.length g.size) (vParam 2 2)
    match c.readBytes g.base 256, c.readBytes (g.base + 256) (64 * (off - 4)),
        c.readBytes (g.base + 64 * off) (64 * lines * ports.length) with
    | .ok hb, .ok text, .ok areas =>
      if s.hedgeDown then c.restoreStop p (h[2]?) 9
      else
        let iv := (hb.drop 64).take 12
        let head := hb.take 80 ++ natBytes 16 0 ++ hb.drop 96
        if blobTag s head text areas iv = (hb.drop 80).take 16 then
          match Config.decodeSections (gcmText s.keys.devKey iv text) with
          | some save => c.restoreTake p g.base h ports save
          | none => .error (vParam 2 2)
        else
          return .done { status := .authFail, detail := 1 } ((c.setHedge 1).logHedge 6 Status.authFail.code 0 0)
    | .error k, _, _ => c.restoreStop p (h[2]?) k
    | .ok _, .error k, _ => c.restoreStop p (h[2]?) k
    | .ok _, .ok _, .error k => c.restoreStop p (h[2]?) k

/-- RESTORE (R356). -/
def execRestore (s : State) : Host.Outcome State Fault Refusal := onCommand s 0x72 fun sys c _ p => c.restoreCmd sys p

/-! The saved state applied (R357) -/

/-- The objects of a context as saved: freed, allocated again, their entries written, their queues rebuilt (R230). -/
def Core.restoreObjs (c : Core) (x : CtxSave) : Core :=
  let c1 := c.freeObjs fun o => o.ctx == x.num
  let used := c1.sync.objs.map (·.phys)
  let phys := lowestFree used (used.length + x.objs.length) 0 x.objs.length
  let objs := x.objs.zipIdx.map fun o => { o.1 with phys := phys.getD o.2 0, ctx := x.num, upds := [], arms := [] }
  let c2 := { c1 with sync := { c1.sync with objs := c1.sync.objs ++ objs } }
  objs.foldl (fun d o =>
    d.writeBytes (d.syncEntryAddr x.num o.vid) (wordBytes (w64 (bitW 63 true + bitW 62 o.token + o.phys)))) c2

/-- A channel end as saved, over the places that the open end has on this chip: the next epoch, the saved counts and
credit, and a send end is OPEN (R357). -/
def Core.restoreChan (c : Core) (k : Nat × Nat × Option ChanTx × Option ChanRx) : Core :=
  let h := c.chan k.1
  let tx := match h.tx, k.2.2.1 with
    | some t, some s =>
      some { t with st := .opened, epoch := (s.epoch + 1) % 2 ^ 16, ringLog2 := s.ringLog2,
                    wr := s.wr, consumed := s.consumed, delivered := s.delivered, sentRecs := s.sentRecs, reason := s.reason,
                    slots := s.slots.map fun x => (c.dclk, x.2), waiting := s.waiting,
                    sent := s.sent.map fun (x : Nat × TxRec) => ((x.1 + 1) % 2 ^ 16, x.2) }
    | t, _ => t
  let rx := match h.rx, k.2.2.2 with
    | some r, some s =>
      some { r with wr := s.wr, consumed := s.consumed, seqNext := s.seqNext, recs := s.recs, dlvd := s.dlvd,
                    polling := false, nextPoll := c.now, due := true }
    | r, _ => r
  let epoch := match k.2.2.2 with | some _ => (k.2.1 + 1) % 2 ^ 16 | none => h.epoch
  c.setChan k.1 { h with tx := tx, rx := rx, epoch := epoch }

/-- The relocation entries of a restored run: its handles are resolved again in the table of its context. -/
def Core.restoreReloc (c : Core) (r : Run) : Core :=
  match c.skein r.ctx r.skein with
  | none => c
  | some k =>
    r.handleIdx.zipIdx.foldl (fun d i =>
      if (d.relocAt r.ctx i.1).isSome then d
      else
        let gen := k.handles.getD i.2 0 / 2 ^ 20
        let region := match d.readWords (fld (d.ctx r.ctx).htab 0 48 + 16 * i.1) 2 with
          | .ok ws => (entryRegion (ws.getD 0 0) (ws.getD 1 0) gen false).map fun g => (g.write, g.base, g.size)
          | .error _ => none
        let e : RelocEnt := { ctx := r.ctx, idx := i.1, gen := gen, region := region }
        { d with graph := { d.graph with reloc := d.graph.reloc ++ [e] } }) c

/-- A restored run: held until the resume count, its polled waits to be armed again. -/
def Core.restoreRun (c : Core) (r : Run) : Core :=
  let again := fun t : Task =>
    match c.skein r.ctx r.skein with
    | some k =>
      if t.st = .waiting ∧ t.armed ∧ !t.satisfied ∧ rf (k.waitRec t.node) 0 62 2 = 1 then { t with armed := false } else t
    | none => t
  let r1 := { r with cut := true, tasks := r.tasks.map again }
  let c1 := { c with graph := { c.graph with runs := c.graph.runs ++ [r1] } }
  c1.restoreReloc r1

/-- A SYNC_WAIT that queue n held at the cut holds it again, ahead of the packet that is offered (R230). -/
def Core.restoreWait (c : Core) (x : CtxSave) : Core :=
  let q := c.queue x.num
  let back : List Packet := match q.cur with | .offered p => [p] | _ => []
  let place := fun d : Core =>
    { (d.setQueue x.num { q with cur := x.cur, buf := back ++ q.buf }) with
      fe := { d.fe with offered := d.fe.offered.filter fun m => m != x.num } }
  match x.cur with
  | .syncWait _ _ => place c
  | .sigWait _ _ _ => place c
  | _ => c

/-- One saved context applied (R230, R354, R357). -/
def Core.restoreCtx (c : Core) (x : CtxSave) : Core :=
  let y := c.ctx x.num
  let s := x.regs
  let c1 := c.setCtx x.num { y with st := s.st, ndc := s.ndc, det := s.det, cuts := s.cuts, stop := s.stop }
  let c2 := (c1.restoreObjs x).restoreWait x
  let c3 := x.chans.foldl Core.restoreChan c2
  let c4 := x.tables.foldl (fun d t => d.setTable t.1 { t.2 with tab := (d.table t.1).tab }) c3
  let maps := c4.moe.maps.filter fun (m : Nat × LiveMap) => m.2.ctx != x.num
  let c5 := { c4 with moe := { c4.moe with maps := x.maps ++ maps } }
  let c6 := x.runs.foldl Core.restoreRun (c5.setPlyPage x.num x.ply)
  { c6 with graph := { c6.graph with comps := c6.graph.comps ++ x.comps.map fun k => { k with d := c.dclk, since := c.dclk } } }

/-- Every saved context applied, with the frame counters (R347, R357). -/
def Core.restoreState (c : Core) (q : RestoreRun) : Core :=
  let c1 := q.save.ctxs.foldl Core.restoreCtx c
  { c1 with clip := { c1.clip with tx := q.save.tx, rx := q.save.rx, restore := some { q with applied := true } } }

/-- The contexts resume with the shift of the resume count, and the final reply is written (R357). -/
def Core.restoreResume (c : Core) (q : RestoreRun) (late : Bool) : Core :=
  let c1 := { c with clip := { c.clip with restore := none } }
  let c2 := (maskCtxs q.mask).foldl (fun d n => d.resumeCtx q.save.localCut (diff64 q.resume q.count) late n) c1
  (c2.finalReply 0 q.tag { status := .ok, detail := b2n late } q.irq false).clipEnd 0 q.count q.resume late

/-- A FAULT of a LOAD ends RESTORE (R357). -/
def Core.restoreFail (c : Core) (q : RestoreRun) (reason : Nat) : Core :=
  let c1 := { c with clip := { c.clip with restore := none } }
  (c1.finalReply 0 q.tag (vFaulted 2 reason) q.irq false).clipEnd reason q.count q.resume false

/-- What the table accesses of an application are answered with, those that are not answered OK: the entries of the saved objects are
written, and the handles of the saved runs that the relocation store does not hold are read. -/
def Core.restoreFaults (c : Core) (q : RestoreRun) : List Nat :=
  q.save.ctxs.flatMap fun x =>
    (x.objs.filterMap fun o => c.writeFault (c.syncEntryAddr x.num o.vid) 8)
      ++ x.runs.flatMap fun r => (r.handleIdx.filter fun i => (c.relocAt r.ctx i).isNone).filterMap fun i =>
          match c.readWords (fld (c.ctx r.ctx).htab 0 48 + 16 * i) 2 with
          | .error k => some k
          | .ok _ => none

/-- The saved state is applied as one step; it waits while an access of it has to (R33, R34), and one that fails ends RESTORE with
its code and leaves the contexts as they were (Table 14-2, R357). -/
def Core.restoreApply (c : Core) (q : RestoreRun) : Core :=
  let l := c.restoreFaults q
  if l.contains heldCode then c
  else
    match l with
    | k :: _ => c.restoreFail q k
    | [] =>
      let c1 := c.restoreState q
      if q.resume < c.gc.count then c1.restoreResume q true else c1

/-- RESTORE_APPLY: every LOAD has returned DONE (R357). -/
def execRestoreApply (s : State) : Host.Outcome State Fault Refusal :=
  onRun s fun _ c =>
    match c.clip.restore with
    | none => c
    | some q => if q.ports = [] ∧ !q.applied then c.restoreApply q else c

/-- RESUME_COUNT (R357). -/
def execResumeCount (s : State) : Host.Outcome State Fault Refusal :=
  onRun s fun _ c =>
    match c.clip.restore with
    | none => c
    | some q => if q.applied ∧ q.resume ≤ c.gc.count then c.restoreResume q false else c

end Sys2Proof.Machine
end

