-- ==== Sys2Proof/Machine/Hedge.lean ====
section
/-! DEFINITION. Hedge (15): secure boot with FW_LOAD (R368 to R372) and the entry to RUN (R59, R115), signed tokens (R373 to
R376) with DEBUG_UNLOCK and the manual grant (R227), self-tests, health tests and scan (R367 to R369). -/

namespace Sys2Proof.Machine

/-! Keys and images -/

/-- n words of a key group of the key store; a store that holds nothing reads zero (R361). -/
def groupWords (l : List W32) (n : Nat) : List W32 := (List.range n).map fun i => l.getD i 0

/-- Whether a key group is blank: all zeros or all ones (R362). -/
def blankGroup (l : List W32) (n : Nat) : Bool :=
  (groupWords l n).all (· == 0) || (groupWords l n).all (· == BitVec.allOnes 32)

/-- Word n of a byte string. -/
def bWord (bs : List Byte) (n : Nat) : Nat := bytesNat ((bs.drop (8 * n)).take 8)

/-- Part of a byte string: n bytes from byte a. -/
def bPart (bs : List Byte) (a n : Nat) : List Byte := (bs.drop a).take n

/-- Whether n bytes from byte a are zero. -/
def bZero (bs : List Byte) (a n : Nat) : Bool := (bPart bs a n).all (· == 0)

/-- The twelve words of a digest that stands in a byte string. -/
def bDigest (bs : List Byte) (a : Nat) : List W32 :=
  (List.range 12).map fun i => BitVec.ofNat 32 (bytesNat (bPart bs (a + 4 * i) 4))

/-- A Hedge reason as a verdict. -/
def vAuth (reason : Nat) : Verdict := { status := .authFail, detail := reason }

/-- Step 2 of Table 15-5: magic, reserved bits, length, and W3 = 512 + length (Table 15-4). -/
def imageForm (h : List Byte) (size : Nat) : Bool :=
  let len := bWord h 0 % 2 ^ 32
  bWord h 0 / 2 ^ 32 == 0x46574934 && len % 64 == 0 && decide (65536 ≤ len) && decide (len ≤ 786432)
    && bWord h 2 / 32 == 0 && bWord h 2 % 2 == 0 && bZero h 24 40 && bZero h 112 16 && bZero h 225 31 && bZero h 352 160
    && size == 512 + len

/-- The signature check of an image or a token: the digest of its first n bytes, the key at byte k, the signature at
byte g (R370, R373). -/
def sigOk (bs : List Byte) (n k g : Nat) : Bool :=
  Config.ecdsaVerify (bPart bs k 97) (Config.sha384 (bPart bs 0 n)) (bPart bs g 96)

/-- Steps 2 to 8 of Table 15-5 on a header and a body. -/
def imageVerdict (s : Sys) (c : Core) (h : List Byte) (size : Nat) : Except Verdict Unit := do
  ensure (imageForm h size) (vAuth 7)
  ensure (Config.sha384 (bPart h 128 97) == groupWords s.keys.fwKey 12
          && !(s.lcs == .locked && blankGroup s.keys.fwKey 12)) (vAuth 3)
  ensure (sigOk h 256 128 256) (vAuth 2)
  ensure (bWord h 1 / 2 ^ 56 == 4 && (bWord h 2).testBit c.cfg.code) (vAuth 5)
  ensure (decide (s.keys.floor ≤ bWord h 1 % 2 ^ 32)) (vAuth 4)

/-- The verification of FW_LOAD (R371): the header of the admitted image, or the failure. -/
def fwVerify (s : Sys) (c : Core) (p : Packet) : Except Verdict (List Byte) := do
  ensure (s.hg != .error) (vAuth 0x0B)
  ensure (s.hg != .dead && decide (s.bootFails < 8)) (vAuth 9)
  let a := physAddr p 2
  let h ← match c.readBytes a 512 with | .ok h => .ok h | .error k => .error (vFaulted 2 k)
  imageVerdict s c h (pf p 3 0 32)
  let body ← match c.readBytes (a + 512) (bWord h 0 % 2 ^ 32) with | .ok b => .ok b | .error k => .error (vFaulted 2 k)
  ensure (Config.sha384 body == bDigest h 64) (vAuth 8)
  ensure (!(s.lcs == .locked && blankGroup s.keys.devKey 8)) (vAuth 0x0A)
  return h

/-! Entry to RUN -/

/-- ENG_RST_N rises on every present port (Table 02-6, R175). -/
def Core.releasePorts (c : Core) : Core :=
  (List.range c.cfg.enginePorts).foldl (fun d e =>
    if d.present e then d.setPort e { d.port e with rstN := true, rstAt := d.now } else d) c

/-- Context 0 at RUN entry (R115), its progress counters as they stand (R329). -/
def Core.openSystem (c : Core) : Core :=
  c.setCtx 0 { c.ctx 0 with st := .opened, spindleMask := 2 ^ c.cfg.spindles - 1, handleLog2 := 0, syncLog2 := 0,
                            prioCeiling := 0, owner := false, sliceLen := 0, chanQuota := 0, syncQuota := 0 }

/-- No progress has been made in the watch period that begins (R331). -/
def Core.freshWatch (c : Core) : Core :=
  { c with ctxs := c.ctxs.map fun x : Nat × Ctx => (x.1, { x.2 with progressed := false }) }

/-- RUN is entered: the count restarts at zero (R59), queue 0 counts from zero (R71), context 0 opens (R115), the first
watch period begins (R331). -/
def Core.enterRun (c : Core) : Core :=
  let c1 := c.freshWatch.openSystem.releasePorts
  let c2 := c1.setQueue 0 { c1.queue 0 with compl := 0 }
  { c2 with gc := { c2.gc with count := 0, anchors := [(0, 3 * c2.dclk)] },
            watch := { c2.watch with endAt := c2.now + c2.watchTime } }

/-! FW_LOAD -/

/-- The packet of queue 0 that waits for Hedge in BOOT (R57, R109). -/
def Core.bootPacket (c : Core) : Option Packet :=
  match (c.queue 0).cur with
  | .offered p => if pkOp p = 0x90 ∧ !c.replyHeld 0 ∧ c.cpFree then some p else none
  | _ => none

/-- A failed FW_LOAD (R371): boot_fails, auth_fail, the HEDGE record, DEAD at the eighth (Table 15-14), the reply. -/
def fwFail (s : Sys) (c : Core) (p : Packet) (v : Verdict) : Sys × Core :=
  let n := min (s.bootFails + 1) 0xFF
  let reason := if v.status = .authFail then v.detail else 0
  ({ s with bootFails := n, hg := if s.hg = .ready ∧ 8 ≤ n then .dead else s.hg },
   ((c.setHedge 0).logHedge 1 0x30 reason 0).finalReply 0 (pkTag p) v (pkIrq p) true)

/-- An admitted image (R372): OK counted in BOOT, BOOTED, the versions, the HEDGE record, and RUN. -/
def fwAdmit (s : Sys) (c : Core) (p : Packet) (h : List Byte) : Sys × Core :=
  let ver := bWord h 1
  ({ s with hg := .booted, fwVersion := ver / 2 ^ 32 % 2 ^ 24, secVersion := ver % 2 ^ 32, phase := .run, since := c.now },
   ((c.finalReply 0 (pkTag p) vOk (pkIrq p) true).logHedge 8 0 0 0).enterRun)

/-- FW_LOAD in BOOT, its packet taken: the lifecycle of step 8 (R366), step 9, then the verification. It waits while a read of the
image has to (R33, R34); RUN is entered at an even DCLK, so that every even count falls on an edge of ECLK (R51, R273,
notes/assumptions/96). -/
def fwLoad (s : Sys) (c : Core) (p : Packet) : Sys × Core :=
  let c1 := c.cpTaken 0
  let pre : Except Verdict Unit := do
    ensure (s.lcs != .decommissioned) (vState 7)
    step9 p (physFaults p 2 0)
  match pre with
  | .error v => (s, c1.finalReply 0 (pkTag p) v (pkIrq p) true)
  | .ok () =>
    match fwVerify s c1 p with
    | .error v => if v = vFaulted 2 heldCode then (s, c) else fwFail s c1 p v
    | .ok h => if c.dclk % 2 = 0 then fwAdmit s c1 p h else (s, c)

/-- FW_LOAD (R57, R371): it waits while Hedge runs its tests (R368); in RUN it is refused (Table 03-10). -/
def execFwLoad (s : State) : Host.Outcome State Fault Refusal :=
  if s.sys.phase = .boot then
    match s.core.bootPacket with
    | some p =>
      if s.sys.hg = .selftest then .next s
      else
        let r := fwLoad s.sys s.core p
        .next { s with sys := r.1, core := r.2 }
    | none => .next s
  else onCommand s 0x90 fun _ _ _ _ => .error (vState 2)

/-! Tokens -/

/-- Check 1 of R374: magic, kind, reserved bits and the fields of the kind (Table 15-6a). -/
def tokenForm (t : List Byte) (kind : Nat) : Bool :=
  let w := bWord t 2
  bWord t 0 == 0x544B4E34 * 2 ^ 32 + kind && bWord t 3 / 8 == 0 && bZero t 32 32 && bZero t 161 31
    && (if kind = 1 then w / 4 == 0 && w != 0
        else w / 2 ^ 32 == 0 && w / 64 % 2 ^ 10 == 0 && w / 2 ^ 16 != 0)

/-- The verification of a token (R362, R374). -/
def tokenVerdict (s : Sys) (t : List Byte) (kind : Nat) (nonce : W64) : Except Verdict Unit := do
  ensure (tokenForm t kind) (vAuth 7)
  ensure (Config.sha384 (bPart t 64 97) == groupWords s.keys.dbgKey 12 && !blankGroup s.keys.dbgKey 12) (vAuth 3)
  ensure (sigOk t 192 64 192) (vAuth 2)
  ensure (bWord t 1 == nonce.toNat && (bWord t 3).testBit s.lcs.code) (vAuth 6)

/-- What a DEBUG_UNLOCK comes to before its effect: refused, or the token's bytes and what its verification ended with. In ERROR and
DEAD Hedge reads no token: the answer is 0x0B (R368, R369). -/
def unlockOutcome (s : Sys) (c : Core) (p : Packet) : Except Verdict (List Byte × Except Verdict Unit) := do
  ensure (s.lcs == .manufacture || s.lcs == .development) (vState 7)
  step9 p (physFaults p 2 0)
  ensure (decide (288 ≤ pf p 3 0 32)) (vWord .badHandle 3 3)
  if s.hedgeDown then return ([], .error (vAuth 0x0B))
  else
    match c.readBytes (physAddr p 2) 288 with
    | .ok t => return (t, tokenVerdict s t 1 c.hedge.nonce)
    | .error k => .error (vFaulted 2 k)

/-- The nonce of unlock tokens is replaced (R374); a read in the same PCLK still returns what it was (Table 15-7). In ERROR and DEAD,
where Hedge performs no cryptographic operation, none is drawn (R369). -/
def Core.newHedgeNonce (s : Sys) (c : Core) : Core :=
  if s.hedgeDown then c
  else
    let d := c.drawWord
    { d.2 with hedge := { d.2.hedge with nonce := d.1, was := some (c.pclk, c.hedge.nonce) } }

/-- DEBUG_UNLOCK's part of the answer (R375). -/
def Core.debugUnlock (s : Sys) (c : Core) (p : Packet) : Except Verdict CpRes :=
  match unlockOutcome s c p with
  | .error v => .error v
  | .ok (_, .ok ()) => .ok (.done vOk (((c.newHedgeNonce s).setHedge 3).logHedge 4 0 0 0))
  | .ok (_, .error v) => .ok (.done v (((c.newHedgeNonce s).setHedge 0).logHedge 2 0x30 v.detail 0))

/-- The packet that the control processor takes next, if it has an opcode and its context admits it. -/
def Core.takes (c : Core) (op : Nat) : Option Packet :=
  if !c.cpFree then none
  else
    match c.nextOffered c.fe.offered with
    | some (n, p) => if pkOp p = op ∧ c.admitted n p then some p else none
    | none => none

/-- What a verified unlock opens (R375). -/
def Sys.unlocked (s : Sys) (c : Core) : Sys :=
  match c.takes 0x91 with
  | none => s
  | some p =>
    match unlockOutcome s c p with
    | .ok (t, .ok ()) =>
      { s with unlockNet := s.unlockNet || (bWord t 2).testBit 0, unlockScan := s.unlockScan || (bWord t 2).testBit 1,
               unlockAt := if (bWord t 2).testBit 1 then some (c.now / 48) else s.unlockAt }
    | _ => s

/-- DEBUG_UNLOCK (R374, R375). -/
def execDebugUnlock (s : State) : Host.Outcome State Fault Refusal :=
  if s.sys.phase = .run then
    .next { s with sys := s.sys.unlocked s.core, core := s.core.cpTake 0x91 fun c _ p => c.debugUnlock s.sys p }
  else .next s

/-! The manual grant (R227) -/

/-- A write of SZ_SM_GRANT: ignored while busy; it ends a grant in force. -/
def Core.grantWrite (c : Core) (v : W64) : Option Core :=
  let w := c.sync.win
  if bitAt w.status 3 then none
  else
    some { c with sync := { c.sync with win := { w with
      status := setBit (setBit w.status 2 false) 3 true, grantAddr := some (fld v 6 42 * 64 + fld v 48 2 * 2 ^ 48) } } }

/-- SZ_SM_GRANT (R227). -/
def execSzSmGrant (v : W64) (acc : Access) (s : State) : Host.Outcome State Fault Refusal :=
  onWrite s 0x800008 v acc fun _ c => c.grantWrite v

/-- The token that a grant names, and what its verification ends with; none while its read has to wait (R33, R34). In ERROR and
DEAD no token is read (R369). -/
def grantOutcome (s : Sys) (c : Core) (a : Nat) : Option (List Byte × Except Verdict Unit) :=
  if s.hedgeDown then some ([], .error (vAuth 0x0B))
  else if inTier (a / 2 ^ 48) (a % 2 ^ 48) 288 then
    match c.readBytes (a % 2 ^ 48) 288 with
    | .ok t => some (t, tokenVerdict s t 2 c.sync.win.nonce)
    | .error k => if k = heldCode then none else some ([], .error (vAuth 0))
  else some ([], .error (vAuth 0))

/-- The nonce of grant tokens is replaced, as that of unlock tokens is. -/
def Core.newGrantNonce (s : Sys) (c : Core) : Core :=
  if s.hedgeDown then c
  else
    let d := c.drawWord
    { d.2 with sync := { d.2.sync with win := { d.2.sync.win with nonce := d.1, was := some (c.pclk, c.sync.win.nonce) } } }

/-- The end of a verification: granted with its context and operations, or auth_fail; the nonce is replaced. -/
def Core.grantEnd (s : Sys) (c : Core) (t : List Byte) (r : Except Verdict Unit) : Core :=
  let d := c.newGrantNonce s
  let w := d.sync.win
  let st := setBit w.status 3 false
  match r with
  | .ok () =>
    let g := bWord t 2
    { d with sync := { d.sync with win := { w with
        grantAddr := none, status := setFld (setFld (setBit st 2 true) 24 6 (g % 64)) 32 16 (g / 2 ^ 16) } } }
  | .error v =>
    let c1 := { d with sync := { d.sync with win := { w with
        grantAddr := none, status := setBit (setBit st 2 false) 1 true } } }.mark 0x800010 1
    c1.logHedge 3 0x30 v.detail 0

/-- A verification ends. -/
def Core.grantVerified (s : Sys) (c : Core) : Core :=
  match c.sync.win.grantAddr with
  | none => c
  | some a =>
    match grantOutcome s c a with
    | none => c
    | some r => c.grantEnd s r.1 r.2

/-- GRANT_VERIFIED (R227, R374). -/
def execGrantVerified (s : State) : Host.Outcome State Fault Refusal := onRun s fun sys c => c.grantVerified sys

/-! Tests of Hedge, and scan -/

/-- Hedge enters ERROR: selftest_fail and its record (R368, R369). -/
def Core.hedgeError (c : Core) : Core := (c.setHedge 2).logHedge 5 0 0 0

/-- HEDGE_SELFTEST_END (R368, Table 15-14). -/
def execHedgeSelftestEnd (pass : Bool) (s : State) : Host.Outcome State Fault Refusal :=
  if s.sys.hg = .selftest ∧ s.sys.phase = .boot then
    if pass then .next { s with sys := { s.sys with hg := .ready } }
    else .next { s with sys := { s.sys with hg := .error }, core := s.core.hedgeError }
  else .next s

/-- HEALTH_TEST_FAIL (R369, Table 15-14). -/
def execHealthTestFail (s : State) : Host.Outcome State Fault Refusal :=
  if s.sys.hg = .ready ∨ s.sys.hg = .booted then
    .next { s with sys := { s.sys with hg := .error }, core := s.core.hedgeError }
  else .next s

/-- The key store zeroed (R361, R367). -/
def Keys.zero : Keys := { fwKey := [], devKey := [], dbgKey := [], floor := 0 }

/-- Whether the lifecycle state permits scan (Table 15-2), once KEY_READ has sampled it. -/
def Sys.scanOk (s : Sys) : Bool :=
  (s.phase == .memInit || s.phase == .boot || s.phase == .run)
    && (s.lcs == .manufacture || (s.lcs == .development && s.unlockScan))

/-- The key store is zeroed until the next power-on reset, and scan_entered is set (R367). -/
def State.scanEnter (s : State) : State :=
  let c1 := (s.core.setHedge 4).logHedge 7 0 0 0
  { s with sys := { s.sys with keys := .zero, scanned := true, scanRise := none },
           core := { c1 with hedge := { c1.hedge with keyBlank := true } } }

/-- TS_SCAN_MODE rises (R367): where scan is permitted it is entered at once; in the SCLK in which an unlock with scope scan takes
effect, in the next (Table 15-7). -/
def execTsScanMode (s : State) : Host.Outcome State Fault Refusal :=
  let t := s.core.now / 48
  if s.sys.scanOk && (s.sys.lcs == .manufacture || s.sys.unlockAt != some t) then .next s.scanEnter
  else .next { s with sys := { s.sys with scanRise := some t } }

/-- At an SCLK edge, a rise of TS_SCAN_MODE that met an unlock with scope scan in the SCLK before (Table 15-7). -/
def State.scanLate (s : State) : State :=
  if s.core.now % 48 = 0 ∧ s.sys.scanRise = some (s.core.now / 48 - 1) ∧ s.sys.unlockAt = s.sys.scanRise ∧ s.sys.scanOk then
    s.scanEnter
  else s

/-! The instruments of the test port -/

/-- What the IEEE 1687 network gives (Table 15-2). -/
inductive TestNet where
  | full | instruments | bypass
  deriving DecidableEq, Repr

/-- The network in the present lifecycle state, once KEY_READ has sampled it (R47, R365): full in MANUFACTURE, and in DEVELOPMENT after
an unlock with scope net; in LOCKED the instruments of Table 15-3 alone. Where it is not available (DEVELOPMENT before the
unlock, R47), and before the sample, nothing is exposed, as in bypass (DEDUCED, notes/assumptions/101). -/
def Sys.testNet (s : Sys) : TestNet :=
  if !(s.phase == .memInit || s.phase == .boot || s.phase == .run) then .bypass
  else match s.lcs with
    | .manufacture => .full
    | .development => if s.unlockNet then .full else .bypass
    | .locked => .instruments
    | .decommissioned => .bypass

/-- The content of instrument ID (Table 15-3): SZ_VERSION. -/
def instrId (s : State) : Option W64 := if s.sys.testNet = .bypass then none else some (regVersion s.core)

/-- The content of instrument LCS: the decoded lifecycle state, hg_state and approved. -/
def instrLcs (s : State) : Option (Lcs × HgState × Bool) :=
  if s.sys.testNet = .bypass then none else some (s.sys.lcs, s.sys.hg, approved s.sys)

/-- The content of instrument BIST, read in BOOT: whether the last memory BIST passed, and its repair count. -/
def instrBist (s : State) : Option (Bool × Nat) :=
  if s.sys.testNet = .bypass ∨ s.sys.phase ≠ .boot then none else s.sys.bistResult

/-- The content of instrument HEDGE: the flags of SZ_HG_EVT, and hedge_events. -/
def instrHedge (s : State) : Option (Nat × Nat) :=
  if s.sys.testNet = .bypass then none else some (fld s.core.hedge.evt 0 6, fld s.core.hedge.evt 48 16)

end Sys2Proof.Machine
end

