-- ==== Sys2Proof/Machine/Reset.lean ====
section
/-! DEFINITION. Reset (02 R53 to R60, 03 R89, 13 R336 to R339): power-on reset, the three sources of a whole-device reset, and
the states of Table 02-5 up to BOOT. -/

namespace Sys2Proof.Machine

/-! What a reset does to memory outside the block -/

/-- A write that was outstanding at reset entry may or may not have reached memory (R338); a peer write names no memory of this chip
(R31). -/
def Core.maybeWritten (c : Core) (r : ReelReq) : Core :=
  if r.write && r.tier != 2 then
    let d := c.drawBool
    if d.1 then d.2.writeBytes r.addr r.data else d.2
  else c

/-- The bytes of memory that reset entry leaves undefined (R141, R338): those written for unfinished runs, for runs whose final
reply is not yet written, and all that the assignments lost at the ports could reach. -/
def Core.lostBytes (c : Core) : List Nat :=
  (c.graph.runs.flatMap (·.wrote))
    ++ (c.rests.flatMap (·.wrote))
    ++ c.disp.ports.flatMap fun p : Nat × EngPort => (p.2.out.map PortRec.reach).getD []

/-- Memory at reset entry: what is lost is undefined, and the writes under way may have been done (R338). -/
def Core.memoryAtReset (c : Core) : Core := c.reel.out.foldl Core.maybeWritten (c.freeBytes c.lostBytes)

/-! What a reset keeps -/

/-- The two nonces, drawn by Hedge (R401). -/
def Core.newNonces (c : Core) : Core :=
  let a := c.drawWord
  let b := a.2.drawWord
  { b.2 with hedge := { b.2.hedge with nonce := b.1 },
             sync := { b.2.sync with win := { b.2.sync.win with nonce := a.1 } } }

/-- Every unit at its reset values, with the constants of the macro, the time, the free values, memory and the level of
PW_THROTTLE as they stand (R401, Table 02-10). -/
def Core.cleared (c : Core) : Core :=
  Core.newNonces { Core.reset with cfg := c.cfg, build := c.build, now := c.now, free := c.free, mem := c.mem,
                                   badLines := c.badLines,
                                   pwr := { Core.reset.pwr with
                                     status := setBit Core.reset.pwr.status 5 (bitAt c.pwr.status 5) } }

/-- What a whole-device reset keeps of the rest (Table 13-9, R392): the log, the stash entries and pointers, oos of each port,
and the withdrawn pages of the repair map; and blob_count and clip_seq, which count since power-on (Tables 15-12, 14-8) though the
list of R401 does not name them (DEDUCED, notes/assumptions/102). -/
def Core.resetKept (c : Core) : Core :=
  let d := c.cleared
  { d with
    evt := c.evt, stash := { d.stash with ents := c.stash.ents, wr := c.stash.wr, rd := c.stash.rd },
    fab := { d.fab with ports := c.fab.ports.map fun (p : Nat × Link) => (p.1, { Link.reset with oos := p.2.oos }) },
    graph := { d.graph with badBanks := c.graph.badBanks },
    hedge := { d.hedge with blobCount := c.hedge.blobCount },
    clip := { d.clip with status := setFld d.clip.status 32 32 (fld c.clip.status 32 32) } }

/-! Whole-device reset -/

/-- A RESET record (R326, Table 13-1). -/
def Core.logReset (c : Core) (cause count : Nat) : Core := c.log 0x0C cause 0 0 0 0 (w64 count) 0

/-- The order in which sources of one SCLK decide the cause (R55): lock loss, SYS_RST_N, DEVICE_RESET. -/
def causeRank (cause : Nat) : Nat := if cause = 4 then 0 else if cause = 2 then 1 else 2

/-- A record of the log, changed where there is one. -/
def modEntry (recs : AMap EvtRec) (i : Nat) (f : EvtRec → EvtRec) : AMap EvtRec :=
  match aget recs i with
  | some r => aset recs i (f r)
  | none => recs

/-- The RESET record of this SCLK names another cause. -/
def Core.recause (c : Core) (cause : Nat) : Core :=
  let entry := fun i => (c.evt.wr + 2 ^ 32 - 1 - i) % 2 ^ 32 % 1024
  match findBelow (min 1024 (diff32 c.evt.wr c.evt.rd)) fun i =>
      match aget c.evt.recs (entry i) with
      | some r => r.cls == 0x0C && r.at_ / 16 == c.dclk / 16
      | none => false with
  | none => c
  | some i =>
    { c with evt := { c.evt with recs := modEntry c.evt.recs (entry i) fun r => { r with w0 := setFld r.w0 16 8 cause } } }

/-- The lifecycle part at whole-device reset entry (R53, R55, R361). HOLD is left at once, for DRAIN, except while it waits
for the lock; a restart that comes during that wait does not end it (R55). -/
def Sys.resetEntry (s : Sys) (now cause : Nat) (owed : List (Nat × Nat)) : Sys :=
  let lock := s.holdLock || cause == 4
  { s with phase := if lock then .hold else .drain, since := if s.holdLock && s.phase == .hold && cause != 4 then s.since else now,
           holdLock := lock, resetAt := some (now / 48),
           resetCount := min (s.resetCount + 1) 0xFFFF, lastCause := cause, devResetAt := none,
           drainOwed := s.drainOwed ++ owed, hg := .keys, lcs := .manufacture, fwVersion := 0, secVersion := 0,
           keys := .zero, unlockNet := false, unlockScan := false, unlockAt := none, scanRise := none, bistResult := none }

/-- Whether the reset that began in this SCLK has not yet gone beyond KEY_READ, so that another source joins it (R55). -/
def Sys.joins (s : Sys) (now : Nat) : Bool :=
  s.resetAt == some (now / 48) && (s.phase == .hold || s.phase == .drain || s.phase == .keyRead)

/-- A source of a whole-device reset becomes active (R55): one reset for an SCLK, its cause the first in order; nothing
during a power-on reset's HOLD. The RESET record is written before job state is lost (R326). -/
def wholeReset (s : State) (cause : Nat) : Host.Outcome State Fault Refusal :=
  let c := s.core
  if s.sys.porst then .next s
  else if s.sys.joins c.now then
    if causeRank cause < causeRank s.sys.lastCause then
      .next { s with core := c.recause cause,
                     sys := { s.sys with lastCause := cause, holdLock := s.sys.holdLock || cause == 4,
                                         phase := if cause = 4 then .hold else s.sys.phase } }
    else .next s
  else
    let sys := s.sys.resetEntry c.now cause (c.reel.out.map fun r => (r.chan, r.tag))
    .next { s with sys := sys, core := ((c.logReset cause sys.resetCount).memoryAtReset).resetKept }

/-- SYS_RST_N (R49, R55). -/
def execSysRstN (s : State) : Host.Outcome State Fault Refusal := wholeReset s 2

/-- LOCK_LOSS (R53, R55). -/
def execLockLoss (s : State) : Host.Outcome State Fault Refusal := wholeReset s 4

/-- Whether a RESET_PENDING reply has yet to be acknowledged (R89). -/
def Core.resetRepliesOwed (c : Core) : Bool :=
  (List.range 64).any fun n =>
    let q := c.queue n
    (q.replies.any fun r => r.status == .resetPending)
      || (match q.writing with | some r => r.status == .resetPending | none => false)

/-- DEVICE_RESET_ENTRY (R89): once the writes are acknowledged, or 65,536 PCLK have passed. -/
def execDeviceResetEntry (s : State) : Host.Outcome State Fault Refusal :=
  match s.sys.devResetAt with
  | some t => if !s.core.resetRepliesOwed || decide (t + 65536 * 4 ≤ s.core.now) then wholeReset s 3 else .next s
  | none => .next s

/-! Power-on reset -/

/-- POWER_ON_RESET (R56): everything is cleared, the log and SZ_RST_CAUSE included. -/
def execPowerOnReset (s : State) : Host.Outcome State Fault Refusal :=
  .next { s with sys := { Sys.reset with since := s.core.now }, core := s.core.memoryAtReset.cleared }

/-- PORST_N_DEASSERT (R56): HOLD ends. -/
def execPorstNDeassert (s : State) : Host.Outcome State Fault Refusal :=
  if s.sys.phase = .hold ∧ s.sys.porst then
    .next { s with sys := { s.sys with porst := false, phase := .clkStart, since := s.core.now } }
  else .next s

/-! The states of Table 02-5 -/

/-- LOCK_REGAINED (R53): the lock condition holds, and HOLD is left for DRAIN. RCLK_LOCK has been high for 1000 SCLK since the loss at
the earliest 1000 SCLK after it. -/
def execLockRegained (s : State) : Host.Outcome State Fault Refusal :=
  if s.sys.phase = .hold ∧ s.sys.holdLock ∧ s.sys.since + 1000 * 48 ≤ s.core.now then
    .next { s with sys := { s.sys with holdLock := false, phase := .drain, since := s.core.now } }
  else .next s

/-- CLK_START: the dividers are aligned (R50), after 16 SCLK (Table 02-5). -/
def execClkStart (s : State) : Host.Outcome State Fault Refusal :=
  if s.sys.phase = .clkStart ∧ s.sys.since + 16 * 48 ≤ s.core.now then .next { s with sys := { s.sys with phase := .keyRead, since := s.core.now } }
  else .next s

/-- DRAIN ends: every outstanding Reel request answered, or 65,536 PCLK elapsed (R58). -/
def execDrainEnd (s : State) : Host.Outcome State Fault Refusal :=
  if s.sys.phase = .drain ∧ (s.sys.drainOwed = [] ∨ s.sys.since + 65536 * 4 ≤ s.core.now) then
    .next { s with sys := { s.sys with phase := .keyRead, since := s.core.now, drainOwed := [],
                                       drainLate := s.sys.drainLate ++ s.sys.drainOwed } }
  else .next s

/-- The lifecycle state that KY_LCS encodes (R45, Table 01-17). -/
def lcsOf (code : Nat) : Lcs :=
  if code = 0b0011 then .manufacture
  else if code = 0b0101 then .development
  else if code = 0b1010 then .locked
  else .decommissioned

/-- The slots that Serzo uses (Table 01-16). -/
def usedSlots : List Nat :=
  List.range 12 ++ (List.range 8).map (0x10 + ·) ++ (List.range 12).map (0x20 + ·) ++ (List.range 32).map (0x30 + ·)
    ++ [0x50]

/-- The contents of n slots from one upward. -/
def slotRun (slots : AMap W32) (first n : Nat) : List W32 := (List.range n).map fun i => agetD slots (first + i) 0

/-- The key store that KEY_READ fills (R361): it stays zero on a scanned chip (R367) and in DECOMMISSIONED (Table 15-2). -/
def keysRead (s : Sys) (lcs : Lcs) (slots : AMap W32) : Keys :=
  if s.scanned || lcs == .decommissioned then .zero
  else { fwKey := slotRun slots 0 12, devKey := slotRun slots 0x10 8, dbgKey := slotRun slots 0x20 12,
         floor := (agetD slots 0x50 0).toNat }

/-- Whether a blank key group is in use: in MANUFACTURE and DEVELOPMENT (R362). -/
def blankInUse (lcs : Lcs) (k : Keys) : Bool :=
  (lcs == .manufacture || lcs == .development)
    && (blankGroup k.fwKey 12 || blankGroup k.devKey 8 || blankGroup k.dbgKey 12)

/-- The engine-present bits (Table 01-16, R403). -/
def presentBits (slots : AMap W32) : List Bool :=
  (List.range 1024).map fun e => (agetD slots (0x30 + e / 32) 0).getLsbD (e % 32)

/-- KEY_READ ends once every used slot is read (R44): keys, lifecycle, engine-present mask, and Hedge's way on (Table
15-14). -/
def execKeyRead (lcsCode : Nat) (slots : List (Nat × W32)) (s : State) : Host.Outcome State Fault Refusal :=
  if s.sys.phase = .keyRead ∧ usedSlots.all (fun k => (aget slots k).isSome) then
    let lcs := lcsOf lcsCode
    let keys := keysRead s.sys lcs slots
    let c := s.core
    .next { s with
      sys := { s.sys with phase := .memInit, since := c.now, lcs := lcs, keys := keys,
                          hg := if lcs = .decommissioned then .dead else .keys },
      core := { c with engPresent := presentBits slots, hedge := { c.hedge with keyBlank := blankInUse lcs keys } } }
  else .next s

/-- MEM_INIT ends after 65,536 DCLK and BOOT is entered (R56, Tables 02-5 and 15-14): the first drift window begins (R54). ENG_RST_N
has then been low for far more than the 64 ECLK of R40. -/
def execMemInit (s : State) : Host.Outcome State Fault Refusal :=
  if s.sys.phase = .memInit ∧ s.sys.since + 65536 * 3 ≤ s.core.now then
    .next { s with core := { s.core with clk := { s.core.clk with winAt := s.core.dclk } },
                   sys := { s.sys with phase := .boot, since := s.core.now,
                                       hg := if s.sys.hg = .dead ∨ s.sys.bootFails ≥ 8 then .dead else .selftest } }
  else .next s

end Sys2Proof.Machine
end

