-- ==== Sys2Proof/Machine/Test.lean ====
section
/-! DEFINITION. Loop-backs, SELFTEST and the registers of the Test and loop-back region (16 R380 to R395), and the BIST
instrument of the test port (R367, Table 15-3). -/

namespace Sys2Proof.Machine

/-! The depth in force -/

/-- The depths that Table 16-1 gives an interface; none where it names no such interface. -/
def depthsOf (iface : Nat) : Option Nat := aget [(1, 1), (2, 2), (3, 2), (4, 5)] iface

/-- The depth in force on an instance, 0 where there is none. -/
def Core.depth (c : Core) (iface inst : Nat) : Nat :=
  if iface = 1 then b2n c.tl.echoOn
  else if iface = 2 then agetD c.tl.reelDepth inst 0
  else if iface = 3 then agetD c.tl.engDepth inst 0
  else agetD c.tl.linkDepth inst 0

/-- Whether the configuration has an instance of an interface (R380). -/
def Core.hasInstance (c : Core) (iface inst : Nat) : Bool :=
  if iface = 1 then inst == 0
  else if iface = 2 then decide (inst < 2)
  else if iface = 3 then decide (inst < c.cfg.spindles)
  else decide (inst < c.cfg.linkPorts)

/-- The present ports of a group. -/
def Core.groupPorts (c : Core) (s : Nat) : List Nat := ((List.range 64).map (64 * s + ·)).filter c.present

/-! Reel test traffic (R385) -/

/-- Where line number i of a reflector's walk stands in the region of SZ_TL_REEL: the lines whose address bit 8 is the
channel. -/
def Core.testLine (c : Core) (n i : Nat) : Nat :=
  let lines := 2 ^ fld c.tl.reel 54 5 / 128
  let k := i % max lines 1
  fld c.tl.reel 12 36 * 4096 + 512 * (k / 4) + 256 * n + 64 * (k % 4)

/-- The 64 PRBS bytes of test line i of a channel. -/
def testData (n i : Nat) : List Byte := (List.range 8).flatMap fun k => wordBytes (prbsWord (16 + n) 0 (9 * i + k))

/-- The PRBS byte mask of test line i, with at least one byte set. -/
def testMask (n i : Nat) : W64 :=
  let m := prbsWord (16 + n) 0 (9 * i + 8)
  if m = 0 then 1 else m

/-- The next line of a reflector is written. -/
def Core.testSend (c : Core) (n : Nat) : Core :=
  if agetD c.tl.reelDepth n 0 = 2 ∧ 12 ≤ fld c.tl.reel 54 5 then
    let i := agetD c.tl.reelPos n 0
    let a := c.testLine n i
    { (c.reelIssue true (fld c.tl.reel 48 2) a (testData n i) (.testWrite n a i)) with
      tl := { c.tl with reelPos := aset c.tl.reelPos n (i + 1) } }
  else c

/-- One test line is done: it agreed, or it differed or faulted (Table 16-8). -/
def Core.testLineDone (c : Core) (n : Nat) (good read : Bool) : Core :=
  let w := agetD c.tl.reelCnt n 0
  let w1 := if read then satAdd w 32 32 1 else w
  { c with tl := { c.tl with reelCnt := aset c.tl.reelCnt n (if good then w1 else satAdd w1 0 32 1) } }

/-- A line of a list of bytes, a PRBS line written over it under its mask (R385). -/
def maskedLine (old new : List Byte) (mask : W64) : List Byte :=
  (List.range 64).map fun k => if mask.getLsbD k then new.getD k 0 else old.getD k 0

/-- One line of the boundary depth: written under its mask into a line of the 4 KiB buffer, read back and compared (R385). -/
def Core.boundaryLine (c : Core) (n : Nat) : Core :=
  let i := agetD c.tl.reelPos n 0
  let at_ := 64 * n + i % 64
  let buf := aset c.tl.reelBuf at_ (maskedLine (agetD c.tl.reelBuf at_ []) (testData n i) (testMask n i))
  let back := agetD buf at_ []
  let good := (List.range 64).all fun k => !(testMask n i).getLsbD k || back.getD k 0 == (testData n i).getD k 0
  ({ c with tl := { c.tl with reelBuf := buf, reelPos := aset c.tl.reelPos n (i + 1) } }).testLineDone n good true

/-- The lines that the boundary depth turns around in an SCLK: at most one request in 2 PCLK of the channel, and a line is two, so 0 to 3
lines; how many is open (R383). -/
def Core.boundaryLines (c : Core) (n : Nat) : Core :=
  if agetD c.tl.reelDepth n 0 = 1 then
    let d := c.drawWord
    (List.range (d.1.toNat % 4)).foldl (fun e _ => e.boundaryLine n) d.2
  else c

/-! Engine groups -/

/-- ENG_EN and ENG_RST_N of a group fall (R386, R387); test records under way are discarded (R382). -/
def Core.groupFall (c : Core) (s : Nat) : Core :=
  let c1 := (c.groupPorts s).foldl (fun d e =>
    let p := d.port e
    let drop := fun (r : Option PortRec) => match r with | some x => if x.use = .wire then none else some x | none => none
    d.setPort e { p with en := false, rstN := false, rstAt := d.now, issued := false, out := drop p.out, sel := drop p.sel }) c
  { c1 with pwr := { c1.pwr with waits := c1.pwr.waits.filter fun w => w.port / 64 != s || w.kind != .enable },
            tl := { c1.tl with wireTurn := adel c1.tl.wireTurn s } }

/-- The present port of a group after another, in turn (R387). -/
def Core.wireNext (c : Core) (s e : Nat) : Core :=
  match (findBelow 64 fun i => c.present (64 * s + (e + 1 + i) % 64)).map fun i => 64 * s + (e + 1 + i) % 64 with
  | some f => { c with tl := { c.tl with wireTurn := aset c.tl.wireTurn s f } }
  | none => c

/-- ENG_RST_N rises again on the ports of a group that is not, or no longer, under the stub, once it has been low for 64 ECLK (R40, R386,
R387). -/
def Core.groupRise (c : Core) : Core :=
  (c.disp.ports.filter fun (x : Nat × EngPort) =>
      !x.2.rstN && c.engLoop x.1 != 1 && c.present x.1 && decide (x.2.rstAt + 128 ≤ c.now)).foldl
    (fun d (x : Nat × EngPort) => d.setPort x.1 { d.port x.1 with rstN := true, rstAt := d.now }) c

/-! LOOPBACK_SET (R380 to R382) -/

/-- An instance's loop-back ends, on an engine group or a link port with what that does to the port. -/
def Core.loopEnd (c : Core) (iface inst : Nat) : Core :=
  if iface = 1 then { c with tl := { c.tl with echoOn := false } }
  else if iface = 2 then { c with tl := { c.tl with reelDepth := aset c.tl.reelDepth inst 0 } }
  else if iface = 3 then
    let c1 := c.groupFall inst
    { c1 with tl := { c1.tl with engDepth := aset c1.tl.engDepth inst 0 } }
  else
    let c1 := c.linkPark inst
    let c2 := c1.setLink inst { c1.link inst with looped := false, testLane := .reset }
    ({ c2 with tl := { c2.tl with linkDepth := aset c2.tl.linkDepth inst 0 } }).linkStart inst

/-- An instance's loop-back begins at a depth: its counters are zeroed (R382) and its test traffic starts. -/
def Core.loopBegin (c : Core) (iface inst depth : Nat) : Core :=
  if iface = 1 then { c with tl := { c.tl with echoOn := true } }
  else if iface = 2 then
    ({ c with tl := { c.tl with reelDepth := aset c.tl.reelDepth inst depth, reelCnt := aset c.tl.reelCnt inst 0 } }).testSend inst
  else if iface = 3 then
    let c1 : Core := { c with tl := { c.tl with
      engDepth := aset c.tl.engDepth inst depth, eng0 := aset c.tl.eng0 inst 0, eng1 := aset c.tl.eng1 inst 0 } }
    if depth = 1 then c1.groupFall inst
    else ((c1.groupPorts inst).foldl (fun d e => d.requestEnable e) c1).wireNext inst (64 * inst + 63)
  else
    let c1 := c.linkPark inst
    let c2 := c1.setLink inst { c1.link inst with looped := true, testLane := .reset }
    ({ c2 with tl := { c2.tl with
        linkDepth := aset c2.tl.linkDepth inst depth, linkTx := aset c2.tl.linkTx inst 0, linkRx := aset c2.tl.linkRx inst 0,
        linkBad := aset c2.tl.linkBad inst 0, linkNext := aset c2.tl.linkNext inst 0 } }).linkStart inst

/-- Step 9 of LOOPBACK_SET: its interface and depth, and its instance (R380). -/
def Core.loopFaults (c : Core) (p : Packet) : List PFault :=
  match depthsOf (pf p 2 0 8) with
  | none => range 2 0 false
  | some most =>
    range 2 8 (decide (1 ≤ pf p 2 8 8) && decide (pf p 2 8 8 ≤ most))
      ++ limit 2 16 (c.hasInstance (pf p 2 0 8) (pf p 2 16 8))

/-- Whether the plan in force marks a port present. -/
def Core.planned (c : Core) (p : Nat) : Bool :=
  match c.fab.plan with | some pl => (pl.portAt p).isSome | none => false

/-- Steps 8 to 15 of LOOPBACK_SET. -/
def Core.loopbackSet (c : Core) (p : Packet) : Except Verdict CpRes := do
  ensure (!c.otherOpen) (vState 8)
  step9 p (c.loopFaults p)
  let iface := pf p 2 0 8
  let depth := pf p 2 8 8
  let inst := pf p 2 16 8
  let on := pb p 3 0
  let cur := c.depth iface inst
  ensure (!on || cur == 0) (vState 3)
  ensure (on || (cur != 0 && cur == depth)) (vState 4)
  ensure (iface != 3 || c.noRuns 0) (vState 5)
  ensure (iface != 4 || decide (depth < 4) || c.planned inst) (vState 4)
  ensure (iface != 3 || !(c.groupPorts inst).isEmpty) { status := .engineAbsent, detail := 64 * inst }
  return .done vOk (if on then c.loopBegin iface inst depth else c.loopEnd iface inst)

/-- LOOPBACK_SET (R380). -/
def execLoopbackSet (s : State) : Host.Outcome State Fault Refusal := onCommand s 0x80 fun _ c _ p => c.loopbackSet p

/-! SELFTEST (R391 to R394) -/

/-- Whether any loop-back is set. -/
def Core.anyLoop (c : Core) : Bool := ({ c with tl := { c.tl with self := none } } : Core).testing

/-- Steps 8 to 15 of SELFTEST. -/
def Core.selftest (s : Sys) (c : Core) (n : Nat) (p : Packet) : Except Verdict CpRes := do
  let sel := pf p 2 0 8
  ensure (!c.otherOpen) (vState 8)
  ensure (!(sel == 2 && s.lcs == .locked)) (vState 7)
  step9 p (range 2 0 ([1, 2, 0x10, 0x11, 0x20].contains sel))
  ensure c.tl.self.isNone (vState 5)
  ensure (!(sel == 1 || sel == 2) || (!c.owns n && !c.anyLoop)) (vState 5)
  ensure (sel != 0x10 || c.noRuns n) (vState 5)
  ensure (sel != 0x11 || (List.range 64).all fun t => (c.table t).tab.isNone) (vState 5)
  return .accept { c with tl := { c.tl with
    result := w64 (sel * 2 ^ 56 + 2 * 2 ^ 48), self := some { sel := sel, tag := pkTag p, irq := pkIrq p, atTime := c.now } } }

/-- SELFTEST (R391). -/
def execSelftest (s : State) : Host.Outcome State Fault Refusal := onCommand s 0x81 fun sys c n p => c.selftest sys n p

/-- Whether a test fails: as it reports, a lane that differs (R393), a bad bank outside the graph store (R392). -/
def TestOutcome.fails (o : TestOutcome) (sel : Nat) : Bool :=
  !o.pass || ((sel == 1 || sel == 2) && o.badOther != 0) || ((sel == 0x10 || sel == 0x11) && o.badLanes != 0)

/-- The ports whose replay buffers a BIST skips: those that are not PARKED (R392). -/
def Core.untested (c : Core) : Nat := sumBy (fun p => bitW p ((c.link p).st != .parked)) (List.range c.cfg.linkPorts)

/-- A link port's replay buffers hold nothing (R392). -/
def Link.emptied (l : Link) : Link :=
  { l with vl0 := { l.vl0 with replay := [] }, vl1 := { l.vl1 with replay := [] }, vl2 := { l.vl2 with replay := [] },
           vl3 := { l.vl3 with replay := [] }, testLane := { l.testLane with replay := [] } }

/-- The banks of the graph store, of 16 pages each, withdrawn once a BIST has found banks bad: a bank found bad again is withdrawn
once, and a number beyond the store names no bank (R392). -/
def Core.withdrawn (c : Core) (banks : List Nat) : List Nat :=
  banks.foldl (fun acc b => if 16 * b < c.cfg.storePages ∧ !acc.contains b then acc ++ [b] else acc) c.graph.badBanks

/-- What a BIST leaves: bad banks of the graph store withdrawn, the arrays tested zero (R392). -/
def Core.bistLeaves (c : Core) (o : TestOutcome) : Core :=
  { c with graph := { c.graph with badBanks := c.withdrawn o.badGraph, reloc := [] },
           fab := { c.fab with ports := c.fab.ports.map fun (x : Nat × Link) =>
             (x.1, if x.2.st = .parked then x.2.emptied else x.2) } }

/-- SZ_TL_RESULT at the end of a test (Table 16-6). -/
def Core.resultWord (c : Core) (sel : Nat) (o : TestOutcome) : W64 :=
  let bist := sel == 1 || sel == 2
  let kat := sel == 0x10 || sel == 0x11
  w64 (sel * 2 ^ 56 + b2n (TestOutcome.fails o sel) * 2 ^ 48 + (if bist then c.untested * 2 ^ 40 else 0)
       + (if sel = 2 then min o.repaired 0xFFFF * 2 ^ 24 else 0)
       + (if bist then min (o.badGraph.eraseDups.length + o.badOther) 0xFFFF * 2 ^ 8 else 0) + (if kat then min o.badLanes 0xFF else 0))

/-- The end of a SELFTEST: its result, then the final reply of its packet; a failed test of Hedge enters ERROR (R394). -/
def selftestEnd (s : Sys) (c : Core) (r : SelfRun) (o : TestOutcome) : Sys × Core :=
  let c1 : Core := { c with tl := { c.tl with result := c.resultWord r.sel o, self := none } }
  let c2 := if r.sel = 1 ∨ r.sel = 2 then c1.bistLeaves o else c1
  let down := r.sel == 0x20 && TestOutcome.fails o r.sel && (s.hg == .ready || s.hg == .booted)
  let c3 := if down then c2.hedgeError else c2
  ({ s with hg := if down then .error else s.hg, repairs := if r.sel = 2 then s.repairs + o.repaired else s.repairs },
   c3.finalReply 0 r.tag vOk r.irq false)

/-- SELFTEST_END (R391). -/
def execSelftestEnd (o : TestOutcome) (s : State) : Host.Outcome State Fault Refusal :=
  if s.sys.phase = .run then
    match s.core.tl.self with
    | some r =>
      let x := selftestEnd s.sys s.core r o
      .next { s with sys := x.1, core := x.2 }
    | none => .next s
  else .next s

/-- BIST_INSTRUMENT: in BOOT, where the network reaches the instrument, a memory BIST with soft repair (Tables 15-2 and 15-3). -/
def execBistInstrument (o : TestOutcome) (s : State) : Host.Outcome State Fault Refusal :=
  if s.sys.phase = .boot ∧ s.sys.testNet ≠ .bypass then
    .next { s with
      sys := { s.sys with repairs := s.sys.repairs + o.repaired, bistResult := some (!TestOutcome.fails o 2, o.repaired) },
      core := s.core.bistLeaves o }
  else .next s

/-! Registers (R395) -/

/-- A write of SZ_TL_REEL, SZ_TL_STUB_CTRL or word 0 of SZ_TL_LINK_p. -/
def Core.testWrite (c : Core) (which : TestReg) (v : W64) : Option Core :=
  match which with
  | .tlReel =>
    if [0, 1].all (fun n => agetD c.tl.reelDepth n 0 == 0) && ringOk (v &&& fields [(58, 54), (49, 48), (47, 12)]) 30 then
      some { c with tl := { c.tl with reel := v &&& fields [(58, 54), (49, 48), (47, 12)] } }
    else none
  | .stubCtrl =>
    if (List.range 16).all (fun s => agetD c.tl.engDepth s 0 == 0) && fld v 0 16 != 0 then
      some { c with tl := { c.tl with stub := v &&& fields [(15, 0)] } }
    else none
  | .tlLink p =>
    if c.cfg.linkPorts ≤ p then some c
    else if agetD c.tl.linkDepth p 0 == 0 && [1, 2, 4, 8, 16].contains (fld v 54 5) && fld v 52 2 != 3 then
      some { c with tl := { c.tl with link0 := aset c.tl.link0 p (v &&& fields [(58, 52)]) } }
    else none

/-- TEST_LOOPBACK_REGISTERS (R395). -/
def execTestLoopbackRegisters (which : TestReg) (v : W64) (acc : Access) (s : State) : Host.Outcome State Fault Refusal :=
  if which.wf then
    onWrite s (match which with | .tlReel => 0x2000010 | .stubCtrl => 0x2000028 | .tlLink p => 0x2000400 + 32 * p) v acc
      fun _ c => c.testWrite which v
  else .next s

/-! The engine wire test (R387) -/

/-- An error of the wire test is counted (Table 16-10). -/
def Core.wireError (c : Core) (s : Nat) : Core :=
  { c with tl := { c.tl with eng0 := aset c.tl.eng0 s (satAdd (agetD c.tl.eng0 s 0) 0 32 1) } }

/-- The record of a wire test that is outstanding on a port. -/
def Core.wireRec (c : Core) (e : Nat) : Option PortRec :=
  match (c.port e).out with
  | some r => if r.use = .wire then some r else none
  | none => none

/-- ENGINE_WIRE_TIMEOUT: no completion within 2^16 ECLK of the second beat; the next port takes its turn. -/
def execEngineWireTimeout (e : Nat) (s : State) : Host.Outcome State Fault Refusal :=
  onRun s fun _ c =>
    match c.wireRec e with
    | some r =>
      if r.at_ + 2 + 2 * 65536 ≤ c.now then
        ((c.setPort e { c.port e with out := none }).wireError (e / 64)).wireNext (e / 64) e
      else c
    | none => c

end Sys2Proof.Machine
end

