-- ==== Sys2Proof/Machine/Engine.lean ====
section
/-! DEFINITION. What engines return (01 R37, 05 R142 and R147, 06 R173 to R181, 11 R349, R357): DONE, YIELDED, FAULT and SAVED,
with the port-protocol faults of R37 and R175, the stub (R386) and the wire test (R387). -/

namespace Sys2Proof.Machine

/-- The completion codes of Table 01-8; a reserved code stands with FAULT. -/
inductive EngCode where
  | done | yielded | fault (code : Nat) | saved
  deriving DecidableEq, Repr

/-- ECe_CODE of a completion. -/
def EngCode.num : EngCode → Nat
  | .done => 0
  | .yielded => 1
  | .fault n => n
  | .saved => 3

/-- Whether the outstanding record can return a code (R175, Table 13-3 reason 0x05). EIe_YIELD rises in the first ECLK whose edge is
at or after that of the DCLK that follows the decision (R179). -/
def Core.canReturn (c : Core) (p : EngPort) (r : PortRec) : EngCode → Bool
  | .done => r.use != .save
  | .yielded =>
    r.kind == 4 && (match p.yield with | some d => decide (ceilDiv (3 * (d + 1)) 2 ≤ c.now / 2) | none => false)
  | .fault _ => true
  | .saved => r.use == .save

/-! The end of a task's tiles -/

/-- Whether every tile of a task has returned and none is held (R142, R176). -/
def Task.allBack (t : Task) (h : Rec256) : Bool :=
  let n := t.tiles.getD 0
  t.held.isEmpty
    && (n == 0
        || (if hMode h = 0 then (hPorts h).all fun e => decide (n ≤ agetD t.back e 0)
            else decide (n ≤ sumBy (fun (p : Nat × Nat) => p.2) t.back)))

/-- Whether a record of a task is at some port, one that waits for its ramp grant included. -/
def Core.atPort (c : Core) (ref : TaskRef) : Bool :=
  c.disp.ports.any fun (p : Nat × EngPort) =>
    (match p.2.out with | some r => r.serves ref | none => false) || (match p.2.sel with | some r => r.serves ref | none => false)

/-- The DCLK of a completion whose last return falls in the present ECLK cycle: it begins at the second DCLK edge at or after
the edge that ends the cycle (R142). -/
def Core.compDclk (c : Core) : Nat := ceilDiv (c.now / 2 * 2 + 2) 3 + 1

/-- A return may have been the last of its task: its completion falls due (R142); a replay step ends with it (R150). -/
def Core.checkDone (c : Core) (ref : TaskRef) : Core :=
  match c.taskOf ref with
  | none => c
  | some (r, t) =>
    if r.stopping then c.settle ref.ctx ref.tag
    else if t.st.final || (c.compOf ref).isSome || c.atPort ref || !t.allBack (c.headOf r t) then c
    else if t.kind = .replayStep then ((c.taskEnd ref .done).replayRun ref.ctx ref.tag).settle ref.ctx ref.tag
    else c.addComp { d := c.compDclk, task := ref, skein := r.skein, stage := .due, since := c.compDclk, elided := false,
                     exited := false, applied := 0, matched := false }

/-- The bindings of a port to a task end (R167). -/
def Core.unbind (c : Core) (e : Nat) (ref : TaskRef) : Core :=
  let p := c.port e
  c.setPort e { p with bind := if p.bind = some ref then none else p.bind,
                       bind0 := if p.bind0 = some ref then none else p.bind0 }

/-- A completion of a record of a context's task counts (R329). -/
def Core.countAssign (c : Core) (n : Nat) : Core :=
  let x := c.ctx n
  c.setCtx n { x with assigns := sat64 x.assigns 1, progressed := true }

/-! What each record's return does -/

/-- A task that holds a yielded tile and has nothing outstanding any more is READY again, with its ready count and its flow
(R180). -/
def Core.backToReady (c : Core) (ref : TaskRef) : Core :=
  match c.taskOf ref with
  | none => c
  | some (r, t) =>
    if t.st = .running ∧ t.held ≠ [] ∧ !c.taskOut ref ∧ !r.stopping then c.modTask ref fun x => { x with st := .ready } else c

/-- A TILE returned DONE: it counts on its port; the last of a share, or a LIST tile, ends the binding. -/
def Core.tileDone (c : Core) (e : Nat) (r : PortRec) (ref : TaskRef) : Core :=
  match c.taskOf ref with
  | none => c
  | some (q, t) =>
    let c1 := c.modTask ref fun x =>
      { x with back := aset x.back e (agetD x.back e 0 + 1), st := if x.st = .issued then .running else x.st }
    ((if r.last || hMode (c.headOf q t) == 2 then c1.unbind e ref else c1).backToReady ref).checkDone ref

/-- A TILE returned YIELDED: it is held for its port, which needs a new SETUP; with nothing outstanding the task is READY
again, with its ready count and its flow (R173, R180). A withdrawn task has no tile to present again (R205). -/
def Core.tileYielded (c : Core) (e tile : Nat) (ref : TaskRef) : Core :=
  match c.taskOf ref with
  | none => c
  | some (r, t) =>
    let c1 := c.setPort e { c.port e with setup := none, consts := 0, bind := some ref }
    if t.tiles = some 0 then (c1.unbind e ref).checkDone ref else
    let c2 := c1.modTask ref fun x =>
      { x with held := x.held ++ [(e, tile)], st := if x.st = .issued then .running else x.st }
    if r.stopping then c2.settle ref.ctx ref.tag else c2.backToReady ref

/-- An engine FAULT, or what stands for one (R147, R175): the task faults, and the bytes that a TILE could reach hold undefined
content (R141); the record of a SETUP or CONST names no tile, and that field is a free value. -/
def Core.engineFault (c0 : Core) (e : Nat) (r : PortRec) (ref : TaskRef) (tile : Nat) : Core :=
  let c := c0.freeBytes r.reach
  let x := c.drawWord
  let c1 := if r.kind = 4 then c.faultTask ref .faulted 3 e tile else x.2.faultTask ref .faulted 3 e (x.1.toNat % 2 ^ 32)
  (c1.unbind e ref).settle ref.ctx ref.tag

/-- The return of a task's record. -/
def Core.taskReturn (c : Core) (e : Nat) (r : PortRec) (ref : TaskRef) (tile : Nat) (code : EngCode) : Core :=
  let c1 := (c.countAssign ref.ctx).modTask ref fun t => { t with backAt := aset t.backAt e (c.now / 2) }
  match code with
  | .fault _ => c1.engineFault e r ref tile
  | .yielded => c1.tileYielded e tile ref
  | _ => if r.kind = 4 then c1.tileDone e r ref else c1.checkDone ref

/-- The return of a SAVE (R349): its port is saved, or the clip fails with reason 0x05. -/
def Core.saveReturn (c : Core) (e : Nat) (fault : Bool) : Core :=
  match c.clip.run with
  | none => c
  | some q =>
    if q.phase ≠ .save then c
    else if fault then c.clipConfirm q 5
    else { c with clip := { c.clip with run := some { q with ports := q.ports.filter fun x => x.1 != e } } }

/-- The return of a LOAD (R357): its port is loaded, or RESTORE fails with reason 0x08. -/
def Core.loadReturn (c : Core) (e : Nat) (fault : Bool) : Core :=
  match c.clip.restore with
  | none => c
  | some q =>
    if fault then c.restoreFail q 8
    else { c with clip := { c.clip with restore := some { q with ports := q.ports.filter fun x => x.1 != e } } }

/-- The return of a wire-test record (R387): an error for a wrong tag, for a code other than DONE, and for a time other than
S_e; the next port takes its turn. -/
def Core.wireReturn (c : Core) (e : Nat) (r : PortRec) (tagOk : Bool) (code : EngCode) : Core :=
  let due := r.at_ + 2 + 2 * Config.engS e
  let bad := [!tagOk, code != .done, c.now / 2 * 2 != due]
  ((bad.filter id).foldl (fun d _ => d.wireError (e / 64)) c).wireNext (e / 64) e

/-! A completion on a port -/

/-- The memory that an engine's stores have reached is noted for its run (R338). -/
def Core.noteStores (c : Core) (r : PortRec) (cells : List Host.Cell) : Core :=
  match r.use with
  | .task ref _ => c.noteWrite ref.ctx ref.tag ((cells.map Prod.fst).filter fun a => decide (a < memTop))
  | _ => c

/-- When the stub returns a record (R386), in RCLK: 4 ECLK, or stub_eclk for a TILE, after the second beat. -/
def Core.stubDue (c : Core) (r : PortRec) : Nat := r.at_ + 2 + 2 * (if r.kind = 4 then fld c.tl.stub 0 16 else 4)

/-- A return with its tag and code judged: a wrong tag, or a code that the record cannot return, is a port-protocol fault and
counts as FAULT (R175). -/
def Core.portReturn (c : Core) (e tag : Nat) (r : PortRec) (code : EngCode) : Core :=
  let p := c.port e
  let own := r.bits.toNat % 2 ^ 16
  let tagOk := tag == own
  let fits := c.canReturn p r code
  let c1 := if !tagOk then c.logPort 3 e tag own else if !fits then c.logPort 5 e tag code.num else c
  let code' := if tagOk && fits then code else .fault 2
  let c2 := c1.setPort e { p with out := none, doneAt := some (c.now / 2 * 2), yield := none }
  let faulty := match code' with | .fault _ => true | _ => false
  match r.use with
  | .task ref tile => c2.taskReturn e r ref tile code'
  | .save => c2.saveReturn e faulty
  | .load => c2.loadReturn e faulty
  | .wire => c2.wireReturn e r tagOk code

/-- A completion on a port (R37): with no issue outstanding it is ignored and logged; a stub returns what R386 gives, when it
is due, and touches no memory. -/
def Core.completion (c : Core) (e tag : Nat) (code : EngCode) (cells : List Host.Cell) : Core :=
  if c.cfg.enginePorts ≤ e then c
  else
    match (c.port e).out with
    | none => (c.store cells).logPort 2 e tag code.num
    | some r =>
      if c.engLoop e = 1 then
        if tag = r.bits.toNat % 2 ^ 16 ∧ code = (if r.use = .save then .saved else .done) ∧ c.stubDue r < c.now + 2 then
          c.portReturn e tag r code
        else c
      else ((c.store cells).noteStores r cells).portReturn e tag r code

/-- DONE (R37). -/
def execEngDone (e tag : Nat) (stores : List Host.Cell) (s : State) : Host.Outcome State Fault Refusal :=
  onRun s fun _ c => c.completion e tag .done stores

/-- YIELDED (R180). -/
def execEngYielded (e tag : Nat) (stores : List Host.Cell) (s : State) : Host.Outcome State Fault Refusal :=
  onRun s fun _ c => c.completion e tag .yielded stores

/-- FAULT, or a reserved code that is treated as FAULT (R147, Table 01-8). -/
def execEngFault (e tag code : Nat) (stores : List Host.Cell) (s : State) : Host.Outcome State Fault Refusal :=
  if code = 2 ∨ (4 ≤ code ∧ code < 8) then onRun s fun _ c => c.completion e tag (.fault code) stores else .next s

/-- SAVED (R349). -/
def execEngSaved (e tag : Nat) (stores : List Host.Cell) (s : State) : Host.Outcome State Fault Refusal :=
  onRun s fun _ c => c.completion e tag .saved stores

end Sys2Proof.Machine
end

