-- ==== Sys2Proof/Machine/Stash.lean ====
section
/-! DEFINITION. Freeing entries of the undeliverable stash (13 R333 to R335, R340). -/

namespace Sys2Proof.Machine

/-- The producer of an item that has entered goes on (R333): a completion to its edges, a channel to its next record, a
reply or a mirror word as if written. -/
def Core.stashRelease (c : Core) : StashWaiter → Core
  | .task t =>
    match c.compOf t with
    | some k => if k.stage = .stash then c.toEdges k else c
    | none => c
  | .chan n =>
    match (c.chan n).rx with
    | some r =>
      match r.recs with
      | x :: _ => if x.stage == .handler && x.msg.kind == 2 then c.rxNext n else c
      | [] => c
    | none => c
  | .port _ => c
  | .queue q =>
    match (c.queue q).writing with
    | some r => (c.replyDone q r).releaseCloses
    | none => c
  | .mirror q irq => (c.mirrorDone q irq).releaseCloses

/-- Waiting items enter in their order while there is room (R335). -/
def Core.stashAdmit : Nat → Core → Core
  | 0, c => c
  | n + 1, c =>
    match c.stash.waiting with
    | [] => c
    | x :: rest =>
      if c.stashHeld < 64 then
        let c1 := { c with stash := { c.stash with waiting := rest } }
        Core.stashAdmit n ((c1.stashEnter x.1).stashRelease x.2)
      else c

/-- A write of rd of SZ_STASH_PTRS (R340). -/
def Core.stashPtrsWrite (c : Core) (v : W64) : Option Core :=
  let new := fld v 0 32
  if diff32 new c.stash.rd ≤ diff32 c.stash.wr c.stash.rd then
    some (Core.stashAdmit (c.stash.waiting.length + 64) { c with stash := { c.stash with rd := new } })
  else none

/-- STASH_PTRS (R334). -/
def execStashPtrs (v : W64) (acc : Access) (s : State) : Host.Outcome State Fault Refusal :=
  onWrite s 0x2400020 v acc fun _ c => c.stashPtrsWrite v

end Sys2Proof.Machine
end

