-- ==== Sys2Proof/Machine/Registers.lean ====
section
/-! DEFINITION. A write to any register of the window (17 R396 to R400, 00 R20 to R22): the field rules of the registers that
have no row of their own, and for the others the rule of their row. -/

namespace Sys2Proof.Machine

/-! Registers with a single place -/

/-- Registers of the first three regions (Tables 17-2, 02-1 to 02-10, 15-13, 11-4). -/
def Core.writeLow (c : Core) (off : Nat) (v : W64) : Option Core :=
  if off = 0x48 then
    some { c with gc := { c.gc with status := writeFields (fields [(3, 3)]) (c.clearable off (fields [(2, 2)])) c.gc.status v } }
  else if off = 0x10000 then
    some { c with clk := { c.clk with status := writeFields 0 (c.clearable off (fields [(2, 1)])) c.clk.status v } }
  else if off = 0x10010 then
    some { c with clk := { c.clk with ctrl := writeFields (fields [(31, 16), (2, 1)]) 0 c.clk.ctrl v } }
  else if off = 0x10030 then c.rampWrite v
  else if off = 0x10038 then
    some { c with pwr := { c.pwr with status := writeFields (fields [(1, 0)]) (c.clearable off (fields [(4, 3)])) c.pwr.status v } }
  else if off = 0x20020 then
    some { c with hedge := { c.hedge with evt := writeFields (fields [(13, 8)]) (c.clearable off (fields [(5, 0)])) c.hedge.evt v } }
  else some c

/-- Registers of the context tables region that stand alone (Tables 04-9, 05-20, 06-12, 11-7, 14-7, 14-8). -/
def Core.writeTables (c : Core) (off : Nat) (v : W64) : Option Core :=
  if off = 0x240000 then
    if fld v 0 8 = 0 then none else some { c with fe := { c.fe with ctrl := v &&& fields [(7, 0)] } }
  else if off = 0x240008 then
    if fld v 0 16 = 0 then none else some { c with graph := { c.graph with poll := v &&& fields [(15, 0)] } }
  else if off = 0x240018 then c.flowDlyWrite .dlyCtrl v
  else if off = 0x240030 then c.slackWrite v
  else if off = 0x240038 then c.clipCtrlWrite v
  else if off = 0x240040 then
    some { c with clip := { c.clip with status := writeFields (fields [(4, 4)]) (c.clearable off (fields [(3, 1)])) c.clip.status v } }
  else some c

/-- An operation of the manual-access window by its code (Table 08-9). -/
def Core.manualAny (c : Core) (code : Nat) : Option Core :=
  c.manualOp code (if code = 0 then none else if code = 1 then some .set else if code = 2 then some .add else some .signal)

/-- Registers of the manual-access window (Tables 08-4 to 08-9). -/
def Core.writeManual (c : Core) (off : Nat) (v : W64) : Option Core :=
  let w := c.sync.win
  if off = 0x800008 then c.grantWrite v
  else if off = 0x800010 then
    some (c.setWin (writeFields (fields [(6, 6)]) (c.clearable off (fields [(1, 1)])) w.status v) w.data)
  else if off = 0x800018 then
    some { c with sync := { c.sync with win := { w with target := v &&& fields [(31, 8), (5, 0)] } } }
  else if off = 0x800020 then some (c.setWin w.status v)
  else if off = 0x800028 then c.manualAny (fld v 0 2)
  else some c

/-- Registers of the Test and the Event log regions (Tables 16-4, 13-10). -/
def Core.writeLog (c : Core) (off : Nat) (v : W64) (acc : Access) : Option Core :=
  if off = 0x2000010 then c.testWrite .tlReel v
  else if off = 0x2000028 then c.testWrite .stubCtrl v
  else if 0x2000100 ≤ off ∧ off < 0x2000200 then
    some { c with tl := { c.tl with echo := aset c.tl.echo ((off - 0x2000100) / 8) v } }
  else if 0x2000400 ≤ off ∧ off < 0x2000500 then
    if (off - 0x2000400) % 32 = 0 then c.testWrite (.tlLink ((off - 0x2000400) / 32)) v else some c
  else if off = 0x2400000 then c.evtPtrsWrite v
  else if off = 0x2400008 then
    some { c with watch := { c.watch with fault := writeFields (fields [(10, 8)]) (c.clearable off (fields [(2, 0)])) c.watch.fault v } }
  else if off = 0x2400010 then
    some { c with watch := { c.watch with stall := writeFields 0 (c.clearable off (fields [(63, 0)])) c.watch.stall v } }
  else if off = 0x2400018 then some (c.watchWrite off v acc)
  else if off = 0x2400020 then c.stashPtrsWrite v
  else if off = 0x2400028 then
    some { c with stash := { c.stash with status := writeFields (fields [(3, 2)]) (c.clearable off (fields [(1, 0)])) c.stash.status v } }
  else some c

/-! Replicated registers -/

/-- A register of queue page n (Tables 04-2 to 04-5). -/
def Core.writeQueue (c : Core) (n off : Nat) (v : W64) : Option Core :=
  let q := c.queue n
  if off = 0 then some (c.doorbell n v)
  else if off = 0x10 then c.rplFreeWrite n v
  else if off = 0x18 then
    some (c.setQueue n { q with status := writeFields (fields [(6, 4)]) (c.clearable (0x100000 + 0x1000 * n + 0x18) (fields [(2, 0)])) q.status v })
  else some c

/-- A register of context block n (Table 17-3). -/
def Core.writeCtx (c : Core) (n off : Nat) (v : W64) : Option Core :=
  let x := c.ctx n
  if off = 0 then c.ringWrite n .ring v
  else if off = 8 then c.ringWrite n .reply v
  else if off = 0x10 then c.ringWrite n .mirror v
  else if off = 0x18 then c.rangeWrite n .peer v
  else if off = 0x20 then c.rangeWrite n .sigrange v
  else if off = 0x28 then c.flowDlyWrite (.flowrange n) v
  else if off = 0x38 then
    some (c.setCtx n { x with det := writeFields (fields [(3, 3)]) (c.clearable (0x200000 + 0x1000 * n + 0x38) (fields [(2, 1)])) x.det v })
  else if 0x100 ≤ off then c.cutWrite n ((off - 0x100) / 8) v
  else some c

/-- A register of channel n (Table 09-16). -/
def Core.writeChan (c : Core) (n off : Nat) (v : W64) : Option Core :=
  let h := c.chan n
  if off = 0x38 then some (c.setChan n { h with evt := writeFields 0 (c.clearable (0x1000000 + 64 * n + 0x38) (fields [(4, 0)])) h.evt v }) else some c

/-- A register of an expert table page (Table 07-13). -/
def Core.writeMoe (c : Core) (t off : Nat) (v : W64) : Option Core :=
  let m := c.table t
  if off = 8 then some (c.setTable t { m with evt := writeFields 0 (c.clearable (0x1800000 + 0x1000 * t + 0x8) (fields [(6, 0)])) m.evt v }) else some c

/-- A register of a Ply page (Tables 10-9, 10-12). -/
def Core.writePly (c : Core) (n off : Nat) (v : W64) : Option Core :=
  let g := c.plyPage n
  if off < 0x1000 then c.plySlotWrite n (off / 64) (off % 64 / 8) v
  else if off = 0x1000 then some (c.setPlyPage n { g with flags := writeFields 0 (c.clearable (0x1C00000 + 0x10000 * n + 0x1000) (fields [(6, 0)])) g.flags v })
  else some c

/-- What a write to a register does; none where its rule ignores the write. -/
def Core.writeReg (c : Core) (off : Nat) (v : W64) (acc : Access) : Option Core :=
  if off < 0x100000 then c.writeLow off v
  else if off < 0x200000 then c.writeQueue ((off - 0x100000) / 0x1000) (off % 0x1000) v
  else if off < 0x240000 then c.writeCtx ((off - 0x200000) / 0x1000) (off % 0x1000) v
  else if off < 0x400000 then c.writeTables off v
  else if off < 0x800000 then some (c.sigWrite ((off - 0x400000) / 8) v)
  else if off < 0x1000000 then c.writeManual off v
  else if off < 0x1400000 then c.writeChan ((off - 0x1000000) / 64) (off % 64) v
  else if off < 0x1800000 then
    if off = 0x1400010 then
      some { c with fab := { c.fab with evt := writeFields (fields [(22, 16)]) (c.clearable off (fields [(6, 0)])) c.fab.evt v } }
    else if 0x1400100 ≤ off ∧ (off - 0x1400100) % 0x40 = 0x28 then c.lkCtrlWrite ((off - 0x1400100) / 0x40) v
    else some c
  else if off < 0x1C00000 then c.writeMoe ((off - 0x1800000) / 0x1000) (off % 0x1000) v
  else if off < 0x2000000 then c.writePly ((off - 0x1C00000) / 0x10000) (off % 0x10000) v
  else c.writeLog off v acc

/-- REGISTER_WRITE (R20, R399). -/
def execRegisterWrite (off : Nat) (v : W64) (acc : Access) (s : State) : Host.Outcome State Fault Refusal :=
  if off < 0x4000000 then onWrite s off v acc fun _ c => c.writeReg off v acc else .next s

end Sys2Proof.Machine
end

