-- ==== Sys2Proof/Machine/ReelRsp.lean ====
section
/-! DEFINITION. Responses of the Reel port (01 R33, R34, R409; Table 01-6): what each leaves in memory, what the request it
answers served, and what is read again after a write (R139, R236). -/

namespace Sys2Proof.Machine

/-! What memory holds afterwards -/

/-- The response codes: 0b11 is treated as POISON (Table 01-6). -/
def rspCode (status : Nat) : Nat := if status = 3 then 2 else status

/-- The addresses that the mask of a write covers: all its bytes, but for a test line its PRBS mask (R385). -/
def ReelReq.covers (r : ReelReq) : List Nat :=
  match r.serves with
  | .testWrite n _ i => ((List.range r.data.length).filter fun k => (testMask n i).getLsbD k).map (r.addr + ·)
  | _ => (List.range r.data.length).map (r.addr + ·)

/-- What a line answers from now on: OK, DECODE_ERR or POISON. -/
def Core.markLine (c : Core) (line code : Nat) : Core :=
  let rest := c.badLines.filter fun l => l.1 != line
  { c with badLines := if code = 0 then rest else (line, code) :: rest }

/-- An acknowledged write in memory (R33, R409): the new bytes; or bytes of any content, which a later read may find
poisoned; or nothing. -/
def Core.ackMemory (c : Core) (r : ReelReq) (code : Nat) : Core :=
  if code = 0 then
    { c.markLine (r.addr / 64) 0 with
      mem := memPutCells c.mem (r.covers.map fun a => (a, r.data.getD (a - r.addr) 0)) }
  else if code = 1 then c.markLine (r.addr / 64) 1
  else
    let d := (c.freeBytes r.covers).drawBool
    if d.1 then d.2.markLine (r.addr / 64) 2 else d.2

/-- The effect of a response on memory: a peer write leaves none (R31). -/
def Core.rspMemory (c : Core) (r : ReelReq) (code : Nat) : Core :=
  if r.tier = 2 then c else if r.write then c.ackMemory r code else c.markLine (r.addr / 64) code

/-! Read again (R139, R236) -/

/-- Whether a request wrote to the 8-byte word at an address. -/
def ReelReq.touches (r : ReelReq) (a : Nat) : Bool :=
  r.write && r.tier != 2 && decide (r.addr < a + 8) && decide (a < r.addr + r.data.length)

/-- Polled words and consumed words that an acknowledged write of Serzo touches are read at once. -/
def Core.rereads (c : Core) (r : ReelReq) : Core :=
  let c1 := (c.graph.watches.filter fun w => r.touches w.addr).foldl Core.pollWatch c
  (c1.chansWhere fun h => match h.rx with | some x => r.touches x.consAt | none => false).foldl
    (fun d n => match (d.chan n).rx with | some x => d.readConsumed n x | none => d) c1

/-! What a response does for what it serves -/

/-- The target field of an entry of source 0x1, 0x2 or 0x8 (Table 13-7). -/
def ReelReq.target (r : ReelReq) : W64 := w64 (r.tier * 2 ^ 48 + r.addr / 8 * 8)

/-- A reply is written, or goes to the stash (R111, R333). -/
def Core.replyAck (c : Core) (n : Nat) (p : Reply) (code : Nat) (target : W64) : Core :=
  if code = 0 then (c.replyDone n p).releaseCloses
  else
    let x := c.stashPut { tag := p.tag, status := .faulted, reason := code, source := 8, ctx := n, target := target,
                          value := p.word0 } (.queue n)
    if x.2 then (x.1.replyDone n p).releaseCloses else x.1

/-- A mirror word is written, or goes to the stash (R111, R333). -/
def Core.mirrorAck (c : Core) (n : Nat) (irq : Bool) (word : W64) (tag code : Nat) (target : W64) : Core :=
  if code = 0 then (c.mirrorDone n irq).releaseCloses
  else
    let x := c.stashPut { tag := tag, status := .faulted, reason := code, source := 8, ctx := n, target := target,
                          value := word } (.mirror n irq)
    if x.2 then (x.1.mirrorDone n irq).releaseCloses else x.1

/-- A MEM_WRITE or PEER_WRITE action is acknowledged, or goes to the stash (R143, R333). -/
def Core.actionAck (c : Core) (t : TaskRef) (source code : Nat) (target value : W64) (addrs : List Nat) : Core :=
  let c1 := if code ≠ 1 ∧ source = 1 then c.noteWrite t.ctx t.tag addrs else c
  match c1.compOf t with
  | none => c1
  | some k => if code = 0 then c1.toEdges k else c1.stashAction k source .faulted code target value

/-- A polled word has been read (R139): the condition is looked at, or the task faults. -/
def Core.polledRead (c : Core) (t : TaskRef) (code : Nat) : Core :=
  match c.graph.watches.find? fun w => w.task == t with
  | none => c
  | some w =>
    if code ≠ 0 then c.faultPlain t .faulted code
    else
      match c.findRun t.ctx t.tag with
      | none => c
      | some r =>
        match c.skein r.ctx r.skein with
        | none => c
        | some k =>
          if waitMet (k.waitRec t.node) (memWord c.mem w.addr) then
            let c1 := c.modTask t fun x => { x with satisfied := true }
            ({ c1 with graph := { c1.graph with watches := c1.graph.watches.filter fun y => y.task != t } }).promote t
          else c

/-- A write of a step of an expert table (R190, Table 07-5). -/
def Core.stepAck (c : Core) (n code : Nat) (addrs : List Nat) : Core :=
  let c1 := match (c.table n).work with
    | some w => if code = 1 then c else c.noteWrite w.task.ctx w.task.tag addrs
    | none => c
  if code ≠ 0 ∧ (c1.table n).st = .decide then c1.stepFails n code else c1

/-- A write of a collective (R266, Table 10-7). -/
def Core.collAck (c : Core) (n k code : Nat) (addrs : List Nat) : Core :=
  let c1 := match (c.collRun n k).work with
    | some w => if code = 1 then c else c.noteWrite w.task.ctx w.task.tag addrs
    | none => c
  if code = 0 then c1.collStatus n k
  else if (c1.collRun n k).st = .write then c1.collFails n k .faulted code
  else c1

/-- A test line that faulted (R385): a mismatch, and a PORT record of which the spec gives neither the reason nor the other
fields (notes/assumptions/4). -/
def Core.testFault (c : Core) (n : Nat) (read : Bool) : Core :=
  let a := c.drawWord
  let b := a.2.drawWord
  let d := b.2.drawWord
  ((d.2.logPort (a.1.toNat % 256) (a.1.toNat / 256 % 1024) b.1.toNat d.1.toNat).testLineDone n false read).testSend n

/-- A write of a test line is acknowledged: the line is read back, unless its loop-back has ended (R382, R385). -/
def Core.testWriteAck (c : Core) (n a i code : Nat) : Core :=
  if agetD c.tl.reelDepth n 0 = 2 ∧ i + 1 = agetD c.tl.reelPos n 0 then
    if code = 0 then c.reelIssue false (fld c.tl.reel 48 2) a [] (.testRead n a i) else c.testFault n false
  else c

/-- A test line has been read back: every byte under its mask is compared (R385). -/
def Core.testReadBack (c : Core) (n a i code : Nat) : Core :=
  if agetD c.tl.reelDepth n 0 = 2 ∧ i + 1 = agetD c.tl.reelPos n 0 then
    if code ≠ 0 then c.testFault n true
    else
      let want := testData n i
      let good := (List.range 64).all fun k => !(testMask n i).getLsbD k || memGet c.mem (a + k) == want.getD k 0
      (c.testLineDone n good true).testSend n
  else c

/-- What a response does for what its request served (Table 01-6). A write of a receive ring serves no task and no command:
its acknowledgement counts with any status. -/
def Core.rspServe (c : Core) (r : ReelReq) (code : Nat) : Core :=
  match r.serves with
  | .ringRead n k => c.ringIn n k code (memWords c.mem r.addr 8)
  | .reply n p => c.replyAck n p code r.target
  | .mirror n irq word tag => c.mirrorAck n irq word tag code r.target
  | .memWrite t target v => c.actionAck t 1 code target v r.covers
  | .peerWrite t target v => c.actionAck t 2 code target v []
  | .polled t => c.polledRead t code
  | .stepWrite n => c.stepAck n code r.covers
  | .collWrite n k => c.collAck n k code r.covers
  | .chanPayload n => c.rxHeader n
  | .chanHeader n => c.rxWritten n
  | .consumed n =>
    match (c.chan n).rx with
    | none => c
    | some x => if code = 0 then c.consumedIn n (memWord c.mem x.consAt) else c.consumedBad n x
  | .testWrite n a i => c.testWriteAck n a i code
  | .testRead n a i => c.testReadBack n a i code

/-! REEL_RESPONSE -/

/-- The outstanding request that a response answers: its channel, its tag and its kind. -/
def Core.reelOwner (c : Core) (chan tag : Nat) (write : Bool) : Option ReelReq :=
  c.reel.out.find? fun r => r.chan == chan && r.tag == tag && r.write == write

/-- A response to an outstanding request. -/
def Core.reelAnswer (c : Core) (r : ReelReq) (status : Nat) : Core :=
  let code := rspCode status
  let c1 := { c with reel := { c.reel with out := removeFirst (fun o => o.chan == r.chan && o.tag == r.tag) c.reel.out } }
  (((c1.rspMemory r code).rspServe r code).rereads r).reelPump

/-- REEL_RESPONSE (R34): what outside agents stored before it is visible, and what answers DECODE_ERR or POISON from now on; then the
response is taken, discarded during a drain (R58), or discarded with a PORT record. -/
def execReelResponse (chan tag : Nat) (write : Bool) (status : Nat) (stores : List Host.Cell) (s : State)
    (bad : List (Nat × Nat) := []) :
    Host.Outcome State Fault Refusal :=
  if s.sys.porst || !(Instr.reelResponse chan tag write status stores bad).wf then .next s
  else
    let c := bad.foldl (fun d l => d.markLine l.1 l.2) (s.core.store stores)
    match c.reelOwner chan tag write with
    | some r => s.put (c.reelAnswer r status)
    | none =>
      if s.sys.drainOwed.contains (chan, tag) then
        .next { s with core := c, sys := { s.sys with drainOwed := removeFirst (fun p => p == (chan, tag)) s.sys.drainOwed } }
      else if s.sys.drainLate.contains (chan, tag) then
        .next { s with core := c.logPort 4 chan tag status,
                       sys := { s.sys with drainLate := removeFirst (fun p => p == (chan, tag)) s.sys.drainLate } }
      else s.put (c.logPort 1 chan tag status)

end Sys2Proof.Machine
end

