-- ==== Sys2Proof/Machine/Dispatch.lean ====
section
/-! DEFINITION. One arm for each command: a direct call of its meaning. -/

namespace Sys2Proof.Machine

/-- The effect of a command on everything but the queue. -/
def exec (i : Instr) (s : State) : Host.Outcome State Fault Refusal :=
  match i with
  | .ctxOpen => Sys2Proof.Machine.execCtxOpen s
  | .ctxClose => Sys2Proof.Machine.execCtxClose s
  | .handleFlush => Sys2Proof.Machine.execHandleFlush s
  | .nop => Sys2Proof.Machine.execNop s
  | .skeinLoad => Sys2Proof.Machine.execSkeinLoad s
  | .skeinUnload => Sys2Proof.Machine.execSkeinUnload s
  | .skeinPatch => Sys2Proof.Machine.execSkeinPatch s
  | .launch => Sys2Proof.Machine.execLaunch s
  | .launchAt => Sys2Proof.Machine.execLaunchAt s
  | .replay => Sys2Proof.Machine.execReplay s
  | .cancel => Sys2Proof.Machine.execCancel s
  | .stopAt => Sys2Proof.Machine.execStopAt s
  | .resume => Sys2Proof.Machine.execResume s
  | .syncSet => Sys2Proof.Machine.execSyncSet s
  | .syncWait => Sys2Proof.Machine.execSyncWait s
  | .syncAlloc => Sys2Proof.Machine.execSyncAlloc s
  | .syncFree => Sys2Proof.Machine.execSyncFree s
  | .chanOpen => Sys2Proof.Machine.execChanOpen s
  | .chanClose => Sys2Proof.Machine.execChanClose s
  | .chanReset => Sys2Proof.Machine.execChanReset s
  | .moeTableLoad => Sys2Proof.Machine.execMoeTableLoad s
  | .moeTableUnload => Sys2Proof.Machine.execMoeTableUnload s
  | .moeStats => Sys2Proof.Machine.execMoeStats s
  | .fabricPlanLoad => Sys2Proof.Machine.execFabricPlanLoad s
  | .routeLoad => Sys2Proof.Machine.execRouteLoad s
  | .spareMap => Sys2Proof.Machine.execSpareMap s
  | .linkAccept => Sys2Proof.Machine.execLinkAccept s
  | .clipAt => Sys2Proof.Machine.execClipAt s
  | .clipAbort => Sys2Proof.Machine.execClipAbort s
  | .restore => Sys2Proof.Machine.execRestore s
  | .loopbackSet => Sys2Proof.Machine.execLoopbackSet s
  | .selftest => Sys2Proof.Machine.execSelftest s
  | .fwLoad => Sys2Proof.Machine.execFwLoad s
  | .debugUnlock => Sys2Proof.Machine.execDebugUnlock s
  | .query => Sys2Proof.Machine.execQuery s
  | .deviceReset => Sys2Proof.Machine.execDeviceReset s
  | .deviceResetEntry => Sys2Proof.Machine.execDeviceResetEntry s
  | .doorbell queue value acc stores => Sys2Proof.Machine.execDoorbell queue value acc stores s
  | .fetcherGrant => Sys2Proof.Machine.execFetcherGrant s
  | .fetchAttempt => Sys2Proof.Machine.execFetchAttempt s
  | .fetchSliceEnd => Sys2Proof.Machine.execFetchSliceEnd s
  | .checkEnd queue => Sys2Proof.Machine.execCheckEnd queue s
  | .frontEndChecks queue => Sys2Proof.Machine.execFrontEndChecks queue s
  | .haltReply queue => Sys2Proof.Machine.execHaltReply queue s
  | .replyWrite queue => Sys2Proof.Machine.execReplyWrite queue s
  | .rplFree queue value acc => Sys2Proof.Machine.execRplFree queue value acc s
  | .ringConfiguration queue which value acc => Sys2Proof.Machine.execRingConfiguration queue which value acc s
  | .instanceStart ctx tag => Sys2Proof.Machine.execInstanceStart ctx tag s
  | .delayListRelease list => Sys2Proof.Machine.execDelayListRelease list s
  | .spindleSelection spindle => Sys2Proof.Machine.execSpindleSelection spindle s
  | .recordPresentation port => Sys2Proof.Machine.execRecordPresentation port s
  | .rampWindow => Sys2Proof.Machine.execRampWindow s
  | .rampGrant => Sys2Proof.Machine.execRampGrant s
  | .yieldRequest port => Sys2Proof.Machine.execYieldRequest port s
  | .sliceEnd spindle => Sys2Proof.Machine.execSliceEnd spindle s
  | .engDone port tag stores => Sys2Proof.Machine.execEngDone port tag stores s
  | .engYielded port tag stores => Sys2Proof.Machine.execEngYielded port tag stores s
  | .engFault port tag code stores => Sys2Proof.Machine.execEngFault port tag code stores s
  | .engSaved port tag stores => Sys2Proof.Machine.execEngSaved port tag stores s
  | .taskCompletion => Sys2Proof.Machine.execTaskCompletion s
  | .deviceSideEnqueue => Sys2Proof.Machine.execDeviceSideEnqueue s
  | .completionEdges => Sys2Proof.Machine.execCompletionEdges s
  | .signalWordWrite index value acc => Sys2Proof.Machine.execSignalWordWrite index value acc s
  | .polledWaitRead ctx skein node => Sys2Proof.Machine.execPolledWaitRead ctx skein node s
  | .syncObjectEvaluation => Sys2Proof.Machine.execSyncObjectEvaluation s
  | .pageRefill ctx skein page => Sys2Proof.Machine.execPageRefill ctx skein page s
  | .deadline ctx tag node port => Sys2Proof.Machine.execDeadline ctx tag node port s
  | .stopCount ctx => Sys2Proof.Machine.execStopCount ctx s
  | .reelResponse chan tag write status stores bad => Sys2Proof.Machine.execReelResponse chan tag write status stores s bad
  | .stepExchange table => Sys2Proof.Machine.execStepExchange table s
  | .stepDecide table => Sys2Proof.Machine.execStepDecide table s
  | .stepCommit table => Sys2Proof.Machine.execStepCommit table s
  | .stepRouted table => Sys2Proof.Machine.execStepRouted table s
  | .collectiveStart ctx slot => Sys2Proof.Machine.execCollectiveStart ctx slot s
  | .collectiveExchange ctx slot => Sys2Proof.Machine.execCollectiveExchange ctx slot s
  | .collectiveWrite ctx slot => Sys2Proof.Machine.execCollectiveWrite ctx slot s
  | .collectiveDone ctx slot => Sys2Proof.Machine.execCollectiveDone ctx slot s
  | .plyFrame arrival => Sys2Proof.Machine.execPlyFrame arrival s
  | .messageSend chan => Sys2Proof.Machine.execMessageSend chan s
  | .sendSlotRead chan => Sys2Proof.Machine.execSendSlotRead chan s
  | .channelRecord arrival => Sys2Proof.Machine.execChannelRecord arrival s
  | .recordDelivered chan => Sys2Proof.Machine.execRecordDelivered chan s
  | .signalApply chan => Sys2Proof.Machine.execSignalApply chan s
  | .handlerCreate chan => Sys2Proof.Machine.execHandlerCreate chan s
  | .openNotice arrival => Sys2Proof.Machine.execOpenNotice arrival s
  | .closeNotice arrival => Sys2Proof.Machine.execCloseNotice arrival s
  | .creditNotice arrival => Sys2Proof.Machine.execCreditNotice arrival s
  | .sendRefusal arrival => Sys2Proof.Machine.execSendRefusal arrival s
  | .consumedWordRead chan => Sys2Proof.Machine.execConsumedWordRead chan s
  | .sigaddFrame arrival => Sys2Proof.Machine.execSigaddFrame arrival s
  | .szSmGrant value acc => Sys2Proof.Machine.execSzSmGrant value acc s
  | .grantVerified => Sys2Proof.Machine.execGrantVerified s
  | .manualRead acc => Sys2Proof.Machine.execManualRead acc s
  | .manualSet acc => Sys2Proof.Machine.execManualSet acc s
  | .manualAdd acc => Sys2Proof.Machine.execManualAdd acc s
  | .manualSignal acc => Sys2Proof.Machine.execManualSignal acc s
  | .linkLockLoss link => Sys2Proof.Machine.execLinkLockLoss link s
  | .phyUpLocked link => Sys2Proof.Machine.execPhyUpLocked link s
  | .phyUpTimeout link => Sys2Proof.Machine.execPhyUpTimeout link s
  | .codewordLock link skew => Sys2Proof.Machine.execCodewordLock link skew s
  | .alignTimeout link => Sys2Proof.Machine.execAlignTimeout link s
  | .identTimeout link => Sys2Proof.Machine.execIdentTimeout link s
  | .measureTimeout link => Sys2Proof.Machine.execMeasureTimeout link s
  | .failedRetry link => Sys2Proof.Machine.execFailedRetry link s
  | .beaconFrame link frame => Sys2Proof.Machine.execBeaconFrame link frame s
  | .beaconSend => Sys2Proof.Machine.execBeaconSend s
  | .probeFrame link frame => Sys2Proof.Machine.execProbeFrame link frame s
  | .latencyMeasured link => Sys2Proof.Machine.execLatencyMeasured link s
  | .ackFrame link frame => Sys2Proof.Machine.execAckFrame link frame s
  | .ackTimer link => Sys2Proof.Machine.execAckTimer link s
  | .unacknowledgedTimeout link => Sys2Proof.Machine.execUnacknowledgedTimeout link s
  | .psyncFrame arrival => Sys2Proof.Machine.execPsyncFrame arrival s
  | .psyncTimeout link => Sys2Proof.Machine.execPsyncTimeout link s
  | .retrain link value acc => Sys2Proof.Machine.execRetrain link value acc s
  | .oos link value acc => Sys2Proof.Machine.execOos link value acc s
  | .holdover => Sys2Proof.Machine.execHoldover s
  | .referenceCandidate => Sys2Proof.Machine.execReferenceCandidate s
  | .clipFrame arrival => Sys2Proof.Machine.execClipFrame arrival s
  | .clipCount => Sys2Proof.Machine.execClipCount s
  | .roundAResult => Sys2Proof.Machine.execRoundAResult s
  | .instanceCut ctx tag => Sys2Proof.Machine.execInstanceCut ctx tag s
  | .roundBStart => Sys2Proof.Machine.execRoundBStart s
  | .roundBResult => Sys2Proof.Machine.execRoundBResult s
  | .clipSaveDone => Sys2Proof.Machine.execClipSaveDone s
  | .roundCResult => Sys2Proof.Machine.execRoundCResult s
  | .continueCount => Sys2Proof.Machine.execContinueCount s
  | .drainLimit => Sys2Proof.Machine.execDrainLimit s
  | .restoreApply => Sys2Proof.Machine.execRestoreApply s
  | .resumeCount => Sys2Proof.Machine.execResumeCount s
  | .powerOnReset => Sys2Proof.Machine.execPowerOnReset s
  | .porstNDeassert => Sys2Proof.Machine.execPorstNDeassert s
  | .sysRstN => Sys2Proof.Machine.execSysRstN s
  | .lockLoss => Sys2Proof.Machine.execLockLoss s
  | .lockRegained => Sys2Proof.Machine.execLockRegained s
  | .clkStart => Sys2Proof.Machine.execClkStart s
  | .drainEnd => Sys2Proof.Machine.execDrainEnd s
  | .keyRead lcsCode slots => Sys2Proof.Machine.execKeyRead lcsCode slots s
  | .memInit => Sys2Proof.Machine.execMemInit s
  | .driftWindow measured => Sys2Proof.Machine.execDriftWindow measured s
  | .refAbsent => Sys2Proof.Machine.execRefAbsent s
  | .powerRequest => Sys2Proof.Machine.execPowerRequest s
  | .powerRequestDue ctx tag => Sys2Proof.Machine.execPowerRequestDue ctx tag s
  | .powerGrant amps => Sys2Proof.Machine.execPowerGrant amps s
  | .throttleRise => Sys2Proof.Machine.execThrottleRise s
  | .throttleFall => Sys2Proof.Machine.execThrottleFall s
  | .hedgeSelftestEnd pass => Sys2Proof.Machine.execHedgeSelftestEnd pass s
  | .healthTestFail => Sys2Proof.Machine.execHealthTestFail s
  | .tsScanMode => Sys2Proof.Machine.execTsScanMode s
  | .watchPeriodEnd => Sys2Proof.Machine.execWatchPeriodEnd s
  | .stashPtrs value acc => Sys2Proof.Machine.execStashPtrs value acc s
  | .evtPtrs value acc => Sys2Proof.Machine.execEvtPtrs value acc s
  | .watchCtrl value acc => Sys2Proof.Machine.execWatchCtrl value acc s
  | .rampCtrl value acc => Sys2Proof.Machine.execRampCtrl value acc s
  | .cxPeerSigrange ctx which value acc => Sys2Proof.Machine.execCxPeerSigrange ctx which value acc s
  | .flowrangeDlyCtrl which value acc => Sys2Proof.Machine.execFlowrangeDlyCtrl which value acc s
  | .slackDefault value acc => Sys2Proof.Machine.execSlackDefault value acc s
  | .clipCtrlCut which value acc => Sys2Proof.Machine.execClipCtrlCut which value acc s
  | .plySlot ctx slot word value acc => Sys2Proof.Machine.execPlySlot ctx slot word value acc s
  | .testLoopbackRegisters which value acc => Sys2Proof.Machine.execTestLoopbackRegisters which value acc s
  | .worstDiffRead offset tag priv => Sys2Proof.Machine.execWorstDiffRead s offset tag priv
  | .registerWrite offset value acc => Sys2Proof.Machine.execRegisterWrite offset value acc s
  | .engineWireTimeout port => Sys2Proof.Machine.execEngineWireTimeout port s
  | .selftestEnd outcome => Sys2Proof.Machine.execSelftestEnd outcome s
  | .engineStart port => Sys2Proof.Machine.execEngineStart port s
  | .uncorrectableCodeword link lost errors => Sys2Proof.Machine.execUncorrectableCodeword link lost s errors
  | .bistInstrument outcome => Sys2Proof.Machine.execBistInstrument outcome s

end Sys2Proof.Machine
end

