-- ==== Sys2Proof/Machine/Tick.lean ====
section
/-! DEFINITION. One RCLK cycle of the block with no command (notes/assumptions/2); at a DCLK edge (R50): what R138 and R245 evaluate at the end of a DCLK,
the time and the count (R273 to R276), and what the next DCLK brings without a row of its own. -/

namespace Sys2Proof.Machine

/-- What belongs to one DCLK alone is gone when it ends: adds to signal words, decrements made, flows freed and their claimants,
link-local frames sent; what a port is at its end decides in the next (R317). -/
def Core.clearDclk (c : Core) : Core :=
  { c with graph := { c.graph with sigAdds := [], edgesUsed := 0 },
           disp := { c.disp with flows := { c.disp.flows with freed := [], claims := [] } },
           fab := { c.fab with ports := c.fab.ports.map fun (p : Nat × Link) => (p.1, { p.2 with ctlOut := [], wasBroken := p.2.broken }) } }

/-- The count stands still in this DCLK (R275, R315); with the last of them the domain's value is reached, and a chip that
acquires it is aligned. The count moves on in the next DCLK. -/
def Core.countHeld (c : Core) : Core :=
  if c.gc.hold = 1 then
    { c with gc := { c.gc with hold := 0, offsets := if c.gc.realign then c.gc.offsets else [], anchors := (c.gc.count + 1, c.now + 3) :: c.gc.anchors,
                               status := if c.gc.realign then c.gc.status else setBit c.gc.status 0 true } }
  else { c with gc := { c.gc with hold := c.gc.hold - 1 } }

/-- Whether a correction may be made now (R275, R276): the averaged offset is beyond ±2, and 4096 DCLK have passed since the
last. -/
def Core.corrects (c : Core) : Bool :=
  c.gc.realign && decide (2 < (roundOffset c.gc.offsets).natAbs)
    && (match c.gc.lastCorr with | none => true | some t => decide (t + 3 * 4096 ≤ c.now))

/-- A correction of exactly 2 (R275): a skip when the domain is ahead, else a hold. The offsets measured before it move with
the count (DESIGN CHOICE, notes/assumptions/31). -/
def Core.correct (c : Core) : Core :=
  let status := satAdd c.gc.status 48 16 1
  if 0 < roundOffset c.gc.offsets then
    { c with gc := { c.gc with count := (c.gc.count + 3) % 2 ^ 64, status := status, lastCorr := some c.now,
                               offsets := c.gc.offsets.map (· - 512),
                               anchors := (c.gc.count + 3, c.now) :: c.gc.anchors } }
  else
    { c with gc := { c.gc with hold := 1, status := status, lastCorr := some c.now,
                               offsets := c.gc.offsets.map (· + 512) } }

/-- The count at a DCLK edge (R273, R275). -/
def Core.countTick (c : Core) : Core :=
  if 0 < c.gc.hold then c.countHeld
  else if c.corrects then c.correct
  else { c with gc := { c.gc with count := (c.gc.count + 1) % 2 ^ 64 } }

/-- What an SCLK edge does (R43, R69), and the lines that a boundary loop-back turned around in the SCLK (R385). -/
def Core.sclkTick (c : Core) : Core :=
  if c.now % 48 = 0 then ((c.sclkEdge).boundaryLines 0).boundaryLines 1 else c

/-- Every run is looked at once more: tasks of a stopping run that nothing holds any longer end (R147). -/
def Core.settleAll (c : Core) : Core := c.graph.runs.foldl (fun d r => d.settle r.ctx r.tag) c

/-- The end of a DCLK (R138, R192, R212, R222, R245, R269). -/
def Core.dclkEnd (c : Core) : Core :=
  ((((c.syncEnd.evalSignals).evalSigWaits).deliverAll.closesEnd.fenceTick.stallsEnd.decideWrites).stepEnter.collCounts.clipRounds.routeFresh).clearDclk

/-- Unreserved pages give way to the records that a launch has reserved (R134, R146). -/
def Core.evictNow (c : Core) : Core := Core.evict c.cfg.storePages c

/-- The beginning of the next DCLK. -/
def Core.dclkBegin (c : Core) : Core :=
  (((c.countTick.sclkTick.evictNow).manualGo.activateAll).settleAll.chooseParent.measureTick).groupRise

/-- The end of an RCLK cycle and the beginning of the next, in RUN: where an ECLK ends, the grant taken in it has its effect (R64,
R69); where a DCLK ends, what the above says. -/
def Core.runTick (c : Core) : Core :=
  let now := c.now + 1
  let c1 := if now % 2 = 0 then c.grantEffect else c
  if now % 3 = 0 then Core.dclkBegin { c1.dclkEnd with now := now } else { c1 with now := now }

/-- One RCLK cycle (R50). Before RUN only time passes, but that from BOOT on register reads are answered (R28), and that an SCLK edge
can bring scan (Table 15-7). -/
def tick (s : State) : State :=
  let c1 := if s.sys.phase = .run then s.core.runTick else { s.core with now := s.core.now + 1 }
  let c2 := if (s.sys.phase = .boot ∨ s.sys.phase = .run) ∧ c1.now % 4 = 0 then c1.answerRead else c1
  State.scanLate { s with core := c2 }

end Sys2Proof.Machine
end

