-- ==== Sys2Proof/Machine/Step.lean ====
section
/-! DEFINITION. One step of the block: the front command of the queue, or one RCLK cycle on an empty queue (notes/assumptions/2). -/

namespace Sys2Proof.Machine

/-- A step takes the command at the front of the queue; on an empty queue one RCLK cycle passes. -/
def step (s : State) : Host.Outcome State Fault Refusal :=
  match s.pending with
  | [] => .next (tick s)
  | i :: rest => exec i { s with pending := rest }

/-- A state with the command that a word spells put at the front of its queue; the table gives no row bits, so no word
spells a command (notes/assumptions/7). -/
def State.withFetchWord (s : State) (nbits w : Nat) : State :=
  match decodeTableWord nbits w with
  | some i => { s with pending := i :: s.pending }
  | none => s

end Sys2Proof.Machine
end

