-- ==== Sys2Proof/Machine/Outputs.lean ====
section
/-! DEFINITION. The outputs of the block that are levels, as functions of the state (Tables 01-2, 01-11, 01-13, 01-15, 01-18, 01-21,
02-6, 12-6); the outputs toward the engines, the interrupts and the Reel port are fields of State or stand in Flags. -/

namespace Sys2Proof.Machine

/-- Whether the block serves the window: BOOT and RUN (Table 02-6). -/
def Sys.serving (s : Sys) : Bool := s.phase == .boot || s.phase == .run

/-- DF_ACTIVE (R27): it rises with BOOT and falls at any reset. -/
def dfActive (s : State) : Bool := s.sys.serving

/-- DF_RSP_VALID, low while DF_ACTIVE is (R27). -/
def dfRspValid (s : State) : Bool := s.sys.serving && s.core.df.rsp.isSome

/-- DF_RSP_TAG, 0 with no response. -/
def dfRspTag (s : State) : Nat := if dfRspValid s then (s.core.df.rsp.map (·.1)).getD 0 else 0

/-- DF_RSP_RDATA, 0 with no response. -/
def dfRspRdata (s : State) : W64 := if dfRspValid s then (s.core.df.rsp.map (·.2)).getD 0 else 0

/-- RST_ACTIVE (R49, Table 02-6): high in every state before RUN, and in RUN up to the SCLK after the one in which ENG_RST_N rose. -/
def rstActive (s : State) : Bool := s.sys.phase != .run || s.core.now / 48 == s.sys.since / 48

/-- ENG_RST_N of port e (Table 02-6, R40). -/
def engRstN (s : State) (e : Nat) : Bool := s.sys.phase == .run && s.core.present e && (s.core.port e).rstN

/-- ENG_EN of port e (Table 02-6, R40). -/
def engEn (s : State) (e : Nat) : Bool := s.sys.phase == .run && s.core.present e && (s.core.port e).en

/-- LKp_PHY_RST_N: the PHYs leave reset with BOOT (Table 02-6). -/
def lkPhyRstN (s : State) : Bool := s.sys.serving

/-- Whether link port p is parked: before RUN every one, in RUN one in PARKED (Tables 02-6 and 12-6). -/
def lkPark (s : State) (p : Nat) : Bool := s.sys.phase != .run || (s.core.link p).st == .parked

/-- LKp_TXLANE_EN of port p: lanes 0 to lanes - 1 unless it is parked (R303). -/
def lkTxLaneEn (s : State) (p : Nat) : Nat := if lkPark s p then 0 else 2 ^ (s.core.link p).lanes - 1

/-- LKp_RATE of port p: the plan's rate unless it is parked (R303); 0 after a reset (Table 01-11). -/
def lkRate (s : State) (p : Nat) : Nat :=
  if s.sys.phase ≠ .run ∨ s.core.fab.plan = none then 0
  else if lkPark s p then Config.parkedRate p s.core.now % 4
  else (s.core.link p).rate

/-- PW_REQ_VALID (R43, R60). -/
def pwReqValid (s : State) : Bool := s.sys.phase == .run && s.core.pwr.reqValid

/-- PW_REQ_AMPS (R43, R68). -/
def pwReqAmps (s : State) : Nat := if s.sys.phase = .run then s.core.pwr.sumSent else 0

/-- The slot that is being read in KEY_READ, if one is (R44): the order and the moments are open. -/
def keyAsked (s : State) : Option Nat :=
  if s.sys.phase = .keyRead then Config.keyTurn s.core.now else none

/-- KY_RD: low but in KEY_READ (Table 02-6). -/
def kyRd (s : State) : Bool := (keyAsked s).isSome

/-- KY_SLOT while KY_RD is high. -/
def kySlot (s : State) : Option Nat := (keyAsked s).map (· % 256)

/-- Whether scan is in force at the chains: entered, and still permitted (R367, Table 15-2). -/
def scanning (s : State) : Bool := s.sys.scanned && s.sys.scanOk

/-- TS_TDO: low while the network is in bypass and nothing is selected (Table 01-18, R47). -/
def tsTdo (s : State) : Bool := s.sys.testNet != .bypass && Config.testBit 64 s.core.now

/-- Line l of TS_SO: low unless scan is in force (Table 01-18, R47). -/
def tsSo (s : State) (l : Nat) : Bool := scanning s && Config.testBit l s.core.now

end Sys2Proof.Machine
end

