-- ==== Sys2Proof/Safety.lean ====
section
/-! DEFINITION. What counts as a legal state of the lifecycle, and the terms in which claims are made: when a command is taken,
when a register write reaches its register, and what a reply leaves. -/

namespace Sys2Proof.Machine

/-! When a command is taken -/

/-- The block is in RUN. -/
def State.running (s : State) : Bool := s.sys.phase == .run

/-- The block is in BOOT or in RUN. -/
def State.awake (s : State) : Bool := s.sys.phase == .run || s.sys.phase == .boot

/-- The control processor is free and takes packet p of queue n next, its opcode is `op`, and the context state admits it (R77,
R94). -/
def State.takes (s : State) (op n : Nat) (p : Packet) : Bool :=
  s.running && s.core.cpFree && decide (s.core.nextOffered s.core.fe.offered = some (n, p)) && pkOp p == op
    && s.core.admitted n p

/-- The packet of queue n is no longer offered, and this PCLK has its command (R94). -/
def Core.taken (c : Core) (n : Nat) : Core := c.cpTaken n

/-- A write to an offset that passes the checks of R397: present, permitted, served in this state, and of the whole word. -/
def State.served (s : State) (off : Nat) (acc : Access) : Bool :=
  (s.running || (s.sys.phase == .boot && bootServed off)) && off % 8 == 0 && !absentReg s.core off
    && (acc.priv || unprivOk off) && (readReg s.sys s.core off).isSome && acc.be == 0xFF

/-- No record at the end of the log was taken in the present DCLK (R325). -/
def Core.logFresh (c : Core) : Bool :=
  match aget c.evt.recs ((c.evt.wr + 2 ^ 32 - 1) % 2 ^ 32 % 1024) with
  | some r => r.at_ != c.dclk
  | none => true

/-- Whether a check passes. -/
def passes {α β : Type} : Except α β → Bool
  | .ok _ => true
  | .error _ => false

/-! What it leaves -/

/-- A state with everything but the lifecycle and the queue replaced. -/
def State.withCore (s : State) (c : Core) : State := { s with core := c }

/-- A state in which packet p of queue n has its final reply with a verdict, c being the effect. -/
def State.replied (s : State) (n : Nat) (p : Packet) (v : Verdict) (c : Core) : State :=
  s.withCore (c.finalReply n (pkTag p) v (pkIrq p) true)

/-- A state in which packet p of queue n has been accepted (R75), c being the effect. -/
def State.acceptedWith (s : State) (n : Nat) (p : Packet) (c : Core) : State := s.withCore (c.acceptedReply n p)

/-! Legal lifecycle states -/

/-- The reset states before MEM_INIT, in which no key is held and Hedge reads keys (Table 02-5, R361). -/
def Phase.early : Phase → Bool
  | .hold => true
  | .clkStart => true
  | .drain => true
  | .keyRead => true
  | _ => false

/-- What a reset leaves of the lifecycle until KEY_READ has ended (R53, R361). -/
def Sys.blank (y : Sys) : Prop :=
  y.keys = .zero ∧ y.lcs = .manufacture ∧ y.hg = .keys ∧ y.unlockNet = false ∧ y.unlockScan = false
    ∧ y.fwVersion = 0 ∧ y.secVersion = 0 ∧ y.bistResult = none

/-- The state of Hedge agrees with the reset state (Tables 02-5, 15-14): RUN is reached only by way of BOOTED. -/
def Sys.hedgeFits (y : Sys) : Prop :=
  match y.phase with
  | .run => y.hg = .booted ∨ y.hg = .error
  | .boot => y.hg ≠ .keys ∧ y.hg ≠ .booted
  | .memInit => y.hg = .keys ∨ y.hg = .dead
  | _ => y.blank

/-- A legal lifecycle state: the reset state, Hedge, the keys and the resets under way agree with one another. -/
structure Sys.Legal (y : Sys) : Prop where
  porstHolds      : y.porst = true → y.phase = .hold ∧ y.holdLock = false ∧ y.drainOwed = []
  holdHasCause    : y.phase = .hold → y.porst = true ∨ y.holdLock = true
  lockHolds       : y.holdLock = true → y.phase = .hold
  hedge           : y.hedgeFits
  decommissioned  : y.lcs = .decommissioned → y.hg = .dead ∧ y.keys = .zero
  scanned         : y.scanned = true → y.keys = .zero
  owedInDrain     : y.drainOwed ≠ [] → y.phase = .hold ∨ y.phase = .drain
  pendingReset    : y.devResetAt ≠ none → y.phase = .run
  countFits       : y.resetCount ≤ 0xFFFF
  failsFit        : y.bootFails ≤ 0xFF

end Sys2Proof.Machine
end

