-- ==== Sys2Proof/Certificates/Slice0/Obligations.lean ====
section
/-! DEFINITION. The statements for the provers. -/

open Sys2Proof Sys2Proof.Machine

/-! The queue of commands and the frame of every command -/

/-- A step with command i at the front of the queue is exec of i on the state with the queue's rest. -/
def Obligations.StepRunsFrontCommand : Prop :=
  ∀ (s : State) (i : Instr) (rest : List Instr), s.pending = i :: rest → step s = exec i { s with pending := rest }

/-- On an empty queue a step is one RCLK cycle (the model's choice, assumption log 2), where no rise of TS_SCAN_MODE waits for an SCLK
edge: before BOOT, and in RUN at an edge that is neither of ECLK nor of DCLK, only time passes; in BOOT a PCLK edge brings the
response side its turn (R28); at an ECLK edge of RUN the count stays; at a DCLK edge in RUN the global count goes up by one,
stands still while it is held, and skips two at a correction toward a domain that is ahead (R50, R273, R275). -/
def Obligations.IdleStepAdvancesTime : Prop :=
  ∀ s : State, s.pending = [] → s.sys.scanRise = none →
    (s.sys.phase ≠ .run → s.sys.phase ≠ .boot → step s = .next (s.withCore { s.core with now := s.core.now + 1 }))
    ∧ (s.sys.phase = .boot →
      step s = .next (s.withCore (if (s.core.now + 1) % 4 = 0 then ({ s.core with now := s.core.now + 1 } : Core).answerRead
                                  else { s.core with now := s.core.now + 1 })))
    ∧ (s.sys.phase = .run → (s.core.now + 1) % 3 ≠ 0 → (s.core.now + 1) % 2 ≠ 0 →
      step s = .next (s.withCore { s.core with now := s.core.now + 1 }))
    ∧ (s.sys.phase = .run → (s.core.now + 1) % 3 ≠ 0 →
      ∃ t, step s = .next t ∧ t.core.now = s.core.now + 1 ∧ t.core.gc = s.core.gc ∧ t.sys = s.sys ∧ t.pending = [])
    ∧ (s.sys.phase = .run → (s.core.now + 1) % 3 = 0 →
      ∃ t, step s = .next t ∧ t.core.now = s.core.now + 1 ∧ t.sys = s.sys ∧ t.pending = []
        ∧ (s.core.gc.hold = 0 → s.core.gc.realign = false → t.core.gc.count = (s.core.gc.count + 1) % 2 ^ 64)
        ∧ (0 < s.core.gc.hold → t.core.gc.count = s.core.gc.count ∧ t.core.gc.hold + 1 = s.core.gc.hold)
        ∧ (s.core.gc.hold = 0 → s.core.gc.realign = true → 2 < roundOffset s.core.gc.offsets → s.core.gc.lastCorr = none →
            t.core.gc.count = (s.core.gc.count + 3) % 2 ^ 64 ∧ t.core.gc.lastCorr = some (s.core.now + 1)))

/-- Every command answers a next state and leaves the queue as it is. -/
def Obligations.EveryCommandAnswersAndKeepsQueue : Prop :=
  ∀ (i : Instr) (s : State), ∃ t, exec i s = .next t ∧ t.pending = s.pending

/-- The block right after power-on reset: HOLD under PORST_N, SZ_RST_CAUSE zero with cause 1, the count 0 and not aligned, an
empty event log and no queue, context, skein or run (R56, R401); the values that are the model's own choices are not claimed.
The state after reset is a legal lifecycle state. In every state before RUN the outputs are those of Table 02-6 (R12, R25, R27, R49,
R56): RST_ACTIVE high, the engine ports disabled and in reset, the link ports parked and no power request; before BOOT DF_ACTIVE,
its response and the PHYs' reset release are low too, and KY_RD but in KEY_READ. -/
def Obligations.ResetStateHolds : Prop :=
  (State.reset.sys.phase = .hold ∧ State.reset.sys.porst = true ∧ State.reset.sys.resetCount = 0
     ∧ State.reset.sys.lastCause = 1 ∧ State.reset.sys.keys = .zero ∧ State.reset.core.gc.count = 0
     ∧ bitAt State.reset.core.gc.status 0 = false ∧ State.reset.core.evt.recs = [] ∧ State.reset.core.evt.wr = 0
     ∧ State.reset.core.evt.rd = 0 ∧ (∀ n, (State.reset.core.queue n).fetch = .off) ∧ (∀ n, (State.reset.core.ctx n).st = .closed)
     ∧ State.reset.core.graph.skeins = [] ∧ State.reset.core.graph.runs = [] ∧ State.reset.core.fab.plan = none
     ∧ State.reset.pending = [] ∧ memWf State.reset.core.mem = true)
  ∧ (State.reset.sys.Legal)
  ∧ (∀ s : State, s.sys.phase ≠ .run →
      rstActive s = true ∧ pwReqValid s = false ∧ (∀ e, engRstN s e = false ∧ engEn s e = false)
      ∧ (∀ p, lkPark s p = true ∧ lkTxLaneEn s p = 0 ∧ lkRate s p = 0)
      ∧ (s.sys.phase ≠ .boot → dfActive s = false ∧ dfRspValid s = false ∧ lkPhyRstN s = false)
      ∧ (s.sys.phase = .boot → dfActive s = true ∧ lkPhyRstN s = true)
      ∧ (s.sys.phase ≠ .keyRead → kyRd s = false))

/-- Every step from a legal lifecycle state leads to a legal one: RUN is reached only through an admitted image, a
DECOMMISSIONED chip stays with Hedge DEAD and without keys, a scanned chip holds no keys, nothing secret or unlocked is held
before KEY_READ has ended, and the saturating counts stay in their fields. -/
def Obligations.LegalLifecycleIsKept : Prop :=
  ∀ s t : State, s.sys.Legal → step s = .next t → t.sys.Legal

/-- Only the commands of reset, boot, Hedge and the test port, DEVICE_RESET, and a response that DRAIN waits for, change the
lifecycle part: every other command leaves it as it is. -/
def Obligations.OnlyLifecycleCommandsChangeSys : Prop :=
  ∀ (i : Instr) (s t : State), exec i s = .next t → t.sys ≠ s.sys →
    i = .powerOnReset ∨ i = .porstNDeassert ∨ i = .sysRstN ∨ i = .lockLoss ∨ i = .lockRegained ∨ i = .clkStart ∨ i = .drainEnd
      ∨ (∃ k l, i = .keyRead k l) ∨ i = .memInit ∨ i = .deviceReset ∨ i = .deviceResetEntry ∨ i = .fwLoad ∨ i = .debugUnlock
      ∨ (∃ b, i = .hedgeSelftestEnd b) ∨ i = .healthTestFail ∨ i = .tsScanMode ∨ (∃ o, i = .selftestEnd o)
      ∨ (∃ o, i = .bistInstrument o)
      ∨ (∃ ch tag w st l b, i = .reelResponse ch tag w st l b ∧ (s.sys.drainOwed ≠ [] ∨ s.sys.drainLate ≠ []))

/-- A run of bytes written is the run read back, bytes outside it read as before, and the canonical form is kept. -/
def Obligations.MemoryRunWriteThenRead : Prop :=
  ∀ (m : List Host.Cell) (a b : Nat) (l : List Byte), memWf m = true →
    memWf (memPutBytes m a l) = true ∧ memBytes (memPutBytes m a l) a l.length = l
      ∧ ((b < a ∨ a + l.length ≤ b) → memGet (memPutBytes m a l) b = memGet m b)

/-! Reset -/

/-- POWER_ON_RESET clears everything, the event log and SZ_RST_CAUSE included, and the block is in HOLD (R56); reads not yet answered
are not answered (R27). Memory outside the block, the level of PW_THROTTLE, the queue of commands and the constants of the macro stay, but for the bytes that R338 leaves
undefined. -/
def Obligations.PowerOnResetClearsAll : Prop :=
  ∀ s : State, ∃ t, exec .powerOnReset s = .next t ∧ t.sys = { Sys.reset with since := s.core.now } ∧ t.pending = s.pending
    ∧ t.core.df = { reads := [], rsp := none } ∧ t.core.sets = [] ∧ t.core.evt = EvtLog.mk [] 0 0 ∧ t.core.queues = [] ∧ t.core.ctxs = [] ∧ t.core.graph = .reset ∧ t.core.fab = .reset
    ∧ t.core.chans = [] ∧ t.core.ply = [] ∧ t.core.moe = { tables := [], maps := [] } ∧ t.core.sync.objs = []
    ∧ t.core.disp.ports = [] ∧ t.core.watch = Core.reset.watch ∧ t.core.pwr = { Core.reset.pwr with status := setBit Core.reset.pwr.status 5 (bitAt s.core.pwr.status 5) } ∧ t.core.clk = Core.reset.clk
    ∧ t.core.cfg = s.core.cfg ∧ t.core.build = s.core.build ∧ t.core.now = s.core.now

/-- The states of Table 02-5: each of these commands ends the state it belongs to, once its time has passed (1000 SCLK after a loss of
lock, 16 SCLK, 65,536 DCLK), and begins the next. DRAIN ends when nothing is owed or 65,536 PCLK have passed; MEM_INIT ends in BOOT,
with Hedge in its self-test unless it is DEAD or eight boots failed, and the first drift window begins there (R54). -/
def Obligations.ResetSequenceAdvances : Prop :=
  ∀ s : State,
    (s.sys.phase = .hold → s.sys.porst = true →
      exec .porstNDeassert s = .next { s with sys := { s.sys with porst := false, phase := .clkStart, since := s.core.now } })
    ∧ (s.sys.phase = .hold → s.sys.holdLock = true → s.sys.since + 1000 * 48 ≤ s.core.now →
      exec .lockRegained s = .next { s with sys := { s.sys with holdLock := false, phase := .drain, since := s.core.now } })
    ∧ (s.sys.phase = .clkStart → s.sys.since + 16 * 48 ≤ s.core.now →
      exec .clkStart s = .next { s with sys := { s.sys with phase := .keyRead, since := s.core.now } })
    ∧ (s.sys.phase = .drain → (s.sys.drainOwed = [] ∨ s.sys.since + 4 * 65536 ≤ s.core.now) →
      ∃ t, exec .drainEnd s = .next t ∧ t.sys.phase = .keyRead ∧ t.sys.drainOwed = [] ∧ t.sys.since = s.core.now ∧ t.core = s.core)
    ∧ (s.sys.phase = .memInit → s.sys.since + 65536 * 3 ≤ s.core.now → s.sys.hg ≠ .dead → s.sys.bootFails < 8 →
      exec .memInit s = .next { s with core := { s.core with clk := { s.core.clk with winAt := s.core.dclk } },
                                       sys := { s.sys with phase := .boot, since := s.core.now, hg := .selftest } })
    ∧ (s.sys.phase = .memInit → s.sys.since + 65536 * 3 ≤ s.core.now → (s.sys.hg = .dead ∨ 8 ≤ s.sys.bootFails) →
      exec .memInit s = .next { s with core := { s.core with clk := { s.core.clk with winAt := s.core.dclk } },
                                       sys := { s.sys with phase := .boot, since := s.core.now, hg := .dead } })

/-- KEY_READ, once every used slot has its value: the lifecycle state of KY_LCS, where any code but the three listed is
DECOMMISSIONED (R45); a DECOMMISSIONED chip has Hedge DEAD and no key; else the key store is filled from the slots, unless
the chip was scanned since power-on (R367); and MEM_INIT begins. -/
def Obligations.KeyReadSamplesLifecycle : Prop :=
  ∀ (s : State) (code : Nat) (slots : List (Nat × W32)), s.sys.phase = .keyRead →
    usedSlots.all (fun k => (aget slots k).isSome) = true →
    ∃ t, exec (.keyRead code slots) s = .next t ∧ t.sys.phase = .memInit ∧ t.sys.since = s.core.now
      ∧ (code = 3 → t.sys.lcs = .manufacture) ∧ (code = 5 → t.sys.lcs = .development) ∧ (code = 10 → t.sys.lcs = .locked)
      ∧ (code ≠ 3 → code ≠ 5 → code ≠ 10 → t.sys.lcs = .decommissioned ∧ t.sys.hg = .dead ∧ t.sys.keys = .zero)
      ∧ (s.sys.scanned = true → t.sys.keys = .zero)
      ∧ (t.sys.lcs ≠ .decommissioned → s.sys.scanned = false → t.sys.hg = .keys ∧ t.sys.keys.fwKey = slotRun slots 0 12
          ∧ t.sys.keys.devKey = slotRun slots 0x10 8 ∧ t.sys.keys.dbgKey = slotRun slots 0x20 12
          ∧ t.sys.keys.floor = (agetD slots 0x50 0).toNat)
      ∧ t.core.engPresent = presentBits slots

/-- SYS_RST_N, lock loss, and the entry that DEVICE_RESET leads to, outside a power-on reset and as the first source of their
SCLK: the count of resets and the cause are kept in SZ_RST_CAUSE, job state and lifecycle are lost, a RESET record is the last
thing written to the log, which is kept, and the block drains, or holds until the lock is regained (R53, R55, R326, R401). -/
def Obligations.WholeDeviceResetEntry : Prop :=
  ∀ (s : State) (i : Instr) (cause : Nat), s.sys.porst = false → s.sys.joins s.core.now = false →
    ((i = .sysRstN ∧ cause = 2) ∨ (i = .lockLoss ∧ cause = 4)
      ∨ (i = .deviceResetEntry ∧ cause = 3 ∧ (∃ d, s.sys.devResetAt = some d ∧ d + 4 * 65536 ≤ s.core.now))
      ∨ (i = .deviceResetEntry ∧ cause = 3 ∧ s.sys.devResetAt ≠ none ∧ s.core.resetRepliesOwed = false)) →
    ∃ t, exec i s = .next t ∧ t.sys.lastCause = cause ∧ t.sys.resetCount = min (s.sys.resetCount + 1) 0xFFFF ∧ t.sys.blank
      ∧ (t.sys.phase = if cause = 4 ∨ s.sys.holdLock = true then .hold else .drain)
      ∧ t.core.evt = (s.core.logReset cause t.sys.resetCount).evt
      ∧ t.core.queues = [] ∧ t.core.ctxs = [] ∧ t.core.graph.runs = [] ∧ t.core.graph.skeins = [] ∧ t.core.gc = Core.reset.gc
      ∧ t.core.stash.ents = s.core.stash.ents ∧ t.core.stash.wr = s.core.stash.wr ∧ t.core.stash.rd = s.core.stash.rd
      ∧ (∀ p, (t.core.link p).oos = (s.core.link p).oos ∧ (t.core.link p).st = .parked)

/-- DEVICE_RESET taken in RUN: fetching and taking commands stop, the time is kept for the entry to reset, queue 0 has
RESET_PENDING as its reply, and so has every other open context's queue, with the tag that stands for no packet (R89). -/
def Obligations.DeviceResetStopsTheFrontEnd : Prop :=
  ∀ (s : State) (p : Packet), s.takes 0xF0 0 p = true → passes (step9 p []) = true →
    ∃ d, exec .deviceReset s = .next { s.replied 0 p vResetPending d with sys := { s.sys with devResetAt := some s.core.now } }
      ∧ d.fe.stopped = true ∧ d.mem = s.core.mem ∧ d.graph = s.core.graph ∧ d.reel = s.core.reel
      ∧ (∀ m, 0 < m → m < 64 → (s.core.ctx m).st ≠ .closed → (s.core.queue m).fetch ≠ .off →
          ∃ r, r.status = .resetPending ∧ r.tag = 0xFFFFFFFF ∧ r.final = true
            ∧ (d.queue m).replies = (s.core.queue m).replies ++ [r] ∧ (d.queue m).compl = ((s.core.queue m).compl + 1) % 2 ^ 64)
      ∧ (∀ m, (s.core.ctx m).st = .closed → d.queue m = s.core.queue m)

/-! Hedge -/

/-- The end of Hedge's self-test in BOOT, a failed health test, and the rise of TS_SCAN_MODE (R367 to R369, Table 15-14): where scan
is permitted it is entered at once, but in the SCLK in which an unlock with scope scan takes effect, and where it is not permitted,
only the rise is kept (Table 15-7). -/
def Obligations.HedgeTestsAndScan : Prop :=
  ∀ s : State,
    (s.sys.hg = .selftest → s.sys.phase = .boot → exec (.hedgeSelftestEnd true) s = .next { s with sys := { s.sys with hg := .ready } })
    ∧ (s.sys.hg = .selftest → s.sys.phase = .boot →
      ∃ t, exec (.hedgeSelftestEnd false) s = .next t ∧ t.sys = { s.sys with hg := .error } ∧ bitAt t.core.hedge.evt 2 = true)
    ∧ (s.sys.hg = .ready ∨ s.sys.hg = .booted →
      ∃ t, exec .healthTestFail s = .next t ∧ t.sys = { s.sys with hg := .error } ∧ bitAt t.core.hedge.evt 2 = true
        ∧ t.core.queues = s.core.queues ∧ t.core.graph = s.core.graph ∧ t.core.mem = s.core.mem)
    ∧ ((s.sys.phase = .memInit ∨ s.sys.phase = .boot ∨ s.sys.phase = .run) →
      (s.sys.lcs = .manufacture
        ∨ (s.sys.lcs = .development ∧ s.sys.unlockScan = true ∧ s.sys.unlockAt ≠ some (s.core.now / 48))) →
      ∃ t, exec .tsScanMode s = .next t ∧ t.sys = { s.sys with keys := .zero, scanned := true, scanRise := none }
        ∧ bitAt t.core.hedge.evt 4 = true
        ∧ t.core.hedge.keyBlank = true ∧ t.core.queues = s.core.queues ∧ t.core.mem = s.core.mem)
    ∧ ((s.sys.scanOk = false ∨ (s.sys.lcs = .development ∧ s.sys.unlockAt = some (s.core.now / 48))) →
      exec .tsScanMode s = .next { s with sys := { s.sys with scanRise := some (s.core.now / 48) } })

/-- FW_LOAD in BOOT whose image passes every check of Table 15-5: Hedge is BOOTED, the versions are those of the image's word
1, and RUN begins with the count at 0, context 0 OPEN, and queue 0 counting from zero (R59, R71, R115, R372); the model enters RUN
at an even DCLK (assumption log 96). FW_LOAD in BOOT whose image fails a check of Table 15-5: boot_fails counts it, auth_fail is
set, the reply says why, and at the eighth failure of a READY Hedge it is DEAD (R371, Table 15-14). It waits while Hedge runs its
tests (R368), and while a read of its image has to wait (R33, R34). -/
def Obligations.FwLoadVerifiesImage : Prop :=
  (∀ (s : State) (p : Packet) (h : List Byte), s.sys.phase = .boot → s.core.bootPacket = some p → s.sys.hg ≠ .selftest →
     s.sys.lcs ≠ .decommissioned → passes (step9 p (physFaults p 2 0)) = true → s.core.dclk % 2 = 0 →
     fwVerify s.sys (s.core.taken 0) p = .ok h →
     ∃ t, exec .fwLoad s = .next t ∧ t.sys.phase = .run ∧ t.sys.hg = .booted ∧ t.sys.bootFails = s.sys.bootFails
       ∧ t.sys.fwVersion = bWord h 1 / 2 ^ 32 % 2 ^ 24 ∧ t.sys.secVersion = bWord h 1 % 2 ^ 32
       ∧ t.core.gc.count = 0 ∧ (t.core.ctx 0).st = .opened ∧ (t.core.ctx 0).handleLog2 = 0 ∧ (t.core.queue 0).compl = 0
       ∧ (t.core.ctx 0).spindleMask = 2 ^ s.core.cfg.spindles - 1
       ∧ (∀ e, s.core.present e = true → (t.core.port e).rstN = true) ∧ t.core.mem = s.core.mem)
  ∧ (∀ (s : State) (p : Packet) (v : Verdict), s.sys.phase = .boot → s.core.bootPacket = some p → s.sys.hg ≠ .selftest →
       s.sys.lcs ≠ .decommissioned → passes (step9 p (physFaults p 2 0)) = true →
       fwVerify s.sys (s.core.taken 0) p = .error v → v ≠ vFaulted 2 heldCode →
       ∃ t d, exec .fwLoad s = .next t ∧ t = { s.replied 0 p v d with sys := t.sys } ∧ t.sys.phase = .boot
         ∧ t.sys.bootFails = min (s.sys.bootFails + 1) 0xFF ∧ bitAt t.core.hedge.evt 0 = true
         ∧ (s.sys.hg = .ready → 7 ≤ s.sys.bootFails → t.sys.hg = .dead)
         ∧ (s.sys.hg = .ready → s.sys.bootFails < 7 → t.sys.hg = .ready))
  ∧ (∀ (s : State) (p : Packet), s.sys.phase = .boot → s.core.bootPacket = some p →
       (s.sys.hg = .selftest ∨ (s.sys.lcs ≠ .decommissioned ∧ passes (step9 p (physFaults p 2 0)) = true
          ∧ fwVerify s.sys (s.core.taken 0) p = .error (vFaulted 2 heldCode))) →
       exec .fwLoad s = .next s)

/-- DEBUG_UNLOCK in MANUFACTURE or DEVELOPMENT with a token that passes the checks of R374 opens what its word 2 asks for,
and with one that fails opens nothing; both replace the nonce, which is a free value (R374, R375), but where Hedge is in ERROR or
DEAD, which draws none (R369; assumption log 52). SZ_SM_GRANT while no verification runs makes the window busy and ends a grant in
force; GRANT_VERIFIED ends the verification: granted with the context and the operations of the token's word 2, or auth_fail; the
nonce, a free value, is replaced either way (R227, R374). -/
def Obligations.TokensAreVerified : Prop :=
  (∀ (s : State) (n : Nat) (p : Packet) (t : List Byte), s.takes 0x91 n p = true →
     (∀ u, unlockOutcome s.sys s.core p = .ok (t, .ok u) →
       ∃ d, exec .debugUnlock s = .next { s.replied n p vOk d with
           sys := { s.sys with unlockNet := s.sys.unlockNet || (bWord t 2).testBit 0,
                               unlockScan := s.sys.unlockScan || (bWord t 2).testBit 1,
                               unlockAt := if (bWord t 2).testBit 1 then some (s.core.now / 48) else s.sys.unlockAt } }
         ∧ d.hedge.nonce = Config.freeWord s.core.free ∧ bitAt d.hedge.evt 3 = true ∧ d.mem = s.core.mem)
     ∧ (∀ v, unlockOutcome s.sys s.core p = .ok (t, .error v) →
       ∃ d, exec .debugUnlock s = .next (s.replied n p v d)
         ∧ d.hedge.nonce = (if s.sys.hedgeDown then s.core.hedge.nonce else Config.freeWord s.core.free) ∧ bitAt d.hedge.evt 0 = true ∧ d.mem = s.core.mem))
  ∧ ((∀ (s : State) (v : W64) (acc : Access), s.served 0x800008 acc = true → bitAt s.core.sync.win.status 3 = false →
       ∃ t, exec (.szSmGrant v acc) s = .next t ∧ bitAt t.core.sync.win.status 3 = true ∧ bitAt t.core.sync.win.status 2 = false
         ∧ t.core.sync.win.grantAddr = some (fld v 6 42 * 64 + fld v 48 2 * 2 ^ 48) ∧ t.core.sync.objs = s.core.sync.objs)
     ∧ (∀ (s : State) (a : Nat) (r : List Byte × Except Verdict Unit), s.running = true → s.core.sync.win.grantAddr = some a →
       grantOutcome s.sys s.core a = some r →
       ∃ t, exec .grantVerified s = .next t
         ∧ t.core.sync.win.nonce = (if s.sys.hedgeDown then s.core.sync.win.nonce else Config.freeWord s.core.free)
         ∧ t.core.sync.win.grantAddr = none ∧ bitAt t.core.sync.win.status 3 = false
         ∧ (passes r.2 = true → bitAt t.core.sync.win.status 2 = true ∧ fld t.core.sync.win.status 24 6 = bWord r.1 2 % 64
             ∧ fld t.core.sync.win.status 32 16 = bWord r.1 2 / 2 ^ 16 % 2 ^ 16)
         ∧ (passes r.2 = false → bitAt t.core.sync.win.status 2 = false ∧ bitAt t.core.sync.win.status 1 = true)))

/-! Replies, refusals, and the front end -/

/-- What a final reply leaves (R71, R75, R98, R329, R407): the completion count of the queue and the cmds of its context go up
by one; on a queue that is not OFF the reply, with the new count, stands last and the packet waits for its write; on one in OFF
it is dropped with a QUEUE record. Nothing of memory, the graph, the ports or other queues and contexts changes. Once DEVICE_RESET has
taken effect, none but RESET_PENDING is given: any other leaves everything as it is (R89). -/
def Obligations.FinalReplyCountsAndStands : Prop :=
  (∀ (c : Core) (n tag : Nat) (v : Verdict) (irq : Bool), c.fe.stopped = true → v.status ≠ .resetPending →
    c.finalReply n tag v irq true = c)
  ∧ ∀ (c : Core) (n tag : Nat) (v : Verdict) (irq : Bool), (c.fe.stopped = false ∨ v.status = .resetPending) →
    let d := c.finalReply n tag v irq true
    (d.queue n).compl = ((c.queue n).compl + 1) % 2 ^ 64 ∧ (d.ctx n).cmds = min ((c.ctx n).cmds + 1) (2 ^ 64 - 1)
    ∧ ((c.queue n).fetch ≠ .off → (d.queue n).cur = .replying ∧ d.evt = c.evt
        ∧ (d.queue n).replies = (c.queue n).replies
            ++ [Reply.mk tag v.status v.detail (((c.queue n).compl + 1) % 2 ^ 64) true irq true none false])
    ∧ ((c.queue n).fetch = .off → (d.queue n).cur = .none ∧ (d.queue n).replies = (c.queue n).replies
        ∧ (diff32 c.evt.wr c.evt.rd < 1024 → c.logFresh = true →
            ∃ r, aget d.evt.recs (c.evt.wr % 1024) = some r ∧ r.cls = 2 ∧ fld r.w0 16 8 = 3))
    ∧ (∀ m, m ≠ n → d.queue m = c.queue m ∧ d.ctx m = c.ctx m)
    ∧ d.mem = c.mem ∧ d.graph = c.graph ∧ d.disp = c.disp ∧ d.reel = c.reel ∧ d.fe = c.fe ∧ d.chans = c.chans ∧ d.sync = c.sync

/-- A command that the state of its context does not admit has its final reply STATE_ERROR with reason 1, and nothing else happens
(R77, R82, R78): shown for each host command whose meaning is one call of the control processor. The command is taken where none
took effect in the same PCLK (R94). -/
def Obligations.HostOpcodeRefusedByContextState : Prop :=
  ∀ (s : State) (n : Nat) (p : Packet), s.running = true → s.core.cpFree = true →
    s.core.nextOffered s.core.fe.offered = some (n, p) → s.core.admitted n p = false →
    ∀ i op, (i, op) ∈ ([(.ctxOpen, 0x01), (.ctxClose, 0x02), (.handleFlush, 0x04), (.nop, 0x05), (.skeinUnload, 0x11),
        (.skeinPatch, 0x12), (.launchAt, 0x21), (.cancel, 0x24), (.resume, 0x27), (.syncSet, 0x30), (.syncWait, 0x31),
        (.syncAlloc, 0x32), (.syncFree, 0x33), (.moeTableLoad, 0x50), (.moeStats, 0x52), (.clipAbort, 0x71), (.loopbackSet, 0x80),
        (.selftest, 0x81), (.query, 0xA0)] : List (Instr × Nat)) → pkOp p = op →
      exec i s = .next (s.replied n p (vState 1) (s.core.taken n))

/-- DOORBELL (R102, R103), the host's stores first made visible: a value within the ring's room takes the tail, ARMs an IDLE
queue and sets P in any other state; on a queue in OFF or HALTED, or beyond the room, the tail and the fetch state stay, and the
refusal is kept in SZ_Q_STATUS with its code: flag and count. A ring register of a queue that meets R101 is written: pointers and P are
cleared, and the queue is IDLE where both the command ring and the reply ring have a size, and OFF otherwise (R100, R101). Nothing
else of the queue, no other queue, and no byte of memory but the stores changes. -/
def Obligations.DoorbellAndRingRegisters : Prop :=
  (∀ (s : State) (n : Nat) (v : W64) (acc : Access) (stores : List Host.Cell),
     let c := s.core.store stores
     let q := c.queue n
     n < 64 → (s.withCore c).served (0x100000 + 0x1000 * n) acc = true →
     ((q.fetch ≠ .off ∧ q.fetch ≠ .halted ∧ diff32 (fld v 0 32) q.tail ≤ q.ringWords - diff32 q.tail q.head) →
       exec (.doorbell n v acc stores) s = .next (s.withCore (c.setQueue n
         (if q.fetch = .idle then { q with tail := fld v 0 32, p := false, fetch := .armed }
          else { q with tail := fld v 0 32, p := true }))))
     ∧ (¬(q.fetch ≠ .off ∧ q.fetch ≠ .halted ∧ diff32 (fld v 0 32) q.tail ≤ q.ringWords - diff32 q.tail q.head) →
       ∃ t w, exec (.doorbell n v acc stores) s = .next t ∧ t.core.queue n = { q with status := w }
         ∧ bitAt w 1 = true ∧ fld w 48 16 = min (fld q.status 48 16 + 1) 0xFFFF
         ∧ fld w 40 8 = (if q.fetch = .off ∨ q.fetch = .halted then 0x20 else 0x10)
         ∧ (∀ m, m ≠ n → t.core.queue m = c.queue m) ∧ t.core.mem = c.mem ∧ t.core.graph = c.graph ∧ t.core.ctxs = c.ctxs))
  ∧ (∀ (s : State) (n : Nat) (v : W64) (acc : Access) (which : RingReg), n < 64 →
       s.served (0x200000 + 0x1000 * n + (match which with | .ring => 0 | .reply => 8 | .mirror => 16)) acc = true →
       s.core.ringsFree n = true →
       (match which with | .ring => ringOk v 24 | .reply => ringOk v 20 | .mirror => inTier (fld v 48 2) (fld v 3 45 * 8) 8) = true →
       ∃ q, exec (.ringConfiguration n which v acc) s = .next (s.withCore (s.core.setQueue n q)) ∧ q.head = 0 ∧ q.tail = 0
         ∧ q.rplTail = 0 ∧ q.rplFree = 0 ∧ q.p = false
         ∧ q.fetch = (if fld q.ring 54 5 ≠ 0 ∧ fld q.reply 54 5 ≠ 0 then .idle else .off)
         ∧ (which = .ring → ∀ lo len, (lo, len) ∈ [(54, 5), (48, 2), (6, 42)] → fld q.ring lo len = fld v lo len)
         ∧ (which = .reply → ∀ lo len, (lo, len) ∈ [(54, 5), (48, 2), (6, 42)] → fld q.reply lo len = fld v lo len)
         ∧ (which = .mirror → ∀ lo len, (lo, len) ∈ [(63, 1), (48, 2), (3, 45)] → fld q.mirror lo len = fld v lo len)
         ∧ (which ≠ .ring → q.ring = (s.core.queue n).ring) ∧ (which ≠ .reply → q.reply = (s.core.queue n).reply)
         ∧ (which ≠ .mirror → q.mirror = (s.core.queue n).mirror)
         ∧ q.compl = (s.core.queue n).compl ∧ q.status = (s.core.queue n).status ∧ q.replies = (s.core.queue n).replies)

/-- FETCHER_GRANT, FETCH_SLICE_END and the end of CHECK (R105, R108, Table 04-11): a free fetcher goes to the lowest ARMED
queue at or above the rotation pointer, wrapping; the slice of its holder is over once fetch_slice × 16 PCLK have passed;
CHECK goes to ARMED where P is set and else to IDLE. FETCH_ATTEMPT of the holder clears P; without room for a longest packet the queue
goes to ROOM, with fewer than two words in the ring to CHECK, and else the line that holds the packet's first word is asked for (R104
to R106). When a ring line that the holder asked for arrives (`f`: the attempt with that line): a read that failed, or a header whose
length field is below 2, halts the queue: HALTED, with the reply that HALT_REPLY will write, a QUEUE record, and the fetcher free; a
packet that reaches past the sampled tail is discarded, and the queue goes to CHECK; with all its lines there the packet goes into the
fetch buffer and the head moves over it, and the queue keeps the fetcher, or is ARMED again at the end of its slice; else further
lines are asked for, at most 8 outstanding (R79, R104, R106 to R108). -/
def Obligations.FetchersTakePackets : Prop :=
  (∀ s : State, s.awake = true →
     (s.core.fe.stopped = false → s.core.fe.holder = none →
       ∀ i, i < 64 → (s.core.queue ((s.core.fe.rot + i) % 64)).fetch = .armed →
         (∀ j, j < i → (s.core.queue ((s.core.fe.rot + j) % 64)).fetch ≠ .armed) →
         let k := (s.core.fe.rot + i) % 64
         exec .fetcherGrant s = .next (s.withCore { s.core.setQueue k { s.core.queue k with fetch := .fetch } with
           fe := { s.core.fe with holder := some k, grantedAt := s.core.now, sliceOver := false, rot := (k + 1) % 64 } }))
     ∧ (s.core.fe.holder.isSome = true → s.core.fe.grantedAt + 64 * fld s.core.fe.ctrl 0 8 ≤ s.core.now →
         exec .fetchSliceEnd s = .next (s.withCore { s.core with fe := { s.core.fe with sliceOver := true } }))
     ∧ (∀ n, (s.core.queue n).fetch = .check →
         exec (.checkEnd n) s = .next (s.withCore (s.core.setQueue n
           (if (s.core.queue n).p then { s.core.queue n with p := false, fetch := .armed }
            else { s.core.queue n with fetch := .idle })))))
  ∧ (∀ (s : State) (n : Nat), s.awake = true → s.core.fe.stopped = false → s.core.fe.holder = some n → s.core.fe.fetch = none →
       let q := { s.core.queue n with p := false }
       let leaves : FetchState → State := fun f => s.withCore { s.core.setQueue n { q with fetch := f } with
         fe := { s.core.fe with holder := none, sliceOver := false, fetch := none } }
       let room := sumBy (fun x => 8 * x.length) q.buf + 2040
       (4096 < room → exec .fetchAttempt s = .next (leaves .room))
       ∧ (room ≤ 4096 → diff32 q.tail q.head < 2 → exec .fetchAttempt s = .next (leaves .check))
       ∧ (room ≤ 4096 → 2 ≤ diff32 q.tail q.head →
           exec .fetchAttempt s = .next (s.withCore
             (({ s.core.setQueue n q with
                 fe := { s.core.fe with fetch := some { avail := diff32 q.tail q.head, asked := 1, got := [] } } } : Core).reelRead
               (q.ringLine 0) (.ringRead n 0)))))
  ∧ (∀ (c : Core) (n k code : Nat) (ws : List W64) (f0 : RingFetch), c.fe.fetch = some f0 → c.fe.stopped = false →
       c.fe.holder = some n →
       let q := c.queue n
       let f := { f0 with got := aset f0.got k ws }
       let d := c.ringIn n k code ws
       let halts : Nat → Status → Nat → Bool → Prop := fun tag st detail irq =>
         d.queue n = { q with fetch := .halted,
                              haltWith := some { tag := tag, status := st, detail := detail, count := 0, final := true, irq := irq,
                                                 gives := false } }
         ∧ d.fe = { c.fe with holder := none, sliceOver := false, fetch := none } ∧ d.mem = c.mem
         ∧ (diff32 c.evt.wr c.evt.rd < 1024 → c.logFresh = true →
             ∃ r, aget d.evt.recs (c.evt.wr % 1024) = some r ∧ r.cls = 2 ∧ fld r.w0 16 8 = 2)
       (code ≠ 0 → halts 0xFFFFFFFF .faulted code false)
       ∧ (code = 0 → ∀ first, aget f.got 0 = some first →
           let hd := first.drop (q.head % 8)
           (pkLen hd < 2 → halts (pkTag hd) .badLength (0xFF00 + pkLen hd) (pkIrq hd))
           ∧ (2 ≤ pkLen hd → f.avail < pkLen hd → d = { c.setQueue n { q with fetch := .check } with
               fe := { c.fe with holder := none, sliceOver := false, fetch := none } })
           ∧ (2 ≤ pkLen hd → pkLen hd ≤ f.avail → f.got.length < q.ringLines (pkLen hd) →
               ∃ g, d.fe = { c.fe with fetch := some g } ∧ g.got = f.got ∧ g.avail = f.avail
                 ∧ g.asked - g.got.length ≤ max 8 (f.asked - f.got.length) ∧ f.asked ≤ g.asked ∧ d.queues = c.queues ∧ d.mem = c.mem)
           ∧ (2 ≤ pkLen hd → pkLen hd ≤ f.avail → q.ringLines (pkLen hd) ≤ f.got.length →
               ∃ p, (d.queue n).buf = q.buf ++ [p]
                 ∧ p = (((List.range (q.ringLines (pkLen hd))).flatMap fun i => agetD f.got i []).drop (q.head % 8)).take (pkLen hd)
                 ∧ (d.queue n).head = (q.head + p.length) % 2 ^ 32
                 ∧ (c.sliceEnded = false → d.fe = { c.fe with fetch := none } ∧ (d.queue n).fetch = q.fetch)
                 ∧ (c.sliceEnded = true → d.fe.holder = none ∧ (d.queue n).fetch = .armed)
                 ∧ d.mem = c.mem ∧ (∀ m, m ≠ n → d.queue m = c.queue m))))

/-- FRONT_END_CHECKS in RUN on a front packet that passes steps 2 to 6 and whose fence is met: the packet leaves the buffer (at its
offer: assumption log 85) and is offered to the control processor, behind those that passed in earlier PCLK, and before those of
higher number that passed in the same (R109); one that fails leaves the buffer and has its final reply at once (R77, R109). HALT_REPLY
once every earlier packet of the queue has given way: the halting packet's final reply is finalised (R107), and q_fault is set when it
has been written. REPLY_WRITE: the oldest reply of a queue whose reply ring has room, no write of it being under way,
goes to the slot of rpl_tail as 16 bytes, and the packet that it answers gives way (R98, R110, R111). RPL_FREE takes a value
that frees no slot which is not occupied (R110). -/
def Obligations.FrontEndChecksAndReplies : Prop :=
  (∀ (s : State) (n : Nat) (p : Packet) (rest : List Packet), n < 64 → s.running = true → s.core.fe.stopped = false →
     s.core.replyHeld n = false → (s.core.queue n).cur = .none → (s.core.queue n).buf = p :: rest →
     let q := Queue.room { s.core.queue n with buf := rest }
     (frontVerdict n p = none → fenceMet p (s.core.queue n).compl = true →
       ∃ l, exec (.frontEndChecks n) s = .next (s.withCore
             { s.core.setQueue n { q with cur := .offered p, passedAt := s.core.pclk } with fe := { s.core.fe with offered := l } })
         ∧ ((∀ m ∈ s.core.fe.offered, (s.core.queue m).passedAt < s.core.pclk) → l = s.core.fe.offered ++ [n])
         ∧ (∀ m, s.core.fe.offered = [m] → n < m → (s.core.queue m).passedAt = s.core.pclk → l = [n, m]))
     ∧ (∀ v, frontVerdict n p = some v →
       exec (.frontEndChecks n) s = .next (s.replied n p v (s.core.setQueue n q))))
  ∧ (∀ (s : State) (n : Nat) (r : Reply), n < 64 → s.awake = true → s.core.fe.stopped = false → (s.core.queue n).haltWith = some r →
       (s.core.queue n).cur = .none → (s.core.queue n).buf = [] → (s.core.queue n).fetch = .halted →
       ∃ t, exec (.haltReply n) s = .next t
         ∧ t.core.queue n = { s.core.queue n with
             haltWith := none, compl := ((s.core.queue n).compl + 1) % 2 ^ 64,
             replies := (s.core.queue n).replies
               ++ [Reply.mk r.tag r.status r.detail (((s.core.queue n).compl + 1) % 2 ^ 64) true r.irq false none true] }
         ∧ (∀ m, m ≠ n → t.core.queue m = s.core.queue m) ∧ t.core.mem = s.core.mem ∧ t.core.graph = s.core.graph)
  ∧ (∀ (c : Core) (n : Nat) (r : Reply),
       ((c.replyDone n r).queue n).rplTail = ((c.queue n).rplTail + 1) % 2 ^ 32 ∧ ((c.replyDone n r).queue n).writing = none
       ∧ (r.halts = true → bitAt ((c.replyDone n r).queue n).status 2 = true))
  ∧ ((∀ (s : State) (n : Nat) (r : Reply) (rest : List Reply), n < 64 → s.awake = true → (s.core.queue n).writing = none →
       (s.core.queue n).replies = r :: rest → (s.core.queue n).hasRoom = true → s.core.afterQueueZero n r = false →
       exec (.replyWrite n) s = .next (s.withCore
         ((s.core.setQueue n { s.core.queue n with replies := rest, writing := some r,
                                                   cur := if r.gives then .none else (s.core.queue n).cur }).reelWrite
           ((s.core.queue n).replyAddr (s.core.queue n).rplTail) (wordBytes r.word0 ++ wordBytes (w64 r.count)) (.reply n r))))
     ∧ (∀ (s : State) (n : Nat) (v : W64) (acc : Access), n < 64 → s.served (0x100010 + 0x1000 * n) acc = true →
       diff32 (fld v 0 32) (s.core.queue n).rplFree ≤ diff32 (s.core.queue n).rplTail (s.core.queue n).rplFree →
       exec (.rplFree n v acc) s = .next (s.withCore (s.core.setQueue n { s.core.queue n with rplFree := fld v 0 32 }))))

/-! Contexts -/

/-- CTX_OPEN whose checks of Tables 03-9 and 03-10 all pass: the target is OPEN (context 0 keeps a state that is not CLOSED)
with the settings of the packet; its progress counters and its other context registers but the ranges are as reset leaves them, its
queue counts from zero, its Ply page is as reset leaves it, but for the reply where the target is the sender (R71, R82, R87, R329); a
stall that was reported ends with a STALL record (the model's reading: assumption log 100). NOP (R87): its final reply OK, and nothing
else. CTX_CLOSE of a context that is not CLOSED and has no unfinished run, and to whose queue no reply is owed: the context is
closed, its skeins and objects are gone, no run and no byte of memory changes, and the final reply is OK at
once; with unfinished runs the expert form cancels them, and holds its queue while one of them has not ended (R87, Table 03-10). -/
def Obligations.ContextCommands : Prop :=
  (∀ (s : State) (n : Nat) (p : Packet), s.takes 0x01 n p = true →
     let c := s.core.taken n
     let t := pf p 2 0 6
     let x := c.ctx t
     let mask := pf p 2 48 16
     let others := c.openCtxs.filter fun m => m != t
     passes (step9 p (c.ctxOpenFaults p)) = true → (t = 0 → c.owns 0 = false) →
     (t ≠ 0 → c.testing = false ∧ x.st = .closed) → c.maskUsed t mask true = false →
     (pkExp p && pb p 6 16 && c.maskUsed t mask false) = false →
     pf p 5 0 19 + sumBy (fun m => (c.ctx m).syncQuota) others ≤ c.cfg.syncObjects →
     pf p 5 32 13 + sumBy (fun m => (c.ctx m).chanQuota) others ≤ c.cfg.channels →
     let e := if x.stallTold then c.logStall t 2 else c
     exec .ctxOpen s = .next (s.replied n p vOk (((e.setCtx t
       { Ctx.reset with
         st := if x.st = .closed then .opened else x.st, spindleMask := mask, handleLog2 := pf p 2 32 8, syncLog2 := pf p 2 24 8,
         prioCeiling := pf p 2 16 4, owner := pkExp p && pb p 6 16, sliceLen := if pkExp p then pf p 6 0 16 else 0,
         htab := pw p 3, stab := pw p 4, chanQuota := pf p 5 32 13, syncQuota := pf p 5 0 19,
         peer := x.peer, sigrange := x.sigrange, flowrange := x.flowrange, stop := x.stop,
         progressed := x.progressed }).setQueue t { c.queue t with compl := 0 }).setPlyPage t .reset)))
  ∧ (Ctx.reset.cmds = 0 ∧ Ctx.reset.tasks = 0 ∧ Ctx.reset.assigns = 0 ∧ Ctx.reset.ndc = 0 ∧ Ctx.reset.stallRun = 0)
  ∧ (∀ (s : State) (n : Nat) (p : Packet), s.takes 0x05 n p = true → passes (step9 p []) = true →
       exec .nop s = .next (s.replied n p vOk (s.core.taken n)))
  ∧ (∀ (s : State) (n : Nat) (p : Packet), s.takes 0x02 n p = true →
       let c := s.core.taken n
       let t := pf p 2 0 6
       passes (step9 p (range 2 0 (t != 0))) = true → (c.ctx t).st ≠ .closed →
       ((c.noRuns t = true → (c.ctx t).stop = none →
           (match (c.queue t).cur with | .syncWait _ _ => False | .sigWait _ _ _ => False | _ => True) →
           ∃ d, exec .ctxClose s = .next (s.replied n p vOk d) ∧ d = c.closeEffect t
             ∧ (d.ctx t).st = .closed ∧ (d.ctx t).spindleMask = 0 ∧ (d.ctx t).chanQuota = 0 ∧ (d.ctx t).syncQuota = 0
             ∧ d.objsOf t = []
             ∧ d.skeinsOf t = [] ∧ d.graph.runs = c.graph.runs ∧ d.mem = c.mem
             ∧ (∀ m, m ≠ t → d.skeinsOf m = c.skeinsOf m))
       ∧ (pkExp p = true → c.noRuns t = false → (c.cancelAll t).noRuns t = false →
           exec .ctxClose s = .next (s.withCore ((c.cancelAll t).setQueue n { (c.cancelAll t).queue n with cur := .closeWait p t })))
       ∧ (∀ r, c.findRun t r.tag = some r → c.runsOf t = [r] →
           c.cancelAll t = (c.setRun { r with cancelled := true, cancelAt := some c.dclk }).stopRun t r.tag)))

/-- HANDLE_FLUSH of a range inside the handle table reads the entries of its range again: those of the relocation store of
the context in the range hold what the table now says, every other is as it was (R121). QUERY with a selector of Table 03-11,
a subject that exists and a destination of 64 bytes that the context may write: the record is written there, the reply is OK,
no byte outside the 64 changes (R88), and the record of selector 0x04 holds cmds, tasks and assigns (R329). -/
def Obligations.FlushAndQuery : Prop :=
  (∀ (s : State) (n : Nat) (p : Packet) (l : List RelocEnt), s.takes 0x04 n p = true →
     let c := s.core.taken n
     passes (step9 p (range 2 0 (decide (1 ≤ pf p 2 0 21) && decide (pf p 2 0 21 ≤ 2 ^ 20)))) = true →
     (c.ctx n).handleLog2 ≠ 0 → pf p 2 32 20 + pf p 2 0 21 ≤ 2 ^ (c.ctx n).handleLog2 →
     c.flushEntries n (pf p 2 32 20) (pf p 2 0 21) c.graph.reloc = .ok l →
     exec .handleFlush s = .next (s.replied n p vOk { c with graph := { c.graph with reloc := l } })
     ∧ l.length = c.graph.reloc.length
     ∧ (∀ i, i < c.graph.reloc.length → ∀ e x, c.graph.reloc[i]? = some e → l[i]? = some x →
         x.ctx = e.ctx ∧ x.idx = e.idx ∧ x.gen = e.gen
         ∧ (¬(e.ctx = n ∧ pf p 2 32 20 ≤ e.idx ∧ e.idx < pf p 2 32 20 + pf p 2 0 21) → x = e)
         ∧ (e.ctx = n → pf p 2 32 20 ≤ e.idx → e.idx < pf p 2 32 20 + pf p 2 0 21 →
             ∃ ws, c.readWords (fld (c.ctx n).htab 0 48 + 16 * e.idx) 2 = .ok ws
               ∧ x.region = (entryRegion (ws.getD 0 0) (ws.getD 1 0) e.gen false).map fun g => (g.write, g.base, g.size))))
  ∧ (∀ (s : State) (n : Nat) (p : Packet) (g : Region) (f : List Nat), s.takes 0xA0 n p = true →
       let c := s.core.taken n
       let sel := pf p 2 0 8
       passes (step9 p (range 2 0 (decide (sel ≤ 5)) ++ range 2 16 (sel != 3 || decide (pf p 2 16 32 < 1024)))) = true →
       c.handleParam n p 3 0 true 64 = .ok g → c.queryFigures s.sys n sel (pf p 2 16 32) = .ok f →
       c.writeFault g.base 64 = none → memWf c.mem = true →
       let d := c.writeBytes g.base (queryRecord sel f)
       exec .query s = .next (s.replied n p vOk d)
         ∧ memBytes d.mem g.base 64 = queryRecord sel f
         ∧ (∀ a, a < g.base ∨ g.base + 64 ≤ a → memGet d.mem a = memGet c.mem a)
         ∧ (sel = 4 → memWord d.mem g.base = w64 (c.ctx n).cmds ∧ memWord d.mem (g.base + 8) = w64 (c.ctx n).tasks
             ∧ memWord d.mem (g.base + 16) = w64 (c.ctx n).assigns))

/-- The range registers of a context that owns no skein or is CLOSED, with ranges inside their limits that overlap no other
context's, take the fields of the value; SZ_DLY_CTRL and SZ_SLACK_DEFAULT while no run is unfinished (R151, R185, R293). -/
def Obligations.RangeRegistersTaken : Prop :=
  (∀ (s : State) (n : Nat) (v : W64) (acc : Access), n < 64 → s.core.rangesFree n = true →
    (s.served (0x200000 + 0x1000 * n + 0x18) acc = true → fld v 0 36 + fld v 36 24 ≤ 2 ^ 36 →
      exec (.cxPeerSigrange n .peer v acc) s
        = .next (s.withCore (s.core.setCtx n { s.core.ctx n with peer := v &&& fields [(59, 0)] })))
    ∧ (s.served (0x200000 + 0x1000 * n + 0x20) acc = true → fld v 0 12 + fld v 16 13 ≤ 4096 →
      (∀ m, m < 64 → m ≠ n →
        overlaps (fld v 0 12) (fld v 16 13) (fld (s.core.ctx m).sigrange 0 12) (fld (s.core.ctx m).sigrange 16 13) = false) →
      exec (.cxPeerSigrange n .sigrange v acc) s
        = .next (s.withCore (s.core.setCtx n { s.core.ctx n with sigrange := v &&& fields [(28, 16), (11, 0)] })))
    ∧ (s.served (0x200028 + 0x1000 * n) acc = true → fld v 0 16 + fld v 16 17 ≤ 65536 →
      (∀ m, m < 64 → m ≠ n →
        overlaps (fld v 0 16) (fld v 16 17) (fld (s.core.ctx m).flowrange 0 16) (fld (s.core.ctx m).flowrange 16 17) = false) →
      exec (.flowrangeDlyCtrl (.flowrange n) v acc) s
        = .next (s.withCore (s.core.setCtx n { s.core.ctx n with flowrange := v &&& fields [(32, 0)] }))))
  ∧ (∀ (s : State) (v : W64) (acc : Access), s.core.allIdle = true →
    (s.served 0x240018 acc = true → fld v 0 5 ≤ 20 → fld v 5 5 ≤ 20 → fld v 10 5 ≤ 20 →
      exec (.flowrangeDlyCtrl .dlyCtrl v acc) s
        = .next (s.withCore { s.core with graph := { s.core.graph with dlyCtrl := v &&& fields [(63, 32), (14, 0)] } }))
    ∧ (s.served 0x240030 acc = true →
      exec (.slackDefault v acc) s
        = .next (s.withCore { s.core with graph := { s.core.graph with slack := v &&& fields [(47, 16), (15, 8)] } })))

/-! Register access -/

/-- The checks of R397 on a register write, in their order: one to a privileged region without privilege is an ISOLATION; one
to an offset without a register, or not served in BOOT, one without all byte enables, and one that the register's rule
ignores, leave only an ACCESS record, with the reason 1, 2 or 3. Fields that are read-write take the value,
write-one-to-clear fields are cleared where the value has a 1, but a flag whose set takes effect in the same PCLK stays set (R20,
R327), and all else stays (R20, R21): shown on SZ_FAULT_STATUS, SZ_STALL and SZ_Q_STATUS. -/
def Obligations.RegisterWrites : Prop :=
  (∀ (s : State) (off : Nat) (v : W64) (acc : Access), s.awake = true → off < 0x4000000 →
     (off % 8 = 0 ∧ absentReg s.core off = true → exec (.registerWrite off v acc) s = .next s)
     ∧ (¬(off % 8 = 0 ∧ absentReg s.core off = true) →
       ((acc.priv = false ∧ unprivOk off = false →
         exec (.registerWrite off v acc) s = .next (s.withCore (s.core.logAccess 4 off acc.priv true v)))
       ∧ ((acc.priv = true ∨ unprivOk off = true) →
         (readReg s.sys s.core off = none ∨ (s.sys.phase = .boot ∧ bootServed off = false) →
           exec (.registerWrite off v acc) s = .next (s.withCore (s.core.logAccess 1 off acc.priv true v)))
         ∧ (readReg s.sys s.core off ≠ none → ¬(s.sys.phase = .boot ∧ bootServed off = false) → acc.be ≠ 0xFF →
           exec (.registerWrite off v acc) s = .next (s.withCore (s.core.logAccess 2 off acc.priv true v)))
         ∧ (s.served off acc = true → s.core.writeReg off v acc = none →
           exec (.registerWrite off v acc) s = .next (s.withCore (s.core.logAccess 3 off acc.priv true v)))
         ∧ (s.served off acc = true → ∀ d, s.core.writeReg off v acc = some d →
           exec (.registerWrite off v acc) s = .next (s.withCore d))))))
  ∧ (∀ (s : State) (v : W64) (acc : Access) (i : Nat),
       (s.served 0x2400008 acc = true →
         ∃ t, exec (.registerWrite 0x2400008 v acc) s = .next t
           ∧ (i < 3 → bitAt t.core.watch.fault i = (bitAt s.core.watch.fault i && !(bitAt v i && !bitAt (s.core.marked 0x2400008) i)))
           ∧ (8 ≤ i → i < 11 → bitAt t.core.watch.fault i = bitAt v i)
           ∧ ((3 ≤ i ∧ i < 8 ∨ 11 ≤ i) → bitAt t.core.watch.fault i = bitAt s.core.watch.fault i)
           ∧ t.core.queues = s.core.queues ∧ t.core.mem = s.core.mem ∧ t.core.evt = s.core.evt)
       ∧ (s.served 0x2400010 acc = true →
         ∃ t, exec (.registerWrite 0x2400010 v acc) s = .next t
           ∧ (i < 64 → bitAt t.core.watch.stall i = (bitAt s.core.watch.stall i && !(bitAt v i && !bitAt (s.core.marked 0x2400010) i)))
           ∧ t.core.queues = s.core.queues ∧ t.core.mem = s.core.mem ∧ t.core.evt = s.core.evt)
       ∧ (∀ n, n < 64 → s.served (0x100018 + 0x1000 * n) acc = true →
         ∃ t, exec (.registerWrite (0x100018 + 0x1000 * n) v acc) s = .next t
           ∧ (i < 3 → bitAt (t.core.queue n).status i = (bitAt (s.core.queue n).status i && !(bitAt v i && !bitAt (s.core.marked (0x100018 + 0x1000 * n)) i)))
           ∧ (4 ≤ i → i < 7 → bitAt (t.core.queue n).status i = bitAt v i)
           ∧ (7 ≤ i ∨ i = 3 → bitAt (t.core.queue n).status i = bitAt (s.core.queue n).status i)
           ∧ (∀ m, m ≠ n → t.core.queue m = s.core.queue m) ∧ t.core.mem = s.core.mem ∧ t.core.evt = s.core.evt))

/-! Test and loop-back -/

/-- LOOPBACK_SET with no other context open and its checks passed sets the depth of the instance, or ends it; the packet has
its final reply OK (R380). SELFTEST whose checks pass is accepted, its result shows that it runs (R391); its end, and the
BIST instrument in BOOT, leave what the test found (R367, R391, R392). The registers of the Test and loop-back region (R395):
SZ_TL_REEL and SZ_TL_LINK_p take a legal value while their loop-backs are off, SZ_TL_STUB_CTRL a stub_eclk that is not zero
while every engine group is in normal use. A wire-test record without a return after 2^16 ECLK is an error of its group, and
its port is free (R387). -/
def Obligations.TestsAndLoopbacks : Prop :=
  ((∀ (s : State) (n : Nat) (p : Packet), s.takes 0x80 n p = true →
     let c := s.core.taken n
     let iface := pf p 2 0 8
     let depth := pf p 2 8 8
     let inst := pf p 2 16 8
     c.otherOpen = false → passes (step9 p (c.loopFaults p)) = true →
     (iface = 3 → c.noRuns 0 = true ∧ c.groupPorts inst ≠ []) → (iface = 4 → depth < 4 ∨ c.planned inst = true) →
     (pb p 3 0 = true → c.depth iface inst = 0 →
       ∃ d, exec .loopbackSet s = .next (s.replied n p vOk d) ∧ d = c.loopBegin iface inst depth
         ∧ (iface ≠ 1 → d.depth iface inst = depth) ∧ (iface = 1 → d.tl.echoOn = true) ∧ d.mem = c.mem)
     ∧ (pb p 3 0 = false → c.depth iface inst ≠ 0 → c.depth iface inst = depth →
       ∃ d, exec .loopbackSet s = .next (s.replied n p vOk d) ∧ d = c.loopEnd iface inst ∧ d.depth iface inst = 0
         ∧ d.mem = c.mem))
   ∧ (∀ (s : State) (n : Nat) (p : Packet), s.takes 0x81 n p = true →
     let c := s.core.taken n
     let sel := pf p 2 0 8
     c.otherOpen = false → ¬(sel = 2 ∧ s.sys.lcs = .locked) → passes (step9 p (range 2 0 ([1, 2, 0x10, 0x11, 0x20].contains sel))) = true →
     c.tl.self = none → ((sel = 1 ∨ sel = 2) → c.owns n = false ∧ c.anyLoop = false) → (sel = 0x10 → c.noRuns n = true) →
     (sel = 0x11 → ∀ t, t < 64 → (c.table t).tab = none) →
     ∃ w, exec .selftest s = .next (s.acceptedWith n p { c with tl := { c.tl with
         result := w, self := some { sel := sel, tag := pkTag p, irq := pkIrq p, atTime := s.core.now } } })
       ∧ fld w 56 8 = sel ∧ fld w 48 8 = 2)
   ∧ (∀ (s : State) (o : TestOutcome) (r : SelfRun), s.running = true → s.core.fe.stopped = false → s.core.tl.self = some r →
     ∃ t, exec (.selftestEnd o) s = .next t ∧ t.core.tl.self = none ∧ fld t.core.tl.result 56 8 = r.sel % 256
       ∧ fld t.core.tl.result 48 8 = b2n (TestOutcome.fails o r.sel)
       ∧ (t.core.queue 0).compl = ((s.core.queue 0).compl + 1) % 2 ^ 64
       ∧ (r.sel = 1 ∨ r.sel = 2 → t.core.graph.badBanks = s.core.withdrawn o.badGraph ∧ t.core.graph.reloc = [])
       ∧ (r.sel = 0x20 → TestOutcome.fails o 0x20 = true → s.sys.hg = .booted → t.sys.hg = .error)
       ∧ ((r.sel ≠ 0x20 ∨ TestOutcome.fails o 0x20 = false) → t.sys.hg = s.sys.hg) ∧ t.sys.phase = s.sys.phase
       ∧ t.core.mem = s.core.mem ∧ (∀ m, m ≠ 0 → t.core.queue m = s.core.queue m))
   ∧ (∀ (s : State) (o : TestOutcome), s.sys.phase = .boot →
     (s.sys.lcs = .manufacture ∨ s.sys.lcs = .locked ∨ (s.sys.lcs = .development ∧ s.sys.unlockNet = true)) →
     ∃ t, exec (.bistInstrument o) s = .next t ∧ t.sys.repairs = s.sys.repairs + o.repaired
       ∧ t.sys.bistResult = some (!TestOutcome.fails o 2, o.repaired) ∧ t.sys.phase = .boot
       ∧ t.core.graph.badBanks = s.core.withdrawn o.badGraph ∧ t.core.queues = s.core.queues
       ∧ t.core.mem = s.core.mem))
  ∧ ((∀ (s : State) (v : W64) (acc : Access),
       (s.served 0x2000010 acc = true → agetD s.core.tl.reelDepth 0 0 = 0 → agetD s.core.tl.reelDepth 1 0 = 0 →
         ringOk (v &&& fields [(58, 54), (49, 48), (47, 12)]) 30 = true →
         exec (.testLoopbackRegisters .tlReel v acc) s
           = .next (s.withCore { s.core with tl := { s.core.tl with reel := v &&& fields [(58, 54), (49, 48), (47, 12)] } }))
       ∧ (s.served 0x2000028 acc = true → (∀ g, g < 16 → agetD s.core.tl.engDepth g 0 = 0) → fld v 0 16 ≠ 0 →
         exec (.testLoopbackRegisters .stubCtrl v acc) s
           = .next (s.withCore { s.core with tl := { s.core.tl with stub := v &&& fields [(15, 0)] } }))
       ∧ (∀ p, p < s.core.cfg.linkPorts → s.served (0x2000400 + 32 * p) acc = true → agetD s.core.tl.linkDepth p 0 = 0 →
         fld v 54 5 ∈ [1, 2, 4, 8, 16] → fld v 52 2 ≠ 3 →
         exec (.testLoopbackRegisters (.tlLink p) v acc) s
           = .next (s.withCore { s.core with tl := { s.core.tl with
               link0 := aset s.core.tl.link0 p (v &&& fields [(58, 52)]) } })))
     ∧ (∀ (s : State) (e : Nat) (r : PortRec), s.running = true → s.core.wireRec e = some r → r.at_ + 2 + 2 * 65536 ≤ s.core.now →
       ∃ t, exec (.engineWireTimeout e) s = .next t ∧ (t.core.port e).out = none
         ∧ fld (agetD t.core.tl.eng0 (e / 64) 0) 0 32
             = min (fld (agetD s.core.tl.eng0 (e / 64) 0) 0 32 + 1) (2 ^ 32 - 1)
         ∧ (∀ m, m ≠ e → t.core.port m = s.core.port m) ∧ t.core.mem = s.core.mem ∧ t.core.graph = s.core.graph))

/-! Clocks, power and progress -/

/-- The drift window keeps the last difference of its DCLK cycles from 2^24 and the worst, and beyond the limit flags and counts
drift_over; the next window begins (R54); a count that is not that of the window changes nothing. The absence of CK_REF for 2^20 DCLK is flagged, and the window begins again (R54); before,
the command changes nothing. Reads (R20, R22, R28, R30): a read of SZ_CLK_DRIFT clears worst_diff, unless a window ended in the same
PCLK (Table 02-2); any other leaves the registers as they are; one without privilege outside its regions reads zero with an
ISOLATION record; each waits for its response behind the earlier ones, which comes 6 PCLK after it was accepted at the earliest. The
watch for progress (R329 to R331, R340): at the end of a period each queue's has_work and stall_run are set anew, and a queue whose
stall_run reaches the limit in an episode not yet reported is flagged in SZ_STALL; the next period follows without gap.
SZ_WATCH_CTRL keeps a field that is written zero, and records that write. -/
def Obligations.DriftAndWatch : Prop :=
  (∀ s : State, s.awake = true →
     (let diff : Int := ((s.core.dclk - s.core.clk.winAt : Nat) : Int) - 16777216
      let beyond := fld s.core.clk.ctrl 16 16 < diff.natAbs
      ∃ t, exec (.driftWindow (s.core.dclk - s.core.clk.winAt)) s = .next t ∧ bitAt t.core.clk.status 0 = true ∧ t.core.clk.winAt = s.core.dclk
       ∧ fld t.core.clk.drift 32 32 = twos 32 diff
       ∧ fld t.core.clk.drift 0 32 = (if (signed 32 (fld s.core.clk.drift 0 32)).natAbs < diff.natAbs
           then twos 32 diff else fld s.core.clk.drift 0 32)
       ∧ (beyond → bitAt t.core.clk.status 2 = true ∧ fld t.core.clk.status 8 8 = min (fld s.core.clk.status 8 8 + 1) 255)
       ∧ (¬beyond → bitAt t.core.clk.status 2 = bitAt s.core.clk.status 2 ∧ t.core.evt = s.core.evt)
       ∧ t.core.queues = s.core.queues ∧ t.core.mem = s.core.mem)
     ∧ (∀ m, m ≠ s.core.dclk - s.core.clk.winAt → exec (.driftWindow m) s = .next s)
     ∧ (s.core.clk.winAt + 2 ^ 20 ≤ s.core.dclk →
         ∃ t, exec .refAbsent s = .next t ∧ bitAt t.core.clk.status 1 = true ∧ t.core.clk.drift = s.core.clk.drift
           ∧ t.core.clk.winAt = s.core.dclk ∧ t.core.queues = s.core.queues ∧ t.core.mem = s.core.mem)
     ∧ (s.core.dclk < s.core.clk.winAt + 2 ^ 20 → exec .refAbsent s = .next s))
  ∧ (∀ (s : State) (tag : Nat) (priv : Bool),
       let asked : Core → W64 → Core := fun c w => { c with df := { c.df with
         reads := c.df.reads ++ [{ tag := tag, data := w, at_ := s.core.now }] } }
       (s.served 0x10008 { be := 0xFF, priv := priv } = true →
         (s.core.clk.setAt ≠ some s.core.pclk →
           exec (.worstDiffRead 0x10008 tag priv) s = .next (s.withCore (asked
             { s.core with clk := { s.core.clk with drift := setFld s.core.clk.drift 0 32 0 } } s.core.clk.drift)))
         ∧ (s.core.clk.setAt = some s.core.pclk →
           ∃ w, exec (.worstDiffRead 0x10008 tag priv) s = .next (s.withCore (asked
               { s.core with clk := { s.core.clk with drift := w } } s.core.clk.before))
             ∧ fld w 0 32 = fld s.core.clk.drift 32 32 ∧ fld w 32 32 = fld s.core.clk.drift 32 32))
       ∧ (∀ off w, s.served off { be := 0xFF, priv := priv } = true → readReg s.sys s.core off = some w →
           off ≠ 0x10008 → off ≠ 0x20008 → off ≠ 0x800000 →
           exec (.worstDiffRead off tag priv) s = .next (s.withCore (asked s.core w)))
       ∧ (∀ off, s.awake = true → ¬(off % 8 = 0 ∧ absentReg s.core off = true) → priv = false → unprivOk off = false →
           exec (.worstDiffRead off tag priv) s = .next (s.withCore (asked (s.core.logAccess 4 off false false 0) 0))))
  ∧ (∀ (c : Core) (r : RegRead) (l : List RegRead), c.df.reads = r :: l →
       (r.at_ / 4 + 6 ≤ c.pclk → c.answerRead = { c with df := { c.df with reads := l, rsp := some (r.tag, r.data) } })
       ∧ (c.pclk < r.at_ / 4 + 6 → c.answerRead = { c with df := { c.df with rsp := none } }))
  ∧ ((∀ s : State, s.running = true → s.core.watch.endAt ≤ s.core.now →
       ∃ t, exec .watchPeriodEnd s = .next t ∧ t.core.watch.endAt = s.core.watch.endAt + t.core.watchTime
         ∧ (∀ n, n < 64 →
             (t.core.ctx n).hasWork = s.core.queueHasWork n ∧ (t.core.ctx n).progressed = false
             ∧ (t.core.ctx n).stallRun = (if s.core.queueHasWork n && !(s.core.ctx n).progressed
                 then min ((s.core.ctx n).stallRun + 1) 255 else 0)
             ∧ ((s.core.ctx n).stallTold = false → 0 < (t.core.ctx n).stallRun →
                 fld s.core.watch.ctrl 16 8 ≤ (t.core.ctx n).stallRun →
                 bitAt t.core.watch.stall n = true ∧ (t.core.ctx n).stallTold = true)
             ∧ (bitAt s.core.watch.stall n = true → bitAt t.core.watch.stall n = true))
         ∧ t.core.queues = s.core.queues ∧ t.core.graph = s.core.graph ∧ t.core.mem = s.core.mem)
     ∧ (∀ (s : State) (v : W64) (acc : Access), s.served 0x2400018 acc = true →
       ∃ w, exec (.watchCtrl v acc) s = .next (s.withCore
           (if fld v 0 16 = 0 ∨ fld v 16 8 = 0 then
              ({ s.core with watch := { s.core.watch with ctrl := w } } : Core).logAccess 3 0x2400018 acc.priv true v
            else { s.core with watch := { s.core.watch with ctrl := w } }))
         ∧ bitAt w 24 = bitAt v 24
         ∧ fld w 16 8 = (if fld v 16 8 = 0 then fld s.core.watch.ctrl 16 8 else fld v 16 8)
         ∧ fld w 0 16 = (if fld v 0 16 = 0 then fld s.core.watch.ctrl 0 16 else fld v 0 16)
         ∧ fld w 48 16 = fld s.core.watch.ctrl 48 16))

/-- The power port (R43, R68, R69): a changed sum is requested when no request waits and none fell in this SCLK; a grant is kept for
the next SCLK edge, at which it takes force and the request falls; a run counts for the request pw_lead before its start. PW_THROTTLE
rising sets its flag and its count, and withdraws the start granted in this ECLK (while PORST_N is asserted only its level is kept);
starts resume in the window after its fall (R62, R69). The ramp governor (R64, R65, R66): a window opens with its whole allowance; at
an ECLK edge, within the allowance and the budget, the start that is first in order is granted, and at the end of that ECLK an enable
raises ENG_EN; a start that the budget does not admit waits, and budget_low says so once for each (the model's reading: assumption
log 15). SZ_RAMP_CTRL is taken while no other context is open and no run is unfinished, the starts of an open window counting on. -/
def Obligations.PowerAndRamp : Prop :=
  (∀ s : State, s.running = true →
     (s.core.pwr.reqValid = false → s.core.powerSum ≠ s.core.pwr.sumSent →
       (∀ t, s.core.pwr.fellAt = some t → t / 48 ≠ s.core.now / 48) →
       exec .powerRequest s = .next (s.withCore { s.core with pwr := { s.core.pwr with
         reqValid := true, sumSent := s.core.powerSum, status := setFld s.core.pwr.status 32 16 s.core.powerSum } }))
     ∧ (∀ amps, amps < 2 ^ 16 →
         exec (.powerGrant amps) s = .next (s.withCore { s.core with pwr := { s.core.pwr with
           grantNext := some (amps, s.core.now / 48 * 48 + 48),
           reqDropAt := if s.core.pwr.reqValid then some (s.core.now / 48 * 48 + 48) else s.core.pwr.reqDropAt } }))
     ∧ (∀ n tag r, s.core.findRun n tag = some r → r.start ≤ s.core.gc.count + s.core.powerLead →
         exec (.powerRequestDue n tag) s = .next (s.withCore (s.core.setRun { r with counted := true })))
     ∧ (bitAt s.core.pwr.status 5 = true →
         exec .throttleFall s = .next (s.withCore { s.core with pwr := { s.core.pwr with
           status := setBit s.core.pwr.status 5 false, resumeAt := some (s.core.rampIndex + 1) } })))
  ∧ (∀ (c : Core) (a t : Nat), c.pwr.grantNext = some (a, t) → t ≤ c.now → a < 2 ^ 16 →
       fld c.sclkEdge.pwr.status 48 16 = a ∧ c.sclkEdge.pwr.grantNext = none
       ∧ (∀ u, c.pwr.reqDropAt = some u → u ≤ c.now → c.sclkEdge.pwr.reqValid = false ∧ c.sclkEdge.pwr.fellAt = some c.now))
  ∧ (∀ s : State,
       (s.sys.porst = false → ∃ t, exec .throttleRise s = .next t ∧ bitAt t.core.pwr.status 5 = true
         ∧ bitAt t.core.pwr.status 3 = true ∧ fld t.core.pwr.status 16 16 = min (fld s.core.pwr.status 16 16 + 1) (2 ^ 16 - 1)
         ∧ t.core.pwr.granted = none ∧ t.core.mem = s.core.mem ∧ t.sys = s.sys)
       ∧ (s.sys.porst = true →
           exec .throttleRise s = .next (s.withCore { s.core with pwr := { s.core.pwr with status := setBit s.core.pwr.status 5 true } }))
       ∧ (s.sys.phase ≠ .run →
           exec .throttleFall s = .next (s.withCore { s.core with pwr := { s.core.pwr with status := setBit s.core.pwr.status 5 false } })))
  ∧ ((∀ s : State, s.running = true →
       (s.core.pwr.windowAt ≠ some s.core.rampIndex →
         exec .rampWindow s = .next (s.withCore { s.core with pwr := { s.core.pwr with
           windowAt := some s.core.rampIndex, startsUsed := 0 } }))
       ∧ (∀ w, s.core.now % 2 = 0 → bitAt s.core.pwr.status 5 = false →
           (∀ k, s.core.pwr.resumeAt = some k → k ≤ s.core.rampIndex) →
           s.core.startsUsed < fld s.core.pwr.ramp 0 7 → s.core.pwr.grantAt ≠ some (s.core.now / 2) → s.core.nextStart = some w →
           let d : Core := { s.core with pwr := { s.core.pwr with
             waits := removeFirst (fun x => x == w) s.core.pwr.waits, windowAt := some s.core.rampIndex,
             startsUsed := s.core.startsUsed + 1, grantAt := some (s.core.now / 2), granted := some w } }
           ((s.core.running + 1) * fld s.core.pwr.ramp 48 8 ≤ fld s.core.pwr.status 48 16 →
             exec .rampGrant s = .next (s.withCore
               (match w.kind with | .enable => d | .beat => d.setPort w.port { d.port w.port with waiting := false })))
           ∧ (fld s.core.pwr.status 48 16 < (s.core.running + 1) * fld s.core.pwr.ramp 48 8 → w.told = false →
             ∃ t, exec .rampGrant s = .next t ∧ bitAt t.core.pwr.status 4 = true
               ∧ t.core.pwr.waits = modifyFirst (fun x => x == w) (fun x => { x with told := true }) s.core.pwr.waits
               ∧ t.core.disp = s.core.disp ∧ t.core.mem = s.core.mem)
           ∧ (fld s.core.pwr.status 48 16 < (s.core.running + 1) * fld s.core.pwr.ramp 48 8 → w.told = true →
             exec .rampGrant s = .next s)))
     ∧ (∀ (c : Core) (w : StartReq), c.pwr.granted = some w → w.kind = .enable →
          c.grantEffect = ({ c with pwr := { c.pwr with granted := none } } : Core).setPort w.port
            { c.port w.port with en := true, issued := false })
     ∧ (∀ (s : State) (v : W64) (acc : Access), s.served 0x10030 acc = true → s.core.otherOpen = false → s.core.noRuns 0 = true →
       1 ≤ fld v 16 11 → fld v 16 11 ≤ 1024 → 1 ≤ fld v 0 7 → fld v 0 7 ≤ 64 → fld v 0 7 ≤ 3 * fld v 16 11 →
       let d : Core := { s.core with pwr := { s.core.pwr with ramp := v &&& fields [(63, 40), (26, 16), (6, 0)] } }
       exec (.rampCtrl v acc) s = .next (s.withCore { d with pwr := { d.pwr with
         windowAt := if s.core.pwr.windowAt = some s.core.rampIndex then some d.rampIndex else none } })))

/-- The event log (R325, R326, R340): while fewer than 1024 records are held a record takes entry wr modulo 1024 and its number,
behind those of earlier DCLK; one that comes before the last record of its own DCLK takes an earlier place, and that one moves
up. Else it is discarded, flagged and counted. rd may be moved up to wr and not beyond. The stash (R333 to R335, R340): an item enters
while fewer than 64 entries are held, with an entry and a STASH record, and else waits; moving rd up to wr frees entries, and the items
that wait enter in their order while there is room, each releasing its producer; with none waiting only rd changes. -/
def Obligations.LogAndStash : Prop :=
  ((∀ (c : Core) (cls : Nat) (w0 w1 w3 : W64),
     (diff32 c.evt.wr c.evt.rd < 1024 →
       (c.logRaw cls w0 w1 w3).evt.wr = (c.evt.wr + 1) % 2 ^ 32
       ∧ (∃ n, aget (c.logRaw cls w0 w1 w3).evt.recs (n % 1024) = some (EvtRec.mk cls n w0 w1 (w64 c.gc.count) w3 c.dclk))
       ∧ (c.logFresh = true →
           aget (c.logRaw cls w0 w1 w3).evt.recs (c.evt.wr % 1024) = some (EvtRec.mk cls c.evt.wr w0 w1 (w64 c.gc.count) w3 c.dclk)
           ∧ (∀ k, k ≠ c.evt.wr % 1024 → aget (c.logRaw cls w0 w1 w3).evt.recs k = aget c.evt.recs k))
       ∧ (∀ p, aget c.evt.recs ((c.evt.wr + 2 ^ 32 - 1) % 2 ^ 32 % 1024) = some p → p.at_ = c.dclk →
           keysLt (EvtRec.mk cls 0 w0 w1 0 w3 0).key p.key = true → c.evt.wr ≠ c.evt.rd → c.evt.wr < 2 ^ 32 → c.evt.rd < 2 ^ 32 →
           aget (c.logRaw cls w0 w1 w3).evt.recs (c.evt.wr % 1024) = some { p with num := c.evt.wr }))
     ∧ (1024 ≤ diff32 c.evt.wr c.evt.rd →
       (c.logRaw cls w0 w1 w3).evt = c.evt ∧ bitAt (c.logRaw cls w0 w1 w3).watch.fault 2 = true
       ∧ fld (c.logRaw cls w0 w1 w3).watch.fault 32 32 = min (fld c.watch.fault 32 32 + 1) (2 ^ 32 - 1))
     ∧ (c.logRaw cls w0 w1 w3).mem = c.mem ∧ (c.logRaw cls w0 w1 w3).graph = c.graph ∧ (c.logRaw cls w0 w1 w3).queues = c.queues)
   ∧ (∀ (s : State) (v : W64) (acc : Access), s.served 0x2400000 acc = true →
     diff32 (fld v 0 32) s.core.evt.rd ≤ diff32 s.core.evt.wr s.core.evt.rd →
     exec (.evtPtrs v acc) s = .next (s.withCore { s.core with evt := { s.core.evt with rd := fld v 0 32 } })))
  ∧ ((∀ (s : State) (v : W64) (acc : Access), s.served 0x2400020 acc = true →
       diff32 (fld v 0 32) s.core.stash.rd ≤ diff32 s.core.stash.wr s.core.stash.rd → s.core.stash.waiting = [] →
       exec (.stashPtrs v acc) s = .next (s.withCore { s.core with stash := { s.core.stash with rd := fld v 0 32 } }))
     ∧ (∀ (s : State) (v : W64) (acc : Access) (x : StashItem × StashWaiter), s.served 0x2400020 acc = true →
       diff32 (fld v 0 32) s.core.stash.rd ≤ diff32 s.core.stash.wr s.core.stash.rd → s.core.stash.waiting = [x] →
       diff32 s.core.stash.wr (fld v 0 32) < 64 → (∀ k, x.2 = .port k →
       exec (.stashPtrs v acc) s = .next (s.withCore
         (({ s.core with stash := { s.core.stash with rd := fld v 0 32, waiting := [] } } : Core).stashEnter x.1))))
     ∧ (∀ (k : Nat) (c : Core) (x : StashItem × StashWaiter) (rest : List (StashItem × StashWaiter)), c.stash.waiting = x :: rest →
       (c.stashHeld < 64 → Core.stashAdmit (k + 1) c
         = Core.stashAdmit k ((({ c with stash := { c.stash with waiting := rest } } : Core).stashEnter x.1).stashRelease x.2))
       ∧ (64 ≤ c.stashHeld → Core.stashAdmit (k + 1) c = c))
     ∧ (∀ (c : Core) (i : StashItem) (w : StashWaiter), c.stashHeld < 64 → c.stash.waiting = [] →
       (c.stashPut i w).2 = true ∧ (c.stashPut i w).1.stash.wr = (c.stash.wr + 1) % 2 ^ 32
       ∧ aget (c.stashPut i w).1.stash.ents (c.stash.wr % 64) = some (stashWords i c.gc.count)
       ∧ bitAt (c.stashPut i w).1.stash.status 0 = true ∧ (c.stashPut i w).1.mem = c.mem
       ∧ (diff32 c.evt.wr c.evt.rd < 1024 → c.logFresh = true →
           ∃ r, aget (c.stashPut i w).1.evt.recs (c.evt.wr % 1024) = some r ∧ r.cls = 5))
     ∧ (∀ (c : Core) (i : StashItem) (w : StashWaiter), 64 ≤ c.stashHeld →
       (c.stashPut i w).2 = false ∧ (c.stashPut i w).1.stash.ents = c.stash.ents
       ∧ (c.stashPut i w).1.stash.waiting.length = c.stash.waiting.length + 1 ∧ bitAt (c.stashPut i w).1.stash.status 1 = true))

/-! Skeins -/

/-- SKEIN_LOAD of an image that passes every check of Table 05-10, with room for its reservation and Hedge up: the skein stands
under its name with the records of the image, every other skein keeps its records, no run changes, no byte of memory outside the
spill region changes, and the reply is OK (R131, R132). -/
def Obligations.SkeinLoadAddsSkein : Prop :=
  ∀ (s : State) (n : Nat) (p : Packet) (image spill : Region) (h ws : List W64), s.takes 0x10 n p = true →
    let c := s.core.taken n
    let nodes := pf p 3 0 21
    let id := pf p 2 32 10
    let k := skeinOf n id nodes image.base spill.base spill.size h ws
    let m : Image := { skein := k, heads := (scanImage k.recs nodes 0).1, stray := (scanImage k.recs nodes 0).2 }
    let reserved := (if pkExp p && pb p 4 32 then k.pages
      else ceilDiv (if pkExp p then min (pf p 4 0 21) nodes else min nodes 128) 128) + b2n k.hasReplay
    passes (step9 p (range 3 0 (decide (1 ≤ nodes) && decide (nodes ≤ 2 ^ 20)))) = true →
    c.handleParam n p 2 0 false 0 = .ok image → c.handleParam n p 3 32 true (ceilDiv nodes 128 * 4160) = .ok spill →
    c.skein n id = none → c.readFor 2 image.base 8 = .ok h → imageEnd h nodes ≤ image.size → passes (headerCheck h nodes) = true →
    c.readFor 2 image.base (8 + 8 * ceilDiv (fld (h.getD 1 0) 55 9) 16 + 4 * nodes) = .ok ws → c.imageCheck n m = none →
    reserved ≤ c.pageFree → nodes ≤ c.stateFree → s.sys.hedgeDown = false →
    c.writeFault spill.base (4160 * ceilDiv nodes 128) = none →
    ∃ d q, exec .skeinLoad s = .next (s.replied n p vOk d) ∧ d.skein n id = some q ∧ q.recs = k.recs ∧ q.nodeCount = nodes
      ∧ q.handles = k.handles ∧ q.enqLimit = k.enqLimit ∧ q.hasReplay = k.hasReplay ∧ q.reserved = reserved
      ∧ q.spillAt = spill.base ∧ d.graph.runs = c.graph.runs ∧ d.ctxs = c.ctxs ∧ d.queues = c.queues
      ∧ (∀ a, a < spill.base ∨ spill.base + 4160 * ceilDiv nodes 128 ≤ a → memGet d.mem a = memGet c.mem a)
      ∧ (∀ j i x, c.skein j i = some x → ∃ y, d.skein j i = some y ∧ y.recs = x.recs ∧ y.params = x.params)

/-- SKEIN_UNLOAD of a loaded skein without an unfinished run and without a receive end that names it removes it; SKEIN_PATCH of one
with a replay program writes its parameter registers from the first named (R87, R133). PAGE_REFILL of a page that is not resident,
whose spill authenticates and for which the store has room, makes it resident, and the tasks that waited for it are offered
again; one that does not authenticate sets auth_fail and is not made resident, and the task that needed it faults, if one does
(R134, R364). -/
def Obligations.SkeinUnloadPatchAndRefill : Prop :=
  ((∀ (s : State) (n : Nat) (p : Packet), s.takes 0x11 n p = true →
     let c := s.core.taken n
     let id := pf p 2 32 10
     passes (step9 p []) = true → (c.skein n id).isSome = true → c.skeinIdle n id = true → c.skeinRead n id = false →
     ∃ d, exec .skeinUnload s = .next (s.replied n p vOk d) ∧ d.skein n id = none
       ∧ (∀ j i, ¬(j = n ∧ i = id) → d.skein j i = c.skein j i) ∧ d.graph.runs = c.graph.runs ∧ d.mem = c.mem)
   ∧ (∀ (s : State) (n : Nat) (p : Packet) (k : Skein), s.takes 0x12 n p = true →
     let c := s.core.taken n
     let id := pf p 2 32 10
     let first := pf p 3 0 8
     let cnt := pkLen p - 4
     passes (step9 p (range 3 0 (decide (first + cnt ≤ 256)))) = true → c.skein n id = some k → c.skeinIdle n id = true →
     k.hasReplay = true →
     ∃ d q, exec .skeinPatch s = .next (s.replied n p vOk d) ∧ d.skein n id = some q ∧ q.recs = k.recs
       ∧ (∀ i, i < cnt → aget q.params (first + i) = some (pw p (4 + i)))
       ∧ (∀ j, j < first ∨ first + cnt ≤ j → aget q.params j = aget k.params j)
       ∧ (∀ j i, ¬(j = n ∧ i = id) → d.skein j i = c.skein j i) ∧ d.graph.runs = c.graph.runs ∧ d.mem = c.mem))
  ∧ (∀ (s : State) (n id page : Nat) (k : Skein) (r : Run) (bs : List Byte), s.running = true → s.core.skein n id = some k →
       s.core.runOfSkein n id = some r → page < k.pages → k.resident.contains page = false → s.sys.hedgeDown = false →
       s.core.readBytes (k.spillAt + 4160 * page) 4160 = .ok bs →
       let c1 : Core := { s.core with graph := { s.core.graph with skeins := s.core.graph.skeins.map fun q =>
         if q.ctx = n ∧ q.id = id then { q with resident := insertBy (fun a b => decide (a < b)) page q.resident } else q } }
       (k.pageAuthentic s.sys.keys page bs = true → c1.pagesUsed + c1.graph.badPages ≤ c1.cfg.storePages →
         exec (.pageRefill n id page) s = .next (s.withCore (c1.activateRun r)))
       ∧ (k.pageAuthentic s.sys.keys page bs = false → s.core.pageNeeder k page = none →
         ∃ t, exec (.pageRefill n id page) s = .next t ∧ bitAt t.core.hedge.evt 1 = true ∧ t.core.graph = s.core.graph
           ∧ t.core.mem = s.core.mem)
       ∧ (∀ x, k.pageAuthentic s.sys.keys page bs = false → s.core.pageNeeder k page = some x →
         exec (.pageRefill n id page) s
           = .next (s.withCore (((s.core.setHedge 1).logHedge 6 0x30 0 n).faultPlain x .authFail 1))))

/-- SKEIN_UNLOAD of a loaded skein that an open receive end of its context names as handler_skein is refused with STATE_ERROR 0x05, and
nothing but its final reply comes of it (R234). -/
def Obligations.UnloadRefusedWhileReceiveEndNames : Prop :=
  ∀ (s : State) (n : Nat) (p : Packet) (ch : Nat) (r : ChanRx), s.takes 0x11 n p = true →
    let c := s.core.taken n
    let id := pf p 2 32 10
    passes (step9 p []) = true → (c.skein n id).isSome = true → (c.chan ch).rx = some r → r.ctx = n → r.skein = id →
    exec .skeinUnload s = .next (s.replied n p { status := .stateError, detail := 5 } c)

/-! Runs -/

/-- LAUNCH and LAUNCH_AT whose skein is loaded without a run, whose tag is unused, whose handles, cut entries and collectives
are good and for which there is room: one run joins the unfinished ones, with one WAITING task for each head; the packet is
accepted; LAUNCH then starts what has reached its count, LAUNCH_AT, on an aligned count and at least 16384 ahead, leaves it for its
count (R87, R92, R277). REPLAY of a skein with a replay program whose handles resolve and for which there is room: a run with the
program's steps up to its END joins the unfinished ones, is accepted and begins (R150). INSTANCE_START at or after the start
count of a run starts it and offers its tasks (R135, R277). -/
def Obligations.LaunchAndReplay : Prop :=
  (∀ (s : State) (n : Nat) (p : Packet) (cb : Option Region) (k : Skein) (cbuf : Option (Nat × Nat)) (l : List RelocEnt),
     let c := s.core.taken n
     ((pf p 2 0 32 = noHandle ∧ cb = none) ∨ (pf p 2 0 32 ≠ noHandle ∧ ∃ g, c.handleParam n p 2 0 false 0 = .ok g ∧ cb = some g)) →
     c.launchNamed n p = .ok k → constCheck k cb = .ok cbuf →
     c.resolveList n (pkBase p) (k.handles.zipIdx.map fun x => (x.2, x.1)) = .ok l →
     (∀ i, i ∈ c.cutNodes n k.id → k.isHead i = true) →
     (c.slotsOf n k.id).findSome? (c.slotCheck n k (c.launchRegion n l)) = none → passes (c.launchRoom n k l) = true →
     ((s.takes 0x20 n p = true → passes (step9 p []) = true →
       ∃ r, exec .launch s = .next (s.withCore (((c.addRun n r l).acceptedReply n p).startDue))
         ∧ r.ctx = n ∧ r.tag = pkTag p ∧ r.skein = k.id ∧ r.start = c.gc.count ∧ r.started = false ∧ r.cbuf = cbuf
         ∧ r.tasks.length = k.heads.length ∧ (∀ t, t ∈ r.tasks → t.st = .waiting ∧ t.node ∈ k.heads))
     ∧ (s.takes 0x21 n p = true → bitAt c.gc.status 0 = true → c.gc.count + 16384 ≤ (pw p 3).toNat → passes (step9 p []) = true →
       ∃ r, exec .launchAt s = .next (s.acceptedWith n p (c.addRun n r l))
         ∧ r.ctx = n ∧ r.tag = pkTag p ∧ r.skein = k.id ∧ r.start = (pw p 3).toNat ∧ r.started = false ∧ r.cbuf = cbuf
         ∧ r.tasks.length = k.heads.length ∧ (∀ t, t ∈ r.tasks → t.st = .waiting ∧ t.node ∈ k.heads))))
  ∧ ((∀ (s : State) (n : Nat) (p : Packet) (k : Skein) (l : List RelocEnt) (ws : List W64), s.takes 0x22 n p = true →
       let c := s.core.taken n
       passes (step9 p []) = true → c.launchNamed n p = .ok k → k.hasReplay = true →
       c.resolveList n 0 (k.handles.zipIdx.map fun x => (x.2, x.1)) = .ok l → c.unfinished n < 64 →
       (c.newReloc n l).length ≤ c.relocFree → c.readFor 2 k.replayAt (4 * (k.replaySteps + 1)) = .ok ws →
       ∃ r, exec .replay s = .next (s.withCore (((c.addRun n r l).acceptedReply n p).startReplays))
         ∧ r.ctx = n ∧ r.tag = pkTag p ∧ r.skein = k.id ∧ r.kind = .replay ∧ r.pc = 0 ∧ r.tasks = []
         ∧ r.steps = replaySteps (k.replaySteps + 1) ws)
     ∧ (∀ (s : State) (n tag : Nat) (r : Run), s.running = true → s.core.findRun n tag = some r → r.started = false → r.cut = false →
       r.start ≤ s.core.gc.count →
       exec (.instanceStart n tag) s
         = .next (s.withCore (((s.core.setRun { r with started := true }).activateRun { r with started := true }).settle n tag))))

/-- CANCEL of an unfinished run: the run stops as cancelled; with nothing of it left the reply is OK, else the packet holds
its queue (R91, R148). STOP_AT with no stop armed is accepted, and arms its point; a count that is past stops the context at once, with
the final reply of the STOP_AT. STOP_COUNT at an armed count makes the context STOPPED with timing_broken, disarms, and finalises the
reply of the STOP_AT. RESUME makes a STOPPED or HALTED context OPEN; in an OPEN one with a stop armed,
a stop whose point falls in this DCLK is taken first and the context then goes OPEN again, and one that does not is disarmed, with the
final reply of its STOP_AT (R82, R90, R91, R285). The detail of a run's final reply: the first faulting node, and the
bits for timing, cancel and deadline (R91, Table 03-4). -/
def Obligations.CancelStopAndResume : Prop :=
  (∀ (s : State) (n : Nat) (p : Packet) (r : Run), s.takes 0x24 n p = true →
     let c := s.core.taken n
     let c1 := (c.setRun { r with cancelled := true, cancelAt := some c.dclk }).stopRun n (pf p 2 0 32)
     passes (step9 p []) = true → c.findRun n (pf p 2 0 32) = some r →
     (c1.findRun n (pf p 2 0 32) = none → exec .cancel s = .next (s.replied n p vOk c1))
     ∧ (c1.findRun n (pf p 2 0 32) ≠ none →
       exec .cancel s = .next (s.withCore (c1.setQueue n { c1.queue n with cur := .cancelWait p (pf p 2 0 32) }))))
  ∧ ((∀ (s : State) (n : Nat) (p : Packet), n < 64 → s.takes 0x26 n p = true →
       let c := s.core.taken n
       (c.ctx n).stop = none →
       (pb p 2 0 = false → passes (step9 p []) = true → c.gc.count < (pw p 3).toNat →
         exec .stopAt s = .next (s.acceptedWith n p (c.setCtx n { c.ctx n with
           stop := some { point := .atCount (pw p 3).toNat, tag := pkTag p, irq := pkIrq p } })))
       ∧ (pb p 2 0 = false → passes (step9 p []) = true → (pw p 3).toNat ≤ c.gc.count → (c.ctx n).st = .opened →
         ∃ t, exec .stopAt s = .next t ∧ (t.core.ctx n).st = .stopped ∧ (t.core.ctx n).stop = none
           ∧ bitAt (t.core.ctx n).det 1 = true ∧ (t.core.queue n).compl = ((s.core.queue n).compl + 1) % 2 ^ 64
           ∧ (∀ m, m ≠ n → t.core.ctx m = s.core.ctx m ∧ t.core.queue m = s.core.queue m) ∧ t.core.mem = s.core.mem)
       ∧ (∀ k, pb p 2 0 = true → passes (step9 p (reservedIn p 3 (fields [(19, 0)]))) = true → c.skein n (pf p 2 32 10) = some k →
         pf p 3 0 20 < k.nodeCount →
         exec .stopAt s = .next (s.acceptedWith n p (c.setCtx n { c.ctx n with
           stop := some { point := .atNode k.id (pf p 3 0 20), tag := pkTag p, irq := pkIrq p } }))))
     ∧ (∀ (s : State) (n k : Nat) (a : StopArm), n < 64 → s.running = true → s.core.fe.stopped = false → (s.core.ctx n).stop = some a → a.point = .atCount k →
       k ≤ s.core.gc.count → (s.core.ctx n).st = .opened →
       ∃ t, exec (.stopCount n) s = .next t ∧ (t.core.ctx n).st = .stopped ∧ (t.core.ctx n).stop = none
         ∧ bitAt (t.core.ctx n).det 1 = true ∧ (t.core.queue n).compl = ((s.core.queue n).compl + 1) % 2 ^ 64
         ∧ (∀ m, m ≠ n → t.core.ctx m = s.core.ctx m) ∧ t.core.mem = s.core.mem)
     ∧ (∀ (s : State) (n : Nat) (p : Packet), s.takes 0x27 n p = true →
       let c := s.core.taken n
       passes (step9 p []) = true → (c.ctx n).stop = none → ((c.ctx n).st = .stopped ∨ (c.ctx n).st = .halted) →
       exec .resume s = .next (s.replied n p vOk (c.setCtx n { c.ctx n with st := .opened })))
     ∧ (∀ (s : State) (n : Nat) (p : Packet), s.takes 0x27 n p = true →
       let c := s.core.taken n
       passes (step9 p []) = true → (c.ctx n).st = .opened →
       (∀ a, (c.ctx n).stop = some a → c.stopHere n = true →
           exec .resume s = .next (s.replied n p vOk
             (Core.setCtx (c.stopReached n) n { (c.stopReached n).ctx n with st := .opened })))
       ∧ (∀ a, (c.ctx n).stop = some a → c.stopHere n = false →
           exec .resume s = .next (s.replied n p vOk
             ((c.setCtx n { c.ctx n with stop := none }).finalReply n a.tag { status := .ok, detail := 1 } a.irq false)))))
  ∧ (∀ r : Run, (r.firstFault = none → r.detail < 2 ^ 24 ∧ r.detail % 2 ^ 20 = 0)
       ∧ (∀ d node, r.firstFault = some (d, node) → r.detail % 2 ^ 20 = node % 2 ^ 20)
       ∧ (r.detail / 2 ^ 23 % 2 = b2n r.timing) ∧ (r.detail / 2 ^ 22 % 2 = b2n r.cancelled) ∧ (r.detail / 2 ^ 21 % 2 = b2n r.deadline))

/-! Completions -/

/-- TASK_COMPLETION (R142, Table 05-8): the first completion that is due, of a run that is not stopping, with nothing to wait for and no
cut, is taken, and its first step (its enqueue, or its action) follows in the next DCLK; one that waits for a step, a collective or a
send is deferred and starts them; an action that adds to a signal word adds its value and goes on to the edges, as a task without an
action does. -/
def Obligations.TaskCompletionSteps : Prop :=
  ∀ (s : State) (k : Comp) (r : Run) (t : Task) (g : Skein), s.running = true →
    s.core.nextComp (fun x => x == .due || x == .action) = some k → s.core.taskOf k.task = some (r, t) →
    s.core.skein r.ctx r.skein = some g →
    let h := s.core.headOf r t
    let steps := if k.matched then [] else s.core.stepsFor r t
    let colls := if k.matched then [] else s.core.collsFor r t
    let sends := if k.matched then [] else r.sendsFor t
    (k.stage = .due → r.stopping = false → steps = [] → colls = [] → sends = [] → s.core.clipTarget r.ctx = none →
      exec .taskCompletion s = .next (s.withCore (s.core.takeComp k r t h))
      ∧ (hExit h = false → (t.kind ≠ .static ∨ s.core.ordinal r.ctx r.skein t.node = 0) →
          s.core.takeComp k r t h = s.core.setComp { k with
            exited := false, stage := if hHasEnq h then .enq else .action, since := s.core.dclk + 1 }))
    ∧ (k.stage = .due → r.stopping = false → (∀ n, n ∈ sends → s.core.sendOpen r.ctx n = true) →
      ¬(steps = [] ∧ colls = [] ∧ sends = []) →
      exec .taskCompletion s = .next (s.withCore
        ((s.core.setComp { k with stage := .deferred, matched := true }).startDeferrals k.task k.d steps colls sends)))
    ∧ (k.stage = .action → hHasAction h = false →
      exec .taskCompletion s = .next (s.withCore (s.core.setComp { k with stage := .edges, since := s.core.dclk + 1 })))
    ∧ (k.stage = .action → hHasAction h = true → rf (g.actionRec t.node) 0 60 4 = 3 →
      ∃ u, exec .taskCompletion s = .next u
        ∧ u = s.withCore ((s.core.sigAdd (rf (g.actionRec t.node) 0 8 12) (w64 (rf (g.actionRec t.node) 2 0 64))).setComp
            { k with stage := .edges, since := s.core.dclk + 1 })
        ∧ u.core.sig (rf (g.actionRec t.node) 0 8 12) = s.core.sig (rf (g.actionRec t.node) 0 8 12) + w64 (rf (g.actionRec t.node) 2 0 64)
        ∧ (∀ m, m ≠ rf (g.actionRec t.node) 0 8 12 → u.core.sig m = s.core.sig m) ∧ u.core.mem = s.core.mem)

/-- DEVICE_SIDE_ENQUEUE of an enqueue area that passes its checks creates one dynamic task for each record, in order, and the
completion goes on to its action (R144, R145). COMPLETION_EDGES of the only completion in its edges: a last decrement that the limit
of the DCLK admits is made, live or elided by its class, and the task ends with it; where the limit admits none it is left for the next
DCLK (R130, R137, R142).
SIGNAL_WORD_WRITE (R138): the word takes the value, and every add that the same DCLK has made to it comes after.
POLLED_WAIT_READ, once the interval of its entry has passed and no read of it is outstanding, reads the word again and counts
the interval anew (R139). -/
def Obligations.EnqueueEdgesAndSignals : Prop :=
  ((∀ (s : State) (k : Comp) (r : Run) (t : Task) (g : Skein) (l : List (Nat × Nat × Nat)), s.running = true →
     s.core.nextComp (fun x => x == .enq) = some k → s.core.taskOf k.task = some (r, t) → s.core.skein r.ctx r.skein = some g →
     s.core.enqArea r g (g.enqRec t.node) = .ok l →
     exec .deviceSideEnqueue s = .next (s.withCore (l.foldl (fun d x => d.createDyn r.ctx r.tag .dynamic x)
       (s.core.setComp { k with stage := .action, since := s.core.dclk + 1 }))))
   ∧ (∀ (s : State) (k : Comp) (r : Run) (rest : List (Nat × Bool)), s.running = true →
     s.core.nextEdges = some (k, r, rest) → (s.core.edgeRun k r rest).nextEdges = none →
     exec .completionEdges s = .next (s.withCore (s.core.edgeRun k r rest))
     ∧ (∀ x, rest = [x] → 0 < s.core.edgeBudget →
         s.core.edgeRun k r rest
           = ((((({ s.core with graph := { s.core.graph with edgesUsed := s.core.graph.edgesUsed + 1 } } : Core).setComp
                { k with applied := k.applied + 1 }).decrement { ctx := r.ctx, tag := r.tag, node := x.1, dyn := none }
                (k.live x.2)).taskEnd k.task .done).dropComp k.task).settle r.ctx r.tag))
   ∧ (∀ s : State, s.running = true → s.core.nextEdges = none → exec .completionEdges s = .next s))
  ∧ ((∀ (s : State) (i : Nat) (v : W64) (acc : Access), i < 4096 → s.served (0x400000 + 8 * i) acc = true →
       ∃ t, exec (.signalWordWrite i v acc) s = .next t ∧ t.core.sig i = v + s.core.sigAdded i
         ∧ (s.core.graph.sigAdds = [] → t.core.sig i = v) ∧ (∀ m, m ≠ i → t.core.sig m = s.core.sig m)
         ∧ t.core.graph.runs = s.core.graph.runs ∧ t.core.mem = s.core.mem)
     ∧ (∀ (s : State) (n skein node : Nat) (r : Run) (w : WatchEnt), s.running = true → s.core.runOfSkein n skein = some r →
       s.core.graph.watches.find? (fun x => x.task == { ctx := n, tag := r.tag, node := node, dyn := none }) = some w →
       w.next ≤ s.core.now → (s.core.reelServing fun x => x == .polled w.task) = false →
       exec (.polledWaitRead n skein node) s = .next (s.withCore
         (Core.reelRead { s.core with graph := { s.core.graph with watches := s.core.graph.watches.map fun x =>
           if x.task = w.task then { x with next := s.core.now + s.core.pollTime } else x } } w.addr (.polled w.task)))))

/-! Dispatch -/

/-- DELAY_LIST_RELEASE, once in a DCLK for each list: the first 16 due entries, in the order of R158, become eligible; each
of them has its release count reached (R157, R158). RECORD_PRESENTATION of a selected record two DCLK after its selection: a
start waits for its grant, or is withdrawn where its run has stopped, every other record has its first beat at the next ECLK edge
(R63, R169, R170). ENGINE_START marks the
record started, and the first TILE takes its task to RUNNING (Table 05-12). -/
def Obligations.DelayListsAndPresentation : Prop :=
  (∀ (s : State) (list : Nat), s.running = true → aget s.core.graph.dlyAt list ≠ some s.core.dclk →
     exec (.delayListRelease list) s = .next (s.withCore (((s.core.delayDue list).take 16).foldl
       (fun d t => (d.ripen t).settle t.ctx t.tag)
       { s.core with graph := { s.core.graph with dlyAt := aset s.core.graph.dlyAt list s.core.dclk } }))
     ∧ (∀ t, t ∈ s.core.delayDue list → ∃ r x k, r ∈ s.core.graph.runs ∧ x ∈ r.tasks ∧ r.ref x = t ∧ x.delay = some (list, k)
         ∧ k ≤ s.core.gc.count ∧ x.st = .waiting))
  ∧ (∀ (s : State) (e : Nat) (r : PortRec), s.running = true →
       ((s.core.port e).sel = some r → (s.core.port e).waiting = false → r.at_ + 2 ≤ s.core.dclk → s.core.startGranted e = false →
         (s.core.isStart e s.core.nextEclk = true → s.core.recStopping r = false →
           exec (.recordPresentation e) s = .next (s.withCore { s.core.setPort e { s.core.port e with waiting := true } with
             pwr := { s.core.pwr with waits := s.core.pwr.waits ++ [StartReq.mk s.core.rampIndex e .beat false] } }))
         ∧ (∀ t i, s.core.isStart e s.core.nextEclk = true → s.core.recStopping r = true → r.use = .task t i →
           exec (.recordPresentation e) s = .next (s.withCore
             ((s.core.setPort e { s.core.port e with sel := none, freeFrom := s.core.dclk + 1 }).settle t.ctx t.tag)))
         ∧ (s.core.isStart e s.core.nextEclk = false →
           exec (.recordPresentation e) s = .next (s.withCore (s.core.present_ e s.core.nextEclk))
           ∧ ((∀ u i, r.use ≠ .task u i) → ((s.core.present_ e s.core.nextEclk).port e).out = some { r with at_ := s.core.nextEclk }
               ∧ ((s.core.present_ e s.core.nextEclk).port e).sel = none)))
       ∧ ((s.core.port e).out = some r → r.started = false → r.at_ ≤ s.core.now →
         ∃ t, exec (.engineStart e) s = .next t ∧ (t.core.port e).out = some { r with started := true }
           ∧ (∀ ref i q x, r.use = .task ref i → r.kind = 4 → s.core.taskOf ref = some (q, x) → x.st = .issued →
               ∃ y, t.core.taskOf ref = some y ∧ y.2.st = .running)
           ∧ (∀ f, f ≠ e → t.core.port f = s.core.port f) ∧ t.core.mem = s.core.mem ∧ t.core.queues = s.core.queues))

/-- SPINDLE_SELECTION, once in a DCLK for each Spindle: the claimants of free flows are fixed for the DCLK (R164); of the candidates, one that no other comes before in the keys of R168 is
selected, and with no candidate nothing is; the record of a TILE whose operands lie in their regions stands at its port with the
next issue tag taken, for presentation two DCLK later (R127, R168, R169). -/
def Obligations.SpindleSelectsFirst : Prop :=
  ∀ (s : State) (i : Nat), s.running = true → i < s.core.cfg.spindles → (s.core.spindle i).selAt ≠ some s.core.dclk →
    let c := ((List.range 64).foldl (fun d j => d.selectOther (64 * i + j))
      (s.core.setSpindle i { s.core.spindle i with selAt := some s.core.dclk })).fixClaims
    (c.candidates i = [] → exec (.spindleSelection i) s = .next (s.withCore c))
    ∧ (c.candidates i ≠ [] → ∃ y, y ∈ c.candidates i ∧ (∀ z, z ∈ c.candidates i → keysLt z.keys y.keys = false)
        ∧ exec (.spindleSelection i) s = .next (s.withCore (c.select y))
        ∧ (∀ k tile resume last ops, c.skein y.run.ctx y.run.skein = some k → y.due = .tile tile resume last →
            c.tileOperands y.run y.task k y.head tile = .ok ops →
            ((c.select y).port y.port).tag = ((c.port y.port).tag + 1) % 2 ^ 16
            ∧ ((c.select y).port y.port).sel = some (PortRec.mk
                (tileBits (c.port y.port).tag y.head y.task.arg tile resume last ops) 4
                (.task (y.run.ref y.task) tile) last c.dclk false)))

/-- YIELD_REQUEST while a level-0 task of the context waits for a port that runs a TILE of a task that may yield (R179);
SLICE_END of a shared Spindle whose slice is over gives it to the next context with ready work, for the length of that
context's slice, and counts it as non-deterministic; with no ready work nobody holds it (R113, R114, Table 11-1). DEADLINE of a
fixed-launch task whose D has passed on a port before its share has returned, in a run without deadline_halt that no clip holds (the
model's reading: assumption log 95): the miss is counted in SZ_CX_DET, and the first miss of the task sets timing_broken and
deadline_missed and is reported (R281 to R283). -/
def Obligations.YieldSliceAndDeadline : Prop :=
  ((∀ (s : State) (e : Nat) (r : PortRec) (ref : TaskRef) (i : Nat) (q : Run) (t : Task), s.running = true →
     (s.core.port e).out = some r → r.use = .task ref i → s.core.taskOf ref = some (q, t) → r.kind = 4 →
     (s.core.port e).yield = none → s.core.engLoop e = 0 → 0 < hPrio (s.core.headOf q t) → hYieldOk (s.core.headOf q t) = true →
     s.core.levelZeroWaits q.ctx e = true →
     exec (.yieldRequest e) s = .next (s.withCore (s.core.setPort e { s.core.port e with yield := some s.core.dclk })))
   ∧ (∀ (s : State) (i : Nat), s.running = true → i < s.core.cfg.spindles → 2 ≤ (s.core.slicers i).length →
     let x := s.core.spindle i
     let last := x.holder.getD x.prev
     let next := ((List.range 64).map fun j => (last + 1 + j) % 64).find? fun m => (s.core.slicers i).contains m && s.core.hasReady m i
     (x.holder = none ∨ (∃ h, x.holder = some h ∧
       (x.sliceEnd ≤ s.core.dclk ∨ s.core.hasReady h i = false ∨ (s.core.slicers i).contains h = false))) →
     (∀ n, next = some n →
       exec (.sliceEnd i) s = .next (s.withCore (Core.setCtx
         (s.core.setSpindle i { x with
           holder := some n, prev := last,
           sliceEnd := s.core.dclk + (if (s.core.ctx n).sliceLen = 0 then 64 else (s.core.ctx n).sliceLen) * 1024 })
         n { s.core.ctx n with ndc := min ((s.core.ctx n).ndc + 1) (2 ^ 64 - 1) })))
     ∧ (next = none → exec (.sliceEnd i) s = .next (s.withCore (s.core.setSpindle i { x with holder := none, prev := last })))))
  ∧ (∀ (s : State) (n tag node e : Nat) (r : Run) (t : Task) (k : Skein), n < 64 → s.running = true →
       s.core.taskOf { ctx := n, tag := tag, node := node, dyn := none } = some (r, t) → s.core.skein n r.skein = some k →
       let h := s.core.headOf r t
       let tiles := s.core.checkedTiles r t k h
       let d := s.core.dlOf r t k h e
       t.kind = .static → hFixed h = true → r.checksOff = false → r.stopping = false → t.exempt = false → t.st.final = false →
       t.elided = false → r.uncheckedAt t = false → 0 < dlWork h tiles e → dlBack t h tiles e d = false →
       (hPorts h).contains e = true → t.dlMissed.contains e = false → t.dlTold = false →
       r.halt = false → 2 * (d + 1) ≤ 3 * s.core.dclk →
       ∃ u, exec (.deadline n tag node e) s = .next u
         ∧ fld (u.core.ctx n).det 32 32 = min (fld (s.core.ctx n).det 32 32 + 1) (2 ^ 32 - 1)
         ∧ bitAt (u.core.ctx n).det 1 = true ∧ bitAt (u.core.ctx n).det 2 = true
         ∧ (diff32 s.core.evt.wr s.core.evt.rd < 1024 → s.core.logFresh = true →
             ∃ x, aget u.core.evt.recs (s.core.evt.wr % 1024) = some x ∧ x.cls = 1
             ∧ fld x.w0 16 8 = 4)
         ∧ (∀ m, m ≠ n → u.core.ctx m = s.core.ctx m) ∧ u.core.mem = s.core.mem ∧ u.core.queues = s.core.queues
         ∧ u.core.disp = s.core.disp)
  ∧ (∀ (c : Core) (r : Run) (t : Task) (k : Skein) (h : Rec256) (e : Nat),
       let tiles := c.checkedTiles r t k h
       let w := (if hMode h = 2 then ceilDiv tiles (hWidth h) else shareOf h tiles e) * hBudget h
       c.dlOf r t k h e = c.eclkOf (r.shifted (r.start + hStartOff h)) + w + w * r.slackE8 / 800 + r.slackEclk)

/-! Engines -/

/-- DONE of a TILE with its own tag, on a port in normal use, of a run that is not stopping, with tiles of the task still to
come and none held: the tile counts on its port, the port is free from the end of the ECLK cycle, the stores are visible, and assigns
counts it (R37, R142, R329). YIELDED of a TILE from which a yield was asked, in or after the ECLK in which EIe_YIELD rises, in a run
that is not stopping: the tile is held for its port, which has to be set up again, and with nothing else of the task outstanding the
task is READY (R173, R175, R180). FAULT, or a reserved code, of a TILE with its own tag: the bytes that the tile could reach hold
undefined content, the task faults with reason 3 and its tile, the port's bindings to it end, and the run stops (R141, R147, Table
01-8). SAVED of a SAVE in a clip takes its port off those to be saved (R349). A completion on a port with no issue outstanding is
ignored, and logged as a PORT record with reason 2, whatever its code (R37). -/
def Obligations.EngineReturns : Prop :=
  (∀ (s : State) (e tag : Nat) (stores : List Host.Cell) (r : PortRec) (ref : TaskRef) (i : Nat) (q : Run) (t : Task),
     s.running = true → e < s.core.cfg.enginePorts → s.core.engLoop e = 0 → (s.core.port e).out = some r →
     r.use = .task ref i → r.kind = 4 → tag = r.bits.toNat % 2 ^ 16 → s.core.taskOf ref = some (q, t) → q.stopping = false →
     t.st = .running → t.held = [] → r.last = false → hMode (s.core.headOf q t) ≠ 2 →
     ({ t with back := aset t.back e (agetD t.back e 0 + 1) }).allBack (s.core.headOf q t) = false →
     ∃ u y, exec (.engDone e tag stores) s = .next u ∧ (u.core.port e).out = none
       ∧ (u.core.port e).doneAt = some (s.core.now / 2 * 2) ∧ (u.core.port e).bind = (s.core.port e).bind
       ∧ u.core.taskOf ref = some y ∧ y.2.back = aset t.back e (agetD t.back e 0 + 1) ∧ y.2.st = .running
       ∧ (u.core.ctx ref.ctx).assigns = min ((s.core.ctx ref.ctx).assigns + 1) (2 ^ 64 - 1)
       ∧ u.core.mem = (s.core.store stores).mem ∧ u.core.evt = s.core.evt ∧ u.core.queues = s.core.queues
       ∧ (∀ f, f ≠ e → u.core.port f = s.core.port f) ∧ (∀ m, m ≠ ref.ctx → u.core.ctx m = s.core.ctx m))
  ∧ (∀ (s : State) (e tag i d : Nat) (stores : List Host.Cell) (r : PortRec) (ref : TaskRef) (q : Run) (t : Task),
       s.running = true → e < s.core.cfg.enginePorts → s.core.engLoop e = 0 → (s.core.port e).out = some r →
       (s.core.port e).sel = none → r.use = .task ref i → r.kind = 4 → tag = r.bits.toNat % 2 ^ 16 →
       (s.core.port e).yield = some d → ceilDiv (3 * (d + 1)) 2 ≤ s.core.now / 2 → s.core.taskOf ref = some (q, t) →
       q.stopping = false → t.st = .running → t.tiles ≠ some 0 →
       (∀ f, f ≠ e → (s.core.port f).busyFor ref = false) → (s.core.disp.ports.map Prod.fst).Nodup →
       ∃ u y, exec (.engYielded e tag stores) s = .next u ∧ (u.core.port e).out = none ∧ (u.core.port e).setup = none
         ∧ (u.core.port e).bind = some ref ∧ (u.core.port e).yield = none
         ∧ u.core.taskOf ref = some y ∧ y.2.held = t.held ++ [(e, i)] ∧ y.2.st = .ready ∧ y.2.readyAt = t.readyAt
         ∧ u.core.mem = (s.core.store stores).mem ∧ u.core.queues = s.core.queues)
  ∧ ((∀ (s : State) (e tag code i : Nat) (stores : List Host.Cell) (r : PortRec) (ref : TaskRef), s.running = true →
       e < s.core.cfg.enginePorts → s.core.engLoop e = 0 → (s.core.port e).out = some r → r.use = .task ref i → r.kind = 4 →
       tag = r.bits.toNat % 2 ^ 16 → (code = 2 ∨ (4 ≤ code ∧ code < 8)) →
       let c := (s.core.store stores).noteStores r stores
       let c1 := c.setPort e { c.port e with out := none, doneAt := some (s.core.now / 2 * 2), yield := none }
       let c2 := (c1.countAssign ref.ctx).modTask ref fun t => { t with backAt := aset t.backAt e (s.core.now / 2) }
       exec (.engFault e tag code stores) s = .next (s.withCore
         (((((c2.freeBytes r.reach).faultTask ref .faulted 3 e i).unbind e ref).settle ref.ctx ref.tag))))
     ∧ (∀ (s : State) (e tag : Nat) (stores : List Host.Cell) (r : PortRec) (q : ClipRun), s.running = true →
       e < s.core.cfg.enginePorts → s.core.engLoop e = 0 → (s.core.port e).out = some r → r.use = .save →
       tag = r.bits.toNat % 2 ^ 16 → s.core.clip.run = some q → q.phase = .save →
       ∃ u, exec (.engSaved e tag stores) s = .next u ∧ (u.core.port e).out = none
         ∧ u.core.clip.run = some { q with ports := q.ports.filter fun x => x.1 != e } ∧ u.core.evt = s.core.evt
         ∧ u.core.mem = (s.core.store stores).mem ∧ u.core.graph = (s.core.store stores).graph ∧ u.core.queues = s.core.queues)
     ∧ (∀ (s : State) (e tag : Nat) (stores : List Host.Cell) (i : Instr) (code : Nat), s.running = true →
       e < s.core.cfg.enginePorts → (s.core.port e).out = none →
       ((i = .engDone e tag stores ∧ code = 0) ∨ (i = .engYielded e tag stores ∧ code = 1)
         ∨ (i = .engSaved e tag stores ∧ code = 3) ∨ (i = .engFault e tag code stores ∧ (code = 2 ∨ (4 ≤ code ∧ code < 8)))) →
       exec i s = .next (s.withCore ((s.core.store stores).logPort 2 e tag code))))

/-! Synchronisation objects -/

/-- SYNC_SET of a mapped object of a kind that fits adds its update to those of the DCLK (R220, R222); SYNC_WAIT holds its
queue, on a signal word in the expert form, or on an object with which it arms (R224). SYNC_ALLOC of unmapped identifiers
inside the table and the quotas, whose entries can be written, maps that many physical objects that were free, zero and of the kind
asked, and writes their entries; SYNC_FREE of mapped ones without a waiter frees exactly those and writes invalid entries (R219). -/
def Obligations.SyncCommands : Prop :=
  (∀ (s : State) (n : Nat) (p : Packet),
     let c := s.core.taken n
     (∀ o, s.takes 0x30 n p = true → passes (step9 p (range 2 32 (pf p 2 32 2 != 3))) = true →
       c.syncLookup n (pf p 2 0 24) = .ok (some o) → (syncOpOf (pf p 2 32 2)).fits o.token false = true →
       exec .syncSet s = .next (s.replied n p vOk (c.setObj { o with
         upds := o.upds ++ [SyncUpd.mk 1 (syncOpOf (pf p 2 32 2)) (pw p 3)] })))
     ∧ (s.takes 0x31 n p = true → pkExp p = true → passes (step9 p (range 2 0 (c.sigIn n (pf p 2 0 12)))) = true →
       exec .syncWait s = .next (s.withCore (c.setQueue n { c.queue n with cur := .sigWait p (pf p 2 0 12) (pw p 3) })))
     ∧ (∀ o, s.takes 0x31 n p = true → pkExp p = false → passes (step9 p []) = true →
       c.syncLookup n (pf p 2 0 24) = .ok (some o) →
       exec .syncWait s = .next (s.withCore ((c.setObj { o with arms := o.arms ++ [SyncWaiter.mk (.queue n) 0 false (pw p 3)] }).setQueue n
         { c.queue n with cur := .syncWait p (pf p 2 0 24) }))))
  ∧ ((∀ (s : State) (n : Nat) (p : Packet), s.takes 0x32 n p = true →
       let c := s.core.taken n
       let vid := pf p 2 0 24
       let count := pf p 3 0 19
       passes (step9 p (range 3 0 (decide (1 ≤ count) && decide (count ≤ 262144)))) = true → (c.ctx n).syncLog2 ≠ 0 →
       vid + count ≤ 2 ^ (c.ctx n).syncLog2 → (∀ i, i < count → c.syncLookup n (vid + i) = .ok none) →
       (c.objsOf n).length + count ≤ (c.ctx n).syncQuota → c.sync.objs.length + count ≤ c.cfg.syncObjects →
       c.writeFault (c.syncEntryAddr n vid) (8 * count) = none →
       ∃ objs : List SyncObj,
         let ents := objs.flatMap fun o => wordBytes (w64 (2 ^ 63 + b2n o.token * 2 ^ 62 + o.phys))
         exec .syncAlloc s = .next (s.replied n p vOk
           { c.writeBytes (c.syncEntryAddr n vid) ents with sync := { c.sync with objs := c.sync.objs ++ objs } })
         ∧ objs.length = count ∧ (objs.map (·.phys)).Nodup ∧ objs.map (·.vid) = (List.range count).map (vid + ·)
         ∧ (∀ o, o ∈ objs → o.phys ∉ c.sync.objs.map (·.phys) ∧ o.phys < c.cfg.syncObjects ∧ o.ctx = n ∧ o.token = pb p 3 32
             ∧ o.value = 0 ∧ o.waiters = [] ∧ o.arms = [] ∧ o.upds = []))
     ∧ (∀ (s : State) (n : Nat) (p : Packet) (objs : List SyncObj), s.takes 0x33 n p = true →
       let c := s.core.taken n
       let vid := pf p 2 0 24
       let count := pf p 3 0 19
       passes (step9 p (range 3 0 (decide (1 ≤ count) && decide (count ≤ 262144)))) = true → objs.length = count →
       (∀ i o, objs[i]? = some o → c.syncLookup n (vid + i) = .ok (some o)) → (objs.any c.hasWaiter) = false →
       c.writeFault (c.syncEntryAddr n vid) (8 * count) = none →
       let d := c.writeBytes (c.syncEntryAddr n vid) (objs.flatMap fun o => wordBytes (w64 (b2n o.token * 2 ^ 62 + o.phys)))
       exec .syncFree s = .next (s.replied n p vOk { d with sync := { c.sync with
         objs := c.sync.objs.filter fun o => !(o.ctx == n && decide (vid ≤ o.vid) && decide (o.vid < vid + count)) } })))

/-- SYNC_OBJECT_EVALUATION (R222): once in a DCLK every object is evaluated against its value at the end of the DCLK before, and nothing
but the objects and the count of non-deterministic releases changes; a second time in the DCLK nothing happens. A semaphore releases as
many of the waiters that are not withdrawn as its value allows, the oldest first, and is the less by them; a counter releases those whose
condition its value meets, and keeps its value. At the end of a DCLK in which nothing was released, each object takes the updates of the
DCLK in the order of their sources, and the waits of the DCLK arm behind the older ones; a queue that is released gets its final reply
(R224). -/
def Obligations.SyncEvaluation : Prop :=
  (∀ s : State, s.running = true → (s.core.sync.objs.map (·.phys)).Nodup →
    (s.core.sync.evalAt = some s.core.dclk → exec .syncObjectEvaluation s = .next s)
    ∧ (s.core.sync.evalAt ≠ some s.core.dclk →
        ∃ xs, exec .syncObjectEvaluation s = .next (s.withCore { s.core with
          ctxs := xs, sync := { s.core.sync with evalAt := some s.core.dclk,
                                                 objs := s.core.sync.objs.map fun o => (s.core.evalObj o).2.1 } })
          ∧ (∀ n, agetD xs n Ctx.reset = { s.core.ctx n with ndc := (agetD xs n Ctx.reset).ndc })
          ∧ ((∀ o, o ∈ s.core.sync.objs → (s.core.evalObj o).2.2 = false) → xs = s.core.ctxs)))
  ∧ (∀ (c : Core) (o : SyncObj),
      let ws := o.waiters.filter fun w => !c.waiterGone o w
      (o.token = true → (c.evalObj o).1 = ws.take (min o.value.toNat ws.length)
        ∧ (c.evalObj o).2.1.waiters = ws.drop (min o.value.toNat ws.length)
        ∧ (c.evalObj o).2.1.value.toNat + (c.evalObj o).1.length = o.value.toNat)
      ∧ (o.token = false → (c.evalObj o).2.1.value = o.value
        ∧ ∀ w, w ∈ (c.evalObj o).1 ↔ w ∈ ws ∧ (if w.equal then o.value = w.threshold else w.threshold.toNat ≤ o.value.toNat)))
  ∧ (∀ c : Core, (c.sync.objs.map (·.phys)).Nodup → (∀ o, o ∈ c.sync.objs → o.out = [] ∧ o.counted = false) →
      c.syncEnd = { c with sync := { c.sync with objs := c.sync.objs.map fun o => { o with
        value := (sortBy (fun a b : SyncUpd => decide (a.rank < b.rank)) o.upds).foldl (fun a u => u.apply a) o.value,
        waiters := (o.waiters.filter fun w => !c.waiterGone o w) ++ sortBy (fun a b : SyncWaiter => keysLt a.key b.key) o.arms,
        upds := [], arms := [] } } })
  ∧ (∀ (c : Core) (w : SyncWaiter) (n vid : Nat) (p : Packet), w.who = .queue n → (c.queue n).cur = .syncWait p vid →
      c.releaseWaiter w = c.finalReply n (pkTag p) vOk (pkIrq p) true)

/-- MANUAL_READ, MANUAL_SET, MANUAL_ADD and MANUAL_SIGNAL under a grant in force for the context of a mapped target of a kind that
fits, with no operation under way: each counts, uses up one operation of the grant, ends the grant with its last one, shows status 0
and writes a MANUAL record of the value before and after; a read shows the value and the kind and changes no object, the others are
updates of the DCLK that come before those of commands and count as non-deterministic (R222, R226, R228, R229). -/
def Obligations.ManualOperations : Prop :=
  ∀ (s : State) (acc : Access) (o : SyncObj), s.served 0x800028 acc = true → bitAt s.core.sync.win.status 2 = true →
    bitAt s.core.sync.win.status 3 = false → fld s.core.sync.win.target 0 6 = fld s.core.sync.win.status 24 6 →
    s.core.syncLookup (fld s.core.sync.win.target 0 6) (fld s.core.sync.win.target 8 24) = .ok (some o) →
    o.ctx = fld s.core.sync.win.target 0 6 → o.vid = fld s.core.sync.win.target 8 24 →
    let used : State → Prop := fun t =>
      fld t.core.sync.win.status 48 16 = min (fld s.core.sync.win.status 48 16 + 1) (2 ^ 16 - 1)
      ∧ fld t.core.sync.win.status 32 16 = fld s.core.sync.win.status 32 16 - 1
      ∧ bitAt t.core.sync.win.status 2 = decide (1 < fld s.core.sync.win.status 32 16) ∧ fld t.core.sync.win.status 16 8 = 0
      ∧ t.core.sync.win.target = s.core.sync.win.target ∧ t.core.graph = s.core.graph ∧ t.core.mem = s.core.mem
      ∧ t.core.queues = s.core.queues
    let logged : State → Nat → W64 → W64 → Prop := fun t code before after =>
      diff32 s.core.evt.wr s.core.evt.rd < 1024 → s.core.logFresh = true →
        ∃ x, aget t.core.evt.recs (s.core.evt.wr % 1024) = some x ∧ x.cls = 7
          ∧ x.w0 = w64 (o.vid * 2 ^ 40 + code * 2 ^ 16 + o.ctx) ∧ x.w1 = before ∧ x.w3 = after
    (∃ t, exec (.manualRead acc) s = .next t ∧ t.core.sync.win.data = o.value ∧ bitAt t.core.sync.win.status 5 = o.token
      ∧ used t ∧ logged t 0 o.value o.value ∧ t.core.sync.objs = s.core.sync.objs ∧ t.core.ctxs = s.core.ctxs)
    ∧ (∀ i op code, ((i = Instr.manualSet acc ∧ op = SyncOp.set ∧ code = 1) ∨ (i = .manualAdd acc ∧ op = .add ∧ code = 2)
          ∨ (i = .manualSignal acc ∧ op = .signal ∧ code = 3)) →
      op.fits o.token true = true →
      ∃ t, exec i s = .next t
        ∧ t.core.sync.objs = (s.core.setObj { o with upds := o.upds ++ [SyncUpd.mk 0 op s.core.sync.win.data] }).sync.objs
        ∧ t.core.ctxs = (s.core.ndInc o.ctx 1).ctxs ∧ t.core.sync.win.data = s.core.sync.win.data ∧ used t
        ∧ logged t code (s.core.manualBefore o) ((SyncUpd.mk 0 op s.core.sync.win.data).apply (s.core.manualBefore o)))

/-! Message channels -/

/-- CHAN_OPEN whose handles resolve, whose route record is good, whose end is free and whose context has quota left: it opens the
send end with no reader and its four counters at zero, or the receive end with the next epoch, an empty ring and its counters at zero,
sends the OPEN notice and reads the consumed word (R233, R236, R239, R240, R250). CHAN_CLOSE of an end that the context holds closes
it, the receive end with reason 1; CHAN_RESET closes the receive end with reason 2 and its counters are zero. At the end of the DCLK a
receive end that closes with no record under way sends a last credit and the CLOSE notice, and one with records counts each of them that
was neither delivered nor acknowledged as discarded (R239, R241, R243; the credit is the model's: assumption log 92, 94). -/
def Obligations.ChanCommands : Prop :=
  (∀ (s : State) (n : Nat) (p : Packet) (route : Region) (ws : List W64), s.takes 0x40 n p = true →
     let c := s.core.taken n
     let ch := pf p 2 0 12
     let rl := pf p 3 32 5
     passes (step9 p (limit 2 0 (decide (ch < c.cfg.channels))
       ++ range 3 32 (if pb p 2 16 then decide (12 ≤ rl) && decide (rl ≤ 20) else rl == 0))) = true →
     c.handleParam n p 4 0 false 64 = .ok route → c.readFor 4 route.base 8 = .ok ws → c.chanEnds n < (c.ctx n).chanQuota →
     ((∀ ring cons, pb p 2 16 = true → c.handleParam n p 3 0 true (2 ^ rl) = .ok ring →
       c.routeHandle n p (fld (ws.getD 1 0) 32 32) true (fld (ws.getD 1 0) 3 29 * 8 + 8) = .ok cons → (c.chan ch).rx = none →
       c.recvRouteOk n ws = true →
       let e := ((c.chan ch).epoch + 1) % 2 ^ 16
       let r : ChanRx := { ctx := n, srcPos := fld (ws.getD 0 0) 48 16, srcChan := fld (ws.getD 0 0) 32 12,
                           skein := fld (ws.getD 0 0) 22 10, handlers := routeHandlers ws,
                           consAt := cons.base + fld (ws.getD 1 0) 3 29 * 8, ringAt := ring.base, ringLog2 := rl, wr := 0,
                           consumed := 0, seqNext := 0, recs := [], dlvd := 0, nextPoll := c.now + c.pollTime, polling := true,
                           due := false }
       let d := ((c.setChan ch { c.chan ch with epoch := e, rxMsgs := 0, rxBytes := 0, discarded := 0, held := 0,
                                                rx := some r }).sendFrame n r.srcPos
         (.chan { toChan := r.srcChan, fromPos := c.myLogical.getD 0, fromChan := ch, body := .openNotice e rl })).reelRead r.consAt
         (.consumed ch)
       exec .chanOpen s = .next (s.replied n p vOk d)
       ∧ (∀ m, m ≠ ch → d.chan m = c.chan m) ∧ d.graph = c.graph ∧ d.mem = c.mem ∧ d.ctxs = c.ctxs)
     ∧ (∀ area, pb p 2 16 = false →
       c.routeHandle n p (fld (ws.getD 2 0) 32 32) false
         ((fld (ws.getD 1 0) 24 20 + 1 - fld (ws.getD 1 0) 44 20) * 2 ^ fld (ws.getD 0 0) 16 5) = .ok area → (c.chan ch).tx = none →
       c.sendRouteOk n ws = true →
       exec .chanOpen s = .next (s.replied n p vOk (c.setChan ch { c.chan ch with
         txMsgs := 0, txBytes := 0, refused := 0, stalls := 0,
         tx := some { ctx := n, st := .noReader, destPos := fld (ws.getD 0 0) 48 16, destChan := fld (ws.getD 0 0) 32 12,
                      skein := fld (ws.getD 0 0) 22 10, slotLog2 := fld (ws.getD 0 0) 16 5, first := fld (ws.getD 1 0) 44 20,
                      last := fld (ws.getD 1 0) 24 20, areaAt := area.base, areaLen := area.size,
                      stallLimit := if pkExp p then pf p 5 0 32 else 0, ringLog2 := 0, epoch := 0, wr := 0, consumed := 0,
                      delivered := 0, sentRecs := 0, reason := 0, slots := [], waiting := [], sent := [] } })))))
  ∧ (∀ (s : State) (n : Nat) (p : Packet),
       let c := s.core.taken n
       let ch := pf p 2 0 12
       passes (step9 p []) = true →
       (∀ r, s.takes 0x41 n p = true → pb p 2 16 = true → (c.chan ch).rx = some r → r.ctx = n → (c.chan ch).closing = none →
         exec .chanClose s = .next (s.replied n p vOk (c.setChan ch { c.chan ch with
           rx := none, lastReason := 1, closing := some { rx := r, epoch := (c.chan ch).epoch, reason := 1, late := [] } })))
       ∧ (∀ t, s.takes 0x41 n p = true → pb p 2 16 = false → (c.chan ch).tx = some t → t.ctx = n →
         exec .chanClose s = .next (s.replied n p vOk (c.closeSend ch))
         ∧ (t.slots = [] → t.waiting = [] → t.sent = [] → c.closeSend ch = c.setChan ch { c.chan ch with tx := none }))
       ∧ (∀ r, s.takes 0x42 n p = true → pb p 2 16 = true → (c.chan ch).rx = some r → r.ctx = n →
         ∃ d, exec .chanReset s = .next (s.replied n p vOk d) ∧ (d.chan ch).rx = none ∧ (d.chan ch).lastReason = 2
           ∧ (d.chan ch).rxMsgs = 0 ∧ (d.chan ch).rxBytes = 0 ∧ (d.chan ch).discarded = 0 ∧ (d.chan ch).held = 0
           ∧ (d.chan ch).tx = (c.chan ch).tx ∧ (∀ m, m ≠ ch → d.chan m = c.chan m) ∧ d.mem = c.mem ∧ d.graph = c.graph))
  ∧ (∀ (c : Core) (ch : Nat) (k : ChanEnd), (c.chan ch).closing = some k →
       (k.rx.recs = [] → k.late = [] →
         c.closeEnd ch = ((c.setChan ch { c.chan ch with closing := none }).chanNotice ch k.rx
           (.credit k.epoch k.rx.consumed k.rx.dlvd)).chanNotice ch k.rx (.closeNotice k.reason))
       ∧ ((c.chan ch).discarded < 2 ^ 32 →
           ((c.closeEnd ch).chan ch).discarded = min ((c.chan ch).discarded + k.late.length
             + (k.rx.recs.filter fun x => x.stage != .handler && x.stage != .written).length) (2 ^ 32 - 1)))

/-- SEND_SLOT_READ of the oldest slot of a channel, deferred in an earlier DCLK, with no lower channel still to serve its task: its
records go behind those that wait, and its completion goes on where nothing else holds it; a slot that fails its checks faults its
task. MESSAGE_SEND of the record at the front: with an OPEN reader and space for it and its pad it leaves, and the counts of the channel
show it, and where the send range holds more than one node it counts as non-deterministic; with no reader it stays, and at the end of
the DCLK counts as stalled, once (R237, R240, R242, R243, R244, R250). -/
def Obligations.MessagesAreSent : Prop :=
  (∀ (s : State) (n : Nat) (t : ChanTx), n < 4096 → s.running = true → (s.core.chan n).tx = some t →
    (∀ d ref rest, t.slots = (d, ref) :: rest → d < s.core.dclk → s.core.sendsBelow n ref = false →
      (∀ l, s.core.slotRead t ref.node = .ok l →
        exec (.sendSlotRead n) s = .next (s.withCore ((s.core.setChan n { s.core.chan n with tx := some { t with
          slots := rest, waiting := t.waiting ++ l.zipIdx.map fun m => TxRec.mk ref m.2 false false m.1 } }).undefer ref)))
      ∧ (∀ st k, s.core.slotRead t ref.node = .error (st, k) → (st ≠ .faulted ∨ k ≠ heldCode) →
        exec (.sendSlotRead n) s = .next (s.withCore (s.core.faultPlain ref st k))))
    ∧ (∀ w rest, t.waiting = w :: rest → t.st = .opened → t.ringLog2 ≠ 0 →
      (t.waiting.any fun x => x.task == w.task && decide (2 ^ t.ringLog2 < msgSize x.msg)) = false →
      let pad := padFor (2 ^ t.ringLog2) t.wr (msgSize w.msg)
      pad + msgSize w.msg ≤ 2 ^ t.ringLog2 - diff64 t.wr t.consumed →
      let h := s.core.chan n
      let c1 := s.core.setChan n { h with
        txMsgs := min (h.txMsgs + 1) (2 ^ 64 - 1),
        txBytes := if w.msg.kind = 1 then min (h.txBytes + w.msg.len) (2 ^ 64 - 1) else h.txBytes,
        tx := some { t with wr := (t.wr + pad + msgSize w.msg) % 2 ^ 64, waiting := rest, sentRecs := t.sentRecs + 1,
                            sent := t.sent ++ [(t.epoch, w)] } }
      exec (.messageSend n) s = .next (s.withCore ((if t.first < t.last then c1.ndInc t.ctx 1 else c1).sendFrame t.ctx t.destPos
        (.chan { toChan := t.destChan, fromPos := s.core.myLogical.getD 0, fromChan := n, body := .record t.epoch pad w.msg w.index }))))
    ∧ (∀ w rest, t.waiting = w :: rest → t.st = .noReader →
      exec (.messageSend n) s = .next (s.withCore (s.core.setChan n { s.core.chan n with
        tx := some { t with waiting := { w with tried := true } :: rest } }))))
  ∧ (∀ (c : Core) (n : Nat) (t : ChanTx) (w : TxRec) (rest : List TxRec), (c.chan n).tx = some t → t.waiting = w :: rest →
      (w.tried = true → w.stalled = false → ((c.stallCount n).chan n).stalls = min ((c.chan n).stalls + 1) (2 ^ 32 - 1)
        ∧ ((c.stallCount n).chan n).tx = some { t with waiting := { w with stalled := true } :: rest })
      ∧ ((w.tried = false ∨ w.stalled = true) → c.stallCount n = c))

/-- CHANNEL_RECORD: a record from the sender that the route names, of the present epoch, takes its place in the ring behind
its pad and no byte of memory changes yet; one for a closed end is discarded and counted. RECORD_DELIVERED of a written record: DATA
counts its message and its bytes, a SIGNAL neither; DATA without a handler is done with, any other record stays at the front (R236
to R238, R241, R245). SIGNAL_APPLY of a good signal whose fence was met in an earlier DCLK adds its value to its word and goes on to the
next record; one that is bad changes no word and sets the stash flag (R246). HANDLER_CREATE for a record whose handler has an instance
that can take it creates the handler task with the record's place in the ring as its argument; CONSUMED_WORD_READ reads the word
again once its interval has passed with bytes unconsumed or a read owed (R236, R245 to R247). -/
def Obligations.RecordsReceivedAndServed : Prop :=
  ((∀ (s : State) (a : Arrival) (c : Core) (m : ChanMsg) (e pad i : Nat) (msg : MsgRec), s.running = true → a.wf = true →
     s.core.chanFrame (fun b => match b with | .record _ _ _ _ => true | _ => false) a = (c, some m) → m.body = .record e pad msg i →
     (∀ r, (c.chan m.toChan).rx = some r → c.restoring r.ctx = false → e = (c.chan m.toChan).epoch → m.fromPos = r.srcPos →
       m.fromChan = r.srcChan → msgSize msg ≤ 2 ^ r.ringLog2 →
       ∃ u v, exec (.channelRecord a) s = .next u ∧ (u.core.chan m.toChan).rx = some v
         ∧ v.wr = (r.wr + padFor (2 ^ r.ringLog2) r.wr (msgSize msg) + msgSize msg) % 2 ^ 64
         ∧ v.recs.length = r.recs.length + 1 ∧ v.consumed = r.consumed ∧ v.dlvd = r.dlvd
         ∧ (v.recs[r.recs.length]?.map (·.msg)) = some msg
         ∧ (u.core.chan m.toChan).rxMsgs = (c.chan m.toChan).rxMsgs
         ∧ (∀ k, k ≠ m.toChan → u.core.chan k = c.chan k) ∧ u.core.mem = c.mem ∧ u.core.queues = c.queues)
     ∧ ((c.chan m.toChan).rx = none → (c.chan m.toChan).closing = none →
       ∃ u, exec (.channelRecord a) s = .next u ∧ (u.core.chan m.toChan).rx = none
         ∧ (u.core.chan m.toChan).discarded = min ((c.chan m.toChan).discarded + 1) (2 ^ 32 - 1)
         ∧ bitAt (u.core.chan m.toChan).evt 0 = true ∧ (∀ k, k ≠ m.toChan → u.core.chan k = c.chan k) ∧ u.core.mem = c.mem))
   ∧ (∀ (s : State) (n : Nat) (r : ChanRx) (x : RxRec) (rest : List RxRec), n < 4096 → s.running = true →
     (s.core.chan n).rx = some r → r.recs = x :: rest → x.stage = .written →
     ∃ u v, exec (.recordDelivered n) s = .next u ∧ (u.core.chan n).rx = some v ∧ v.dlvd = r.dlvd + 1
       ∧ (x.msg.kind = 1 → (u.core.chan n).rxMsgs = min ((s.core.chan n).rxMsgs + 1) (2 ^ 64 - 1)
           ∧ (u.core.chan n).rxBytes = min ((s.core.chan n).rxBytes + x.msg.len) (2 ^ 64 - 1))
       ∧ (x.msg.kind ≠ 1 → (u.core.chan n).rxMsgs = (s.core.chan n).rxMsgs ∧ (u.core.chan n).rxBytes = (s.core.chan n).rxBytes)
       ∧ (x.msg.kind = 1 → r.handlerOf x.msg = none → v.recs.length = rest.length)
       ∧ ((x.msg.kind ≠ 1 ∨ r.handlerOf x.msg ≠ none) → v.recs = { x with stage := .handler } :: rest)
       ∧ (∀ k, k ≠ n → u.core.chan k = s.core.chan k) ∧ u.core.mem = s.core.mem ∧ u.core.graph = s.core.graph))
  ∧ (∀ (s : State) (n : Nat) (r : ChanRx), n < 4096 → s.running = true → (s.core.chan n).rx = some r →
       (∀ x rest, r.recs = x :: rest → x.stage = .handler → x.msg.kind = 2 → (∀ w, w ∈ s.core.stash.waiting → w.2 ≠ .chan n) →
         (∀ d, x.metAt = some d → d < s.core.dclk → s.core.signalBad r.ctx x.msg = none →
           ∃ u v, exec (.signalApply n) s = .next u ∧ u.core.sig x.msg.sig = s.core.sig x.msg.sig + x.msg.value
             ∧ (∀ k, k ≠ x.msg.sig → u.core.sig k = s.core.sig k) ∧ (u.core.chan n).rx = some v ∧ v.recs.length = rest.length
             ∧ (∀ k, k ≠ n → u.core.chan k = s.core.chan k) ∧ u.core.mem = s.core.mem)
         ∧ (s.core.signalBad r.ctx x.msg ≠ none →
           ∃ u, exec (.signalApply n) s = .next u ∧ bitAt (u.core.chan n).evt 4 = true ∧ u.core.graph = s.core.graph
             ∧ u.core.stash.ents.length + u.core.stash.waiting.length ≤ s.core.stash.ents.length + s.core.stash.waiting.length + 1
             ∧ u.core.mem = s.core.mem))
       ∧ (∀ x rest t q, r.recs = x :: rest → x.stage = .handler → r.handlerOf x.msg = some t → s.core.handlerRun r = some q →
         exec (.handlerCreate n) s = .next (s.withCore ((s.core.createDyn q.ctx q.tag .handler (t, x.offset, 0)).rxNext n)))
       ∧ (r.polling = true → r.nextPoll ≤ s.core.now → (r.due = true ∨ r.consumed ≠ r.wr) →
         (s.core.reelServing fun x => x == .consumed n) = false →
         exec (.consumedWordRead n) s = .next (s.withCore (Core.reelRead (s.core.setChan n { s.core.chan n with
           rx := some { r with nextPoll := s.core.now + s.core.pollTime, due := false } }) r.consAt (.consumed n)))))

/-- The notices at an open send end, from the receive end that its route names (R239 to R241): OPEN opens one that is not OPEN with
epoch and ring size and whole credit; CLOSE closes an OPEN one and keeps the reason; a credit of the present epoch that reports no
further delivery takes up what is consumed where that is no older; a refusal is of the oldest record out of its epoch. SIGADD_FRAME
(R312, R347): a ring add to a word in the signal range of a context bound to the slice, and of none that a RESTORE covers, adds its
value, and counts as arrived; one to any other word changes no word, counts in SZ_FAB_CNT, sets remote_stash and goes to the stash as
source 7. -/
def Obligations.NoticesAndRingAdds : Prop :=
  (∀ (s : State) (a : Arrival) (c : Core) (m : ChanMsg) (t : ChanTx), s.running = true → a.wf = true →
     (c.chan m.toChan).tx = some t → c.restoring t.ctx = false → m.fromPos = t.destPos → m.fromChan = t.destChan →
     let d := c.countChan (some t.ctx)
     let put : ChanTx → Core := fun x => d.setChan m.toChan { c.chan m.toChan with tx := some x }
     (∀ e l, s.core.chanFrame (fun b => match b with | .openNotice _ _ => true | _ => false) a = (c, some m) →
       m.body = .openNotice e l →
       (t.st ≠ .opened → exec (.openNotice a) s = .next (s.withCore (put { t with
         st := .opened, epoch := e, ringLog2 := l, wr := 0, consumed := 0, delivered := 0, sentRecs := 0 })))
       ∧ (t.st = .opened → e = t.epoch → exec (.openNotice a) s = .next (s.withCore d)))
     ∧ (∀ r, s.core.chanFrame (fun b => match b with | .closeNotice _ => true | _ => false) a = (c, some m) →
       m.body = .closeNotice r →
       (t.st = .opened → exec (.closeNotice a) s = .next (s.withCore (put { t with st := .closed, reason := r })))
       ∧ (t.st ≠ .opened → exec (.closeNotice a) s = .next (s.withCore d)))
     ∧ (∀ e k dl, s.core.chanFrame (fun b => match b with | .credit _ _ _ => true | _ => false) a = (c, some m) →
       m.body = .credit e k dl →
       (e ≠ t.epoch → exec (.creditNotice a) s = .next (s.withCore d))
       ∧ (e = t.epoch → exec (.creditNotice a) s = .next (s.withCore (d.creditIn m.toChan (c.chan m.toChan) t k dl)))
       ∧ (e = t.epoch → dl ≤ t.delivered → exec (.creditNotice a) s = .next (s.withCore (put { t with
           consumed := if diff64 k t.consumed ≤ diff64 t.wr t.consumed then k else t.consumed,
           sent := (t.sent.filter fun y => y.1 != t.epoch) ++ t.sent.filter fun y => y.1 == t.epoch }))))
     ∧ (∀ e r x, s.core.chanFrame (fun b => match b with | .refusal _ _ => true | _ => false) a = (c, some m) →
       m.body = .refusal e r → t.sent.find? (fun y => y.1 == e) = some x →
       exec (.sendRefusal a) s = .next (s.withCore
         ((put { t with sent := removeFirst (fun y => y.1 == e) t.sent }).refuseSend m.toChan t.ctx x.2.task x.2.index r))))
  ∧ (∀ (s : State) (a : Arrival) (c : Core) (f : Frame) (n : Nat) (v : W64), s.running = true → a.wf = true →
       s.core.arrive (fun p => match p with | .sigadd _ _ => true | _ => false) a = (c, some f) → f.payload = .sigadd n v →
       (∀ k, k < 64 → ¬(c.restoring k = true ∧ c.sigIn k n = true)) →
       ((∃ k, k < 64 ∧ c.bound k = true ∧ c.sigIn k n = true) →
         ∃ t, exec (.sigaddFrame a) s = .next t
           ∧ t = s.withCore (({ c with clip := { c.clip with rx := c.clip.rx + 1 } } : Core).sigAdd n v)
           ∧ t.core.sig n = c.sig n + v ∧ (∀ m, m ≠ n → t.core.sig m = c.sig m))
       ∧ ((∀ k, k < 64 → ¬(c.bound k = true ∧ c.sigIn k n = true)) →
         ∃ t, exec (.sigaddFrame a) s = .next t ∧ fld t.core.fab.cnt 32 32 = min (fld c.fab.cnt 32 32 + 1) (2 ^ 32 - 1)
           ∧ bitAt t.core.fab.evt 5 = true ∧ t.core.graph = c.graph ∧ t.core.mem = c.mem ∧ t.core.chans = c.chans
           ∧ (c.stashHeld < 64 → c.stash.waiting = [] →
               t.core.stash.wr = (c.stash.wr + 1) % 2 ^ 32
               ∧ aget t.core.stash.ents (c.stash.wr % 64) = some (stashWords
                   { tag := 0, status := .badParam, reason := 2, source := 7, ctx := 0, target := w64 (f.src * 2 ^ 48 + n), value := v }
                   c.gc.count))))

/-! Carder -/

/-- MOE_TABLE_LOAD of an image that passes every check makes the table resident with the parameters of packet and image, its counters
and history empty, and holds the live map that it names, all live where the map was not held; MOE_TABLE_UNLOAD of a table whose route
skein has no unfinished instance releases the table, and the live maps that no loaded table names any more; MOE_STATS writes the header
and the blocks of the history, and no byte outside them (R87, R187, R188, R213, R215). -/
def Obligations.ExpertTableCommands : Prop :=
  ∀ (s : State) (n : Nat) (p : Packet),
    let c := s.core.taken n
    let tn := pf p 2 0 6
    (∀ image h ents t, s.takes 0x50 n p = true → passes (step9 p (moeFaults p)) = true →
      c.handleParam n p 2 32 false (64 + 16 * pf p 3 0 14) = .ok image → c.readFor 2 image.base 8 = .ok h →
      c.readFor 2 (image.base + 64) (2 * pf p 3 0 14) = .ok ents → c.moeRegions n p h (tableOf n p h ents) = .ok t →
      (c.table tn).tab = none → imageBad t h ents = false →
      (t.mapEn = true → ∀ m, aget c.moe.maps t.mapId = some m → m.ctx = n ∧ m.nLocal = t.nLocal) →
      let e := c.setTable tn { Moe.reset with tab := some t }
      let d : Core := { e with moe := { e.moe with
        maps := if t.mapEn && (aget c.moe.maps t.mapId).isNone
                then aset c.moe.maps t.mapId (LiveMap.mk t.ctx t.nLocal (List.replicate t.nLocal true)) else c.moe.maps } }
      exec .moeTableLoad s = .next (s.replied n p vOk d) ∧ (∀ j, j ≠ tn → d.table j = c.table j))
    ∧ (∀ t, s.takes 0x51 n p = true → passes (step9 p []) = true → (c.table tn).tab = some t → t.ctx = n →
      c.skeinIdle n t.routeSkein = true →
      ∃ d, exec .moeTableUnload s = .next (s.replied n p vOk d) ∧ d.table tn = .reset
        ∧ (∀ j, j ≠ tn → d.table j = c.table j)
        ∧ (∀ m, m ∈ d.moe.maps ↔ m ∈ c.moe.maps ∧ ∃ j x, j < 64 ∧ j ≠ tn ∧ (c.table j).tab = some x ∧ x.mapEn = true ∧ x.mapId = m.1)
        ∧ d.mem = c.mem ∧ d.graph = c.graph ∧ d.queues = c.queues ∧ d.ctxs = c.ctxs)
    ∧ (∀ t dst, s.takes 0x52 n p = true → passes (step9 p []) = true → c.handleParam n p 3 0 true 0 = .ok dst →
      (c.table tn).tab = some t → t.ctx = n → passes (extentCheck 3 dst (64 + 8 * t.blockSize)) = true →
      let m := c.table tn
      let gen := match m.hist with | b :: _ => b.gen | [] => (Config.freeWord c.free).toNat
      let bytes := natBytes 8 (m.hist.length * 2 ^ 32 + gen % 2 ^ 32) ++ natBytes 56 0 ++ m.hist.flatMap StepBlock.bytes
      c.writeFault dst.base bytes.length = none →
      exec .moeStats s = .next (s.replied n p vOk
        { c.writeBytes dst.base bytes with free := if m.hist.isEmpty then c.free + 1 else c.free })
      ∧ (memWf c.mem = true → memBytes (c.writeBytes dst.base bytes).mem dst.base bytes.length = bytes
          ∧ (∀ a, a < dst.base ∨ dst.base + bytes.length ≤ a → memGet (c.writeBytes dst.base bytes).mem a = memGet c.mem a)))

/-- A token's candidates in the order of R193: as many as asked for or as there are, each ahead of all that are left. The grants of
R198: what overflows is granted whole where the pool covers it; else the pool is used up, and no expert gets more than overflows. -/
def Obligations.RoutingSelectsAndGrants : Prop :=
  (∀ (n : Nat) (l : List (Nat × Int)), (l.map Prod.fst).Nodup →
    (topScores n l).length = min n l.length ∧ (∀ x, x ∈ topScores n l → x ∈ l)
    ∧ ∀ x y, x ∈ topScores n l → y ∈ l → y ∉ topScores n l → y.2 < x.2 ∨ (x.2 = y.2 ∧ x.1 < y.1))
  ∧ (∀ (pool : Nat) (l : List Nat),
    (l.foldl (· + ·) 0 ≤ pool → grants pool l = l)
    ∧ (pool < l.foldl (· + ·) 0 → (grants pool l).foldl (· + ·) 0 = pool)
    ∧ (grants pool l).length = l.length ∧ ∀ i, (grants pool l).getD i 0 ≤ l.getD i 0)

/-- The states of a routing step (R190, R191, R196, R198, R208, R259): STEP_EXCHANGE of a step whose LOCAL is done, first among the
collectives that wait and with room for one, sends the count vector that LOCAL made, in its fragments; a step that has to wait stays in
LOCAL with its vector. STEP_DECIDE, with the totals and the prefix of this chip here, fixes the block and the lists, and their writes go
out at the end of the DCLK. STEP_COMMIT follows the last acknowledgement in a later DCLK; STEP_ROUTED, a DCLK later, adds the block to the
history, takes the tokens that exited off the live map, and lets the route node's completion go on. -/
def Obligations.RoutingStepAdvances : Prop :=
  ∀ (s : State) (t : Nat) (tb : MoeTable) (w : StepWork), t < 64 → s.running = true → (s.core.table t).tab = some tb →
    (s.core.table t).work = some w →
    let m := s.core.table t
    (∀ w1, m.st = .loc → (if w.ready then .ok w else s.core.localPass tb w) = .ok w1 →
      let c1 := s.core.setTable t { m with work := some w1 }
      let c2 := c1.setTable t { m with st := .exchange, work := some { w1 with sinceAt := s.core.dclk } }
      (c1.collFirst (.inr t) = false → exec (.stepExchange t) s = .next (s.withCore c1))
      ∧ (c1.collFirst (.inr t) = true → c1.groupFor tb.plyGroup tb.ctx = none → exec (.stepExchange t) s = .next (s.withCore c2))
      ∧ (∀ g, c1.collFirst (.inr t) = true → c1.groupFor tb.plyGroup tb.ctx = some g →
          let u := c2.plyEnter tb.ctx (s.core.moeKey t tb) (moeParams tb g) (moeFrags tb g w1.vec)
          exec (.stepExchange t) s = .next (s.withCore u)
          ∧ u.table t = { m with st := .exchange, work := some { w1 with sinceAt := s.core.dclk } } ∧ u.mem = s.core.mem
          ∧ u.graph = s.core.graph ∧ u.queues = s.core.queues))
    ∧ (∀ g, m.st = .exchange → s.core.groupFor tb.plyGroup tb.ctx = some g →
      let ps := moeParams tb g
      let hs := s.core.heldFor (s.core.moeKey t tb) ps
      let totals := countsOf (rootVec ps hs)
      let below := countsOf (prefixVec ps hs g.run)
      let d := tb.decide_ m.gen w totals below
      (moeAnswered tb g hs = true →
        exec (.stepDecide t) s = .next (s.withCore (s.core.setTable t { m with
          st := .decide, work := some { w with totals := totals, below := below, block := some d.1, lists := d.2, sinceAt := s.core.dclk } })))
      ∧ (moeAnswered tb g hs = false → exec (.stepDecide t) s = .next s))
    ∧ (∀ b, m.st = .decide → w.sinceAt = s.core.dclk → w.block = some b → tb.statsAt = none →
      s.core.decideWrite t
        = (s.core.reelWrite tb.dispAt (dispBytes m.gen w.lists).1 (.stepWrite t)).reelWrite (tb.dispAt + tb.dirEnd)
            (dispBytes m.gen w.lists).2 (.stepWrite t))
    ∧ (m.st = .decide → (s.core.reelServing fun x => x == .stepWrite t) = false → w.sinceAt < s.core.dclk →
      exec (.stepCommit t) s = .next (s.withCore (s.core.setTable t { m with
        st := .commit, work := some { w with sinceAt := s.core.dclk } })))
    ∧ (∀ b, m.st = .commit → w.sinceAt < s.core.dclk → w.block = some b →
      ∃ d : Core, exec (.stepRouted t) s = .next (s.withCore ((d.undefer w.task).settle w.task.ctx w.task.tag))
        ∧ (d.table t).st = .routed ∧ (d.table t).hist = b :: m.hist.take 7
        ∧ (∀ x, tb.mapEn = true → aget s.core.moe.maps tb.mapId = some x →
            let before := if tb.exitReset then List.replicate tb.nLocal true else x.bits
            let after := List.zipWith (fun b g => b && !g) before w.gone
            aget d.moe.maps tb.mapId = some { x with bits := after })
        ∧ (tb.mapEn = false → d.moe.maps = s.core.moe.maps) ∧ (∀ j, j ≠ t → d.table j = s.core.table j)
        ∧ (m.granted = [] → d.graph = s.core.graph ∧ d.ctxs = s.core.ctxs)
        ∧ d.mem = s.core.mem ∧ d.queues = s.core.queues)

/-! Ply -/

/-- A collective (R259, R260, R265 to R268): COLLECTIVE_START of the one that is first in order, with fewer than 32 in progress, takes it to
LOCAL with the length that its binding gives, or its count, or absent where the binding does not hold; any other has to wait.
COLLECTIVE_EXCHANGE reads the sources and sends what it contributes, or fails with the fault of its read. COLLECTIVE_WRITE, with everything
here that the chip writes, counts and issues the outputs, and the presence fields and the status line behind them. COLLECTIVE_DONE after the last acknowledgement
lets the trigger's completion go on, and the page counts it at the end of the DCLK. -/
def Obligations.CollectiveRuns : Prop :=
  (∀ (s : State) (n k : Nat) (sl : Slot) (g : GroupEnt) (r : Run) (w : CollWork), n < 64 → k < 64 → s.running = true →
    s.core.collParts n k = some (sl, g, r, w) →
    let x := s.core.collRun n k
    (s.core.collFirst (.inl (n, k)) = false → exec (.collectiveStart n k) s = .next s)
    ∧ (s.core.collFirst (.inl (n, k)) = true →
      let put : CollWork → Core := fun v => s.core.setCollRun n k { x with st := .loc, work := some v }
      let a := (s.core.table sl.table).accepted sl.expert
      (sl.bindEn = false → exec (.collectiveStart n k) s = .next (s.withCore (put { w with len := sl.count })))
      ∧ (sl.bindEn = true → s.core.bindOk sl.table sl.expert r = true →
          exec (.collectiveStart n k) s = .next (s.withCore (put { w with absent := a == 0, len := min sl.count a })))
      ∧ (sl.bindEn = true → s.core.bindOk sl.table sl.expert r = false →
          exec (.collectiveStart n k) s = .next (s.withCore ((put { w with absent := true, len := 0 }).moeUnbound sl.table n
            (w64 (2 ^ 63 + k))))))
    ∧ (x.st = .loc →
      (∀ l, s.core.collData r sl g w = .ok l →
        exec (.collectiveExchange n k) s = .next (s.withCore
          ((s.core.setCollRun n k { x with st := .exchange, work := some { w with own := l.2 } }).plyEnter n (s.core.plyKey n k)
            (plyParams sl g) l.1)))
      ∧ (∀ e, s.core.collData r sl g w = .error e → e ≠ (.faulted, heldCode) →
        exec (.collectiveExchange n k) s = .next (s.withCore (s.core.collFails n k e.1 e.2))))
    ∧ (∀ a, x.st = .exchange →
      let hs := s.core.heldFor (s.core.plyKey n k) (plyParams sl g)
      let o := collOut sl g w.own hs
      collReady sl g hs = true → s.core.collRegions r sl g = .ok a →
      let d := o.writes.foldl (fun d y => d.reelWrite (a.1 + y.1) y.2 (.collWrite n k)) ((s.core.plyCount n o).setCollRun n k { x with
        st := .write,
        work := some { w with oob := o.oob, flags := o.flags, empties := o.empties, collide := o.collide, status := sl.presEn } })
      exec (.collectiveWrite n k) s = .next (s.withCore
        (((presWrites sl g o).foldl (fun d y => d.reelWrite (a.2 + y.1) y.2 (.collWrite n k)) d).collStatus n k))
      ∧ (sl.presEn = false → exec (.collectiveWrite n k) s = .next (s.withCore d))
      ∧ d.mem = s.core.mem ∧ d.graph = s.core.graph ∧ d.queues = s.core.queues)
    ∧ (x.st = .write → w.status = false → (s.core.reelServing fun y => y == .collWrite n k) = false →
      exec (.collectiveDone n k) s = .next (s.withCore
        (((s.core.setCollRun n k { x with st := .done, work := some { w with endedAt := some s.core.dclk } }).undefer w.task).settle
          w.task.ctx w.task.tag))))
  ∧ (∀ (c : Core) (n : Nat), (c.ply.map Prod.fst).Nodup →
      let k := ((c.plyPage n).runs.filter fun x => x.2.st == .done && (x.2.work.any fun w => w.endedAt == some c.dclk)).length
      c.collCounts.plyPage n = { c.plyPage n with cnt3 := w64 (min ((c.plyPage n).cnt3.toNat + k) (2 ^ 64 - 1)) }
      ∧ c.collCounts.mem = c.mem ∧ c.collCounts.graph = c.graph)

/-- PLY_FRAME to a slot: a contribution whose group, generation and parameters are the slot's is taken by a collective from EXCHANGE on,
and held by one that has not come so far; one of another generation or with other parameters is dropped, counted and flagged. One to a
Carder exchange of the table's group, generation and parameters is taken or held in the same way (R211, R268). PLY_SLOT writes the fields
of one word of a slot while its context has no unfinished run (R255). -/
def Obligations.ContributionsAndSlots : Prop :=
  (∀ (s : State) (a : Arrival) (c : Core) (f : Frame) (m : PlyMsg) (e : GroupEnt), s.running = true → a.wf = true →
    s.core.arrive (fun p => match p with | .ply _ => true | _ => false) a = (c, some f) → f.payload = .ply m →
    c.groupEnt m.key.group = some e →
    let h : PlyHeld := { msg := m, src := some f.src, since := c.dclk }
    (m.key.isTable = false → bitAt (c.slotWord e.ctx m.key.slot 0) 63 = true → (c.slot e.ctx m.key.slot).group = m.key.group →
      let x := c.collRun e.ctx m.key.slot
      (m.key.gen = x.gen → m.params = plyParams (c.slot e.ctx m.key.slot) e →
        ((x.st = .exchange ∨ x.st = .write ∨ x.st = .done) → exec (.plyFrame a) s = .next (s.withCore (c.plyTake e.ctx h)))
        ∧ ((x.st = .idle ∨ x.st = .loc) →
            exec (.plyFrame a) s = .next (s.withCore { c with fab := { c.fab with plyHeld := c.fab.plyHeld ++ [h] } })))
      ∧ ((m.key.gen ≠ x.gen ∨ m.params ≠ plyParams (c.slot e.ctx m.key.slot) e) →
        ∃ u, exec (.plyFrame a) s = .next u ∧ u.core.fab.plyHeld = c.fab.plyHeld
          ∧ fld (u.core.plyPage e.ctx).cnt1 0 32 = min (fld (c.plyPage e.ctx).cnt1 0 32 + 1) (2 ^ 32 - 1)
          ∧ (m.key.gen ≠ x.gen → bitAt (u.core.plyPage e.ctx).flags 5 = true)
          ∧ (m.key.gen = x.gen → bitAt (u.core.plyPage e.ctx).flags 6 = true)
          ∧ (∀ j, j ≠ e.ctx → u.core.plyPage j = c.plyPage j) ∧ u.core.mem = c.mem ∧ u.core.graph = c.graph))
    ∧ (∀ t, m.key.isTable = true → (c.table m.key.slot).tab = some t → t.ctx = e.ctx → t.plyGroup = m.key.group →
      m.key.gen = (c.table m.key.slot).gen → m.params = moeParams t e →
      exec (.plyFrame a) s = .next (s.withCore (if (c.table m.key.slot).taking then c.plyTake e.ctx h else c.holdPly h))))
  ∧ (∀ (c : Core) (ctx : Nat) (h : PlyHeld),
      (∀ sg nan ovf l, h.msg.data = .root sg nan ovf l → c.plyTake ctx h = c.holdPly h)
      ∧ (∀ l p len bs idx, h.msg.data = .leaf l p len bs idx → c.plyTake ctx h = c.holdPly h)
      ∧ (∀ v i sg nan ovf l, h.msg.data = .frag v i sg nan ovf l →
          ((c.heldFor h.msg.key h.msg.params).any fun x => x.isNode v i sg) = false → plyTop h.msg = false →
          (c.holdPly h).nodeOver h.msg = none → c.plyTake ctx h = c.holdPly h))
  ∧ (∀ (s : State) (n k m : Nat) (v : W64) (acc : Access), n < 64 → k < 64 → m < 8 →
    s.served (0x1C00000 + 0x10000 * n + 64 * k + 8 * m) acc = true → s.core.noRuns n = true →
    ∃ u, exec (.plySlot n k m v acc) s = .next u ∧ u.core.slotWord n k m = v &&& slotMask m
      ∧ (∀ j i, ¬(j = k ∧ i = m) → u.core.slotWord n j i = s.core.slotWord n j i)
      ∧ (∀ j, j ≠ n → u.core.plyPage j = s.core.plyPage j) ∧ u.core.mem = s.core.mem ∧ u.core.graph = s.core.graph)

/-! The fabric -/

/-- FABRIC_PLAN_LOAD of a plan that passes R297, while no other context is open: the plan is in force with no route, spare or waiting
frame, its ports train but those out of service, and all others are parked, and this chip's count is aligned where it is alone or
candidate 0, and goes on. ROUTE_LOAD of tables that pass R308 while nothing runs: they are in force, Pleach ends on every port, and the
counts of frames restart. SPARE_MAP while nothing runs replaces the position that holds a logical one. LINK_ACCEPT of a HELD port lets
it go on with the identity that it observes, or leaves it (R298, R306, R308, R314, R319, R347). -/
def Obligations.FabricCommands : Prop :=
  ∀ (s : State) (n : Nat) (p : Packet),
    let c := s.core.taken n
    (∀ h, s.takes 0x60 n p = true → c.otherOpen = false → passes (step9 p (physFaults p 2 0)) = true → 256 ≤ pf p 3 0 32 →
      c.readFor 2 (physAddr p 2) 32 = .ok h → passes (c.planCheck h (planOf h)) = true →
      ∃ d, exec .fabricPlanLoad s = .next (s.replied n p vOk d) ∧ d.fab.plan = some (planOf h) ∧ d.fab.route = none
        ∧ d.fab.spareMap = [] ∧ d.fab.held = [] ∧ d.fab.parent = none
        ∧ (∀ i, i < c.cfg.linkPorts → (planOf h).portAt i = none → (d.link i).st = .parked)
        ∧ (∀ i x, (planOf h).portAt i = some x → (d.link i).role = x.role
            ∧ (d.link i).st = if (c.link i).oos then .parked else .phyUp)
        ∧ (bitAt d.gc.status 0 = true ↔ (planOf h).product = 1 ∨ (planOf h).refs.getD 0 0 = (planOf h).self)
        ∧ d.gc.count = c.gc.count ∧ d.graph = c.graph ∧ d.mem = c.mem ∧ d.queues = c.queues ∧ d.ctxs = c.ctxs ∧ d.chans = c.chans)
    ∧ (∀ pl h tab gb, s.takes 0x61 n p = true → passes (step9 p (physFaults p 2 0)) = true → c.fab.plan = some pl →
      c.allIdle = true → 64 ≤ pf p 3 0 32 → c.readFor 2 (physAddr p 2) 8 = .ok h → fld (h.getD 1 0) 0 11 ≤ 1024 →
      let ng := fld (h.getD 1 0) 0 11
      let gAt := lines64 (64 + pl.product)
      gAt + 16 * ng ≤ pf p 3 0 32 → c.readBytes (physAddr p 2 + 64) pl.product = .ok tab →
      c.readBytes (physAddr p 2 + gAt) (16 * ng) = .ok gb →
      passes (c.routeCheck pl h tab (chunks 16 ng gb) (routeOf h tab (chunks 16 ng gb))) = true →
      ∃ d, exec .routeLoad s = .next (s.replied n p vOk d) ∧ d.fab.route = some (routeOf h tab (chunks 16 ng gb))
        ∧ d.fab.plan = some pl ∧ d.fab.held = [] ∧ d.clip.tx = 0 ∧ d.clip.rx = 0
        ∧ (∀ i, (d.link i).pleach = false ∧ (d.link i).st = (c.link i).st) ∧ d.graph = c.graph ∧ d.mem = c.mem
        ∧ d.queues = c.queues ∧ d.ctxs = c.ctxs ∧ d.chans = c.chans)
    ∧ (∀ pl, s.takes 0x62 n p = true → passes (step9 p []) = true → c.fab.plan = some pl → c.allIdle = true →
      pf p 2 0 16 < pl.logCount → pf p 2 16 16 < pl.product → pl.isSpare (pf p 2 16 16) = true →
      (∀ m, m ∈ c.fab.spareMap → m.2 = pf p 2 16 16 → m.1 = pf p 2 0 16) →
      exec .spareMap s = .next (s.replied n p vOk { c with fab := { c.fab with
        spareMap := aset c.fab.spareMap (pf p 2 0 16) (pf p 2 16 16) } }))
    ∧ (s.takes 0x63 n p = true → passes (step9 p []) = true → pf p 2 0 3 < c.cfg.linkPorts → (c.link (pf p 2 0 3)).st = .held →
      (pb p 2 8 = false → exec .linkAccept s = .next (s.replied n p vOk c))
      ∧ (pb p 2 8 = true → ∃ d, exec .linkAccept s = .next (s.replied n p vOk d) ∧ (d.link (pf p 2 0 3)).st = .ident
          ∧ (d.link (pf p 2 0 3)).taken = true
          ∧ (d.link (pf p 2 0 3)).accepted = some ((c.link (pf p 2 0 3)).obsPos, (c.link (pf p 2 0 3)).obsPort)
          ∧ (∀ q, q ≠ pf p 2 0 3 → (d.link q).st = (c.link q).st) ∧ d.graph = c.graph ∧ d.mem = c.mem ∧ d.queues = c.queues))

/-- The training of a port (R302, R303, Table 12-6): loss of lock, lock, codeword lock within the skew, the times after which it fails with
LOCK, ALIGN or a missing identity or latency, the retry from FAILED, the retrain from ACTIVE when acknowledgements fail to come or by
register, and out-of-service. Where a test of time is met, the state follows; a retrain counts and keeps what is unacknowledged; no
other port is touched, but by a failure. -/
def Obligations.PortsTrain : Prop :=
  ∀ (s : State) (p : Nat), s.running = true → p < s.core.cfg.linkPorts →
    let l := s.core.link p
    let kept : State → Prop := fun u => u.core.mem = s.core.mem ∧ u.core.graph = s.core.graph ∧ u.core.queues = s.core.queues
    let alone : State → Prop := fun u => (∀ q, q ≠ p → u.core.link q = s.core.link q) ∧ kept u
    ((l.st = .ident ∨ l.st = .held ∨ l.st = .measure ∨ l.st = .active) →
      ∃ u, exec (.linkLockLoss p) s = .next u ∧ (u.core.link p).st = .phyUp ∧ (u.core.link p).taken = false
        ∧ (l.st = .active → (u.core.link p).retrains = min (l.retrains + 1) 65535) ∧ alone u)
    ∧ (l.st = .phyUp → exec (.phyUpLocked p) s
        = .next (s.withCore (s.core.setLink p { l with st := .align, since := s.core.now, locked := false })))
    ∧ (∀ skew, l.st = .align → skew ≤ 8 → l.looped = false → exec (.codewordLock p skew) s
        = .next (s.withCore (s.core.setLink p { l with st := .ident, since := s.core.now, locked := true, beacon := none })))
    ∧ (∀ i kind, ((i = Instr.phyUpTimeout p ∧ kind = 1 ∧ l.st = .phyUp ∧ l.since + 2 ^ 20 * 48 ≤ s.core.now)
        ∨ (i = .alignTimeout p ∧ kind = 2 ∧ l.st = .align ∧ l.locked = false ∧ l.since + 2 ^ 16 * 4 ≤ s.core.now)
        ∨ (i = .identTimeout p ∧ kind = 1 ∧ l.st = .ident ∧ (l.beacon = none ∨ l.kind = 6 ∨ l.kind = 7)
            ∧ l.since + 2 ^ 20 * 3 ≤ s.core.now)
        ∨ (i = .measureTimeout p ∧ kind = 2 ∧ l.st = .measure ∧ l.since + 2 ^ 20 * 3 ≤ s.core.now)) →
      ∃ u, exec i s = .next u ∧ (u.core.link p).st = .failed ∧ (u.core.link p).kind = kind ∧ bitAt u.core.fab.evt 1 = true ∧ kept u)
    ∧ (l.st = .failed → l.since + 2 ^ 24 * 48 ≤ s.core.now →
      ∃ u, exec (.failedRetry p) s = .next u ∧ (u.core.link p).st = .phyUp ∧ u.core.fab.evt = s.core.fab.evt ∧ alone u)
    ∧ (∀ t, l.unackAt = some t → l.st = .active → t + 2 ^ 16 * 4 ≤ s.core.now →
      ∃ u, exec (.unacknowledgedTimeout p) s = .next u ∧ (u.core.link p).st = .phyUp
        ∧ (u.core.link p).retrains = min (l.retrains + 1) 65535 ∧ (∀ v, ((u.core.link p).lane v).replay = (l.lane v).replay) ∧ alone u)
    ∧ (∀ v acc, p < 8 → s.served (0x1400128 + 0x40 * p) acc = true →
      (bitAt v 0 = l.oos → bitAt v 1 = true → (l.st = .active ∨ l.st = .failed) →
        ∃ u, exec (.retrain p v acc) s = .next u ∧ (u.core.link p).st = .phyUp ∧ (u.core.link p).oos = l.oos ∧ alone u)
      ∧ (bitAt v 0 = true → l.oos = false → bitAt v 1 = false →
        ∃ u, exec (.oos p v acc) s = .next u ∧ (u.core.link p).st = .parked ∧ (u.core.link p).oos = true ∧ kept u)
      ∧ (∀ pl x, bitAt v 0 = false → bitAt v 1 = false → l.oos = true → s.core.fab.plan = some pl → pl.portAt p = some x →
        ∃ u, exec (.oos p v acc) s = .next u ∧ (u.core.link p).st = .phyUp ∧ (u.core.link p).oos = false
          ∧ (u.core.link p).lanes = x.lanes ∧ (u.core.link p).rate = x.rate ∧ alone u))

/-- Beacons, probes and the count (R276, R303 to R305, R313 to R315, R321). In IDENT, with no other port there, the expected identity
of this plan is taken; any other is HELD. A port in IDENT whose identity both ends took enters MEASURE at the beginning of the next DCLK,
and any other port in IDENT stays there. A fresh probe is returned; a returned one adds its round trip; once all 1,024 are sent and one
came back LATENCY_MEASURED makes the port ACTIVE with its latency (one probe a DCLK and the mean of those that came back are the model's:
assumption log 97). The only ACTIVE port's aligned beacon makes it the parent, and an unaligned count with no earlier offsets takes the
domain's value, or is held until it is reached (by an even number: the model's, assumption log 96). The time of the domain (R274, R276,
R304, R314): BEACON_SEND, once for each multiple of 4,096, sends one beacon with the count on every port from IDENT onward, and on no
other; holdover after 2^20 DCLK without a beacon; a candidate becomes the reference. -/
def Obligations.BeaconsProbesAndTime : Prop :=
  (∀ (s : State) (p : Nat) (f : Frame), s.running = true → p < s.core.cfg.linkPorts → f.wf = true → crcOk f = true →
     f.ackValid = false →
     let l := s.core.link p
     (∀ b pl, f.payload = .beacon b → l.st = .ident → s.core.fab.plan = some pl → b.domainId = pl.domain → b.planRev = pl.rev →
       (∀ q, q ≠ p → (s.core.link q).st ≠ .ident) →
       (s.core.expected p = some (b.self, b.port) →
         ∃ u, exec (.beaconFrame p f) s = .next u ∧ (u.core.link p).taken = true ∧ (u.core.link p).kind = 0
           ∧ (u.core.link p).st = .ident ∧ (u.core.link p).farTaken = b.taken ∧ bitAt u.core.gc.status 1 = false
           ∧ u.core.gc.count = s.core.gc.count ∧ u.core.mem = s.core.mem ∧ u.core.graph = s.core.graph)
       ∧ (s.core.expected p ≠ some (b.self, b.port) → l.accepted ≠ some (b.self, b.port) → s.core.otherPort p (b.self, b.port) = none →
         ∃ u, exec (.beaconFrame p f) s = .next u ∧ (u.core.link p).st = .held ∧ (u.core.link p).obsPos = b.self
           ∧ (u.core.link p).obsPort = b.port ∧ bitAt u.core.fab.evt 2 = true
           ∧ (u.core.link p).kind = (if (s.core.expected p).map Prod.fst = some b.self then 4 else 3)
           ∧ u.core.mem = s.core.mem ∧ u.core.graph = s.core.graph))
     ∧ (∀ b, f.payload = .beacon b → l.st = .active → l.looped = false → b.aligned = true → b.hops < 128 → s.core.fab.isRef = false →
       (∀ q, q ≠ p → (s.core.link q).st ≠ .active) → bitAt s.core.gc.status 0 = false → s.core.gc.realign = false →
       (s.core.fab.parent ≠ some p ∨ s.core.gc.offsets = []) →
       let o := evenOffset (roundOffset [((b.count : Int) - s.core.gc.count) * 256 + b.phase + l.latency
         - ((Config.freeWord s.core.free).toNat % 256 : Nat)])
       ∃ u, exec (.beaconFrame p f) s = .next u ∧ u.core.fab.parent = some p ∧ u.core.fab.hops = b.hops + 1
         ∧ u.core.fab.refIdx = b.refIdx
         ∧ (0 ≤ o → u.core.gc.count = (s.core.gc.count + o.toNat) % 2 ^ 64 ∧ bitAt u.core.gc.status 0 = true)
         ∧ (o < 0 → u.core.gc.count = s.core.gc.count ∧ u.core.gc.hold = (-o).toNat ∧ bitAt u.core.gc.status 0 = false)
         ∧ u.core.mem = s.core.mem ∧ u.core.graph = s.core.graph)
     ∧ (∀ id, f.payload = .probe (.fresh id) → (l.st = .ident ∨ l.st = .held ∨ l.st = .measure ∨ l.st = .active) →
       s.core.selfLooped p = false →
       ∃ u g tin tout, exec (.probeFrame p f) s = .next u ∧ (u.core.link p).ctlOut = l.ctlOut ++ [g]
         ∧ g.payload = .probe (.returned id tin tout 0 0) ∧ tin / 256 = s.core.gc.count ∧ tin ≤ tout ∧ (u.core.link p).st = l.st
         ∧ (∀ q, q ≠ p → u.core.link q = s.core.link q) ∧ u.core.mem = s.core.mem ∧ u.core.graph = s.core.graph)
     ∧ (∀ id farIn farOut sentAt gotAt, f.payload = .probe (.returned id farIn farOut sentAt gotAt) → l.st = .measure →
       id < l.probeNext → l.probes.length < 1024 →
       exec (.probeFrame p f) s = .next (s.withCore (s.core.setLink p { l with
         probes := l.probes ++ [(gotAt - sentAt) - (farOut - farIn)] })))
     ∧ (l.st = .measure → l.probeNext = 1024 → l.probes ≠ [] →
       ∃ u, exec (.latencyMeasured p) s = .next u ∧ (u.core.link p).st = .active
         ∧ (u.core.link p).latency = s.core.latencyOf p ∧ u.core.mem = s.core.mem ∧ u.core.graph = s.core.graph))
  ∧ (∀ (c : Core) (p : Nat), (c.link p).st = .ident →
       (((c.link p).taken = true ∧ (c.link p).farTaken = true) → (c.measureTick.link p).st = .measure)
       ∧ (¬((c.link p).taken = true ∧ (c.link p).farTaken = true) → c.measureTick.link p = c.link p))
  ∧ (∀ s : State, s.running = true →
       (s.core.fab.beaconAt = some (s.core.gc.count / 4096) → exec .beaconSend s = .next s)
       ∧ (s.core.fab.beaconAt ≠ some (s.core.gc.count / 4096) →
         ∃ u, exec .beaconSend s = .next u ∧ u.core.fab.beaconAt = some (s.core.gc.count / 4096) ∧ u.core.mem = s.core.mem
           ∧ u.core.graph = s.core.graph ∧ ∀ p, p < s.core.cfg.linkPorts →
             let l := s.core.link p
             let speaks := l.st = .ident ∨ l.st = .held ∨ l.st = .measure ∨ l.st = .active ∨ l.st = .failed
             (¬ speaks → u.core.link p = l)
             ∧ (speaks → (u.core.link p).st = l.st ∧ ∃ g b, (u.core.link p).ctlOut = l.ctlOut ++ [g] ∧ g.payload = .beacon b
                 ∧ b.count = s.core.gc.count ∧ b.taken = l.taken ∧ b.port = p ∧ b.self = s.core.self
                 ∧ b.aligned = bitAt s.core.gc.status 0))
       ∧ (∀ pl, s.core.fab.plan = some pl → pl.present ≠ [] → 1 < pl.product →
         max s.core.gc.lastBeacon s.core.fab.planAt + 2 ^ 20 * 3 ≤ s.core.now →
         exec .holdover s = .next (s.withCore { s.core with gc := { s.core.gc with status := setBit s.core.gc.status 1 true } }))
       ∧ (∀ i, s.core.candidate_ = some i → 0 < i → s.core.fab.isRef = false → s.core.fab.refQuiet + 2 ^ 20 * 3 ≤ s.core.now →
         ∃ u, exec .referenceCandidate s = .next u ∧ u.core.fab.isRef = true ∧ u.core.fab.hops = 0 ∧ u.core.fab.refIdx = i
           ∧ bitAt u.core.gc.status 0 = true ∧ u.core.gc.count = s.core.gc.count ∧ u.core.fab.ports = s.core.fab.ports
           ∧ u.core.mem = s.core.mem ∧ u.core.graph = s.core.graph))

/-- Acknowledgement and loss (R42, R301, R302, R316): an acknowledgement takes what it covers out of the replay buffer; those owed
for 1,024 PCLK leave on frames of their own; a codeword with up to 15 symbol errors is corrected and counted, and one with more is
uncorrectable and counted, and a lane that lost a frame returns one NAK with the first missing number; PSYNC and its timeout empty the
buffer of the transit lane of a port on Pleach, and the timeout counts what it loses. -/
def Obligations.FramesAcknowledged : Prop :=
  ∀ (s : State) (p : Nat), s.running = true → p < s.core.cfg.linkPorts →
    let l := s.core.link p
    (∀ f, f.wf = true → f.payload = .ack → l.st = .active → crcOk f = true →
      exec (.ackFrame p f) s = .next (s.withCore (Core.testFill p 122 (s.core.takeAck p f)))
      ∧ (f.ackValid = true → f.nak = false → l.looped = false → (∀ v, (l.lane v).waiting = []) →
          ((s.core.takeAck p f).link p).st = .active
          ∧ (((s.core.takeAck p f).link p).lane f.ackVl).replay
              = (l.lane f.ackVl).replay.dropWhile fun g => seqBefore g.seq ((f.ackSeq + 1) % 4096)))
    ∧ (∀ t, l.ackSince = some t → l.st = .active → t + 1024 * 4 ≤ s.core.now →
      ∃ u, exec (.ackTimer p) s = .next u ∧ (u.core.link p).ackDue = [] ∧ (u.core.link p).st = .active
        ∧ (u.core.link p).ctlOut.length = l.ctlOut.length + l.ackDue.length
        ∧ (∀ q, q ≠ p → u.core.link q = s.core.link q) ∧ u.core.mem = s.core.mem ∧ u.core.graph = s.core.graph)
    ∧ (∀ errors lost, l.st ≠ .parked →
      (1 ≤ errors → errors ≤ 15 → exec (.uncorrectableCodeword p lost errors) s
        = .next (s.withCore (s.core.setLink p { l with cnt1 := satAdd l.cnt1 32 32 1 })))
      ∧ (16 ≤ errors →
        ∃ u, exec (.uncorrectableCodeword p lost errors) s = .next u
          ∧ fld (u.core.link p).cnt1 0 32 = min (fld l.cnt1 0 32 + 1) (2 ^ 32 - 1) ∧ (u.core.link p).st = l.st
          ∧ (∀ q, q ≠ p → u.core.link q = s.core.link q)
          ∧ (∀ v, lost = [v] → v < 4 → l.st = .active → (l.ackLane v).gap = false →
              ∃ g, (u.core.link p).ctlOut = l.ctlOut ++ [g] ∧ g.nak = true ∧ g.ackVl = v ∧ g.ackSeq = (l.ackLane v).expect)))
    ∧ (∀ a d f last, a.wf = true → s.core.arrive payPsync a = (d, some f) → f.payload = .psync last p →
      d.cfg.linkPorts = s.core.cfg.linkPorts →
      ∃ u, exec (.psyncFrame a) s = .next u ∧ (u.core.link p).psyncAt = none
        ∧ (u.core.link p).vl3.replay = if (d.link p).pleach then []
            else (d.link p).vl3.replay.dropWhile fun g => seqBefore g.seq ((last + 1) % 4096))
    ∧ (∀ t, l.psyncAt = some t → t ≤ s.core.now →
      ∃ u, exec (.psyncTimeout p) s = .next u ∧ (u.core.link p).psyncAt = none ∧ (u.core.link p).vl3.replay = []
        ∧ fld (u.core.link p).cnt2 0 32 = min (fld l.cnt2 0 32 + l.vl3.replay.length) (2 ^ 32 - 1)
        ∧ (∀ q, q ≠ p → u.core.link q = s.core.link q) ∧ u.core.mem = s.core.mem ∧ u.core.graph = s.core.graph)

/-! Clips -/

/-- CLIP_AT at least 16384 ahead on an aligned count, with a region that holds the blob and every masked context not CLOSED, is accepted
and armed, with the drain limit of the packet or else of the register; CLIP_ABORT of an armed clip before its count ends it, its final
reply first; SZ_CLIP_CTRL is taken while neither a clip nor a RESTORE is pending, and SZ_CX_CUT_k while the context has no unfinished
run (R343, R344, R358, Table 03-10). -/
def Obligations.ClipCommands : Prop :=
  (∀ (s : State) (p : Packet),
    let c := s.core.taken 0
    (∀ g, s.takes 0x70 0 p = true → bitAt c.gc.status 0 = true → c.clipPending = false → passes (step9 p []) = true →
      c.gc.count + 16384 ≤ (pw p 2).toNat → c.handleParam 0 p 4 0 true (c.blobBound (pw p 3)) = .ok g →
      (∀ n, n < 64 → bitAt (pw p 3) n = true → (c.ctx n).st ≠ .closed) →
      let lim := if pkExp p then pf p 5 0 32 else 0
      let q : ClipRun :=
        { phase := .armed, count := (pw p 2).toNat, mask := pw p 3, blobAt := g.base, blobLen := g.size,
          limit := if lim = 0 then fld c.clip.ctrl 32 32 else lim, tag := pkTag p, irq := pkIrq p, round := 0, roundAt := 0,
          owed := false, heard := [], sentUp := false, result := none, targets := [], cutCtxs := [], localCut := 0, ports := [],
          savedPorts := [], iv := [], engOff := 0, nSec := 0, text := [], areas := [], tx := 0, rx := 0, reason := 0, saveEnd := 0,
          sliceOk := false, contAt := 0 }
      let status := setFld (setFld c.clip.status 32 32 (c.clipSeq + 1)) 12 4 1
      exec .clipAt s = .next (s.acceptedWith 0 p { c with clip := { c.clip with status := status, run := some q } }))
    ∧ (∀ q, s.takes 0x71 0 p = true → passes (step9 p []) = true → c.clip.run = some q → q.phase = .armed → c.gc.count < q.count →
      let d : Core := { c with clip := { c.clip with status := setFld c.clip.status 12 4 0, run := none } }
      exec .clipAbort s = .next (s.replied 0 p vOk (d.finalReply 0 q.tag { status := .ok, detail := 1 } q.irq false))))
  ∧ (∀ (s : State) (v : W64) (acc : Access),
    (s.served 0x240038 acc = true → s.core.clipPending = false → 16 ≤ fld v 16 16 → fld v 0 16 ≠ 0 → fld v 32 32 ≠ 0 →
      exec (.clipCtrlCut .clipCtrl v acc) s = .next (s.withCore { s.core with clip := { s.core.clip with ctrl := v } }))
    ∧ (∀ n k, n < 64 → k < 32 → s.served (0x200100 + 0x1000 * n + 8 * k) acc = true → s.core.noRuns n = true →
      exec (.clipCtrlCut (.cut n k) v acc) s = .next (s.withCore (s.core.setCtx n { s.core.ctx n with
        cuts := aset (s.core.ctx n).cuts k (v &&& fields [(63, 63), (41, 32), (19, 0)]) }))))

/-- A clip up to its cut (R341, R343 to R346, R352, R353): at its count round A begins, runs that have not started are cut, and this
chip contributes its passed ordinals at the end of the DCLK; on a slice of one chip they are the result. Where R343 does not admit it
the clip fails with reason 7. The result of round A gives each masked context its target; with the last of the masked contexts cut the
drain begins, at this chip's local cut; a run at its cut stays there. A drain limit that passes fails the clip with reason 3. A clip that
fails writes its final reply, and no byte of memory changes. -/
def Obligations.ClipAgreesAndCuts : Prop :=
  (∀ (s : State) (q : ClipRun), s.running = true → s.core.clip.run = some q →
    let failed : State → Nat → Prop := fun u reason =>
      u.core.clip.run = none ∧ bitAt u.core.clip.status 2 = true ∧ fld u.core.clip.status 24 8 = reason ∧ fld u.core.clip.status 12 4 = 0
      ∧ (s.core.fe.stopped = false → (u.core.queue 0).compl = ((s.core.queue 0).compl + 1) % 2 ^ 64) ∧ u.core.mem = s.core.mem
    (q.phase = .armed → q.count ≤ s.core.gc.count → s.core.clipAdmits q = true →
      exec .clipCount s = .next (s.withCore (((s.core.graph.runs.filter fun r => bitAt q.mask r.ctx && !r.started && decide (q.count < r.start)).foldl
        (fun d r => d.setRun { r with cut := true }) s.core).setClip { q with phase := .agree, owed := true })))
    ∧ (q.phase = .armed → q.count ≤ s.core.gc.count → s.core.clipAdmits q = false →
      ∃ u, exec .clipCount s = .next u ∧ failed u 7)
    ∧ (∀ m, q.phase = .agree → q.result = some m →
      let targets := (maskCtxs q.mask).map fun k => (k, m.ords.getD k 0 + 1)
      let c1 := s.core.setClip { q with phase := .cutting, targets := targets }
      let d := c1.graph.runs.foldl (fun d r => d.cutBack targets r) c1
      exec .roundAResult s = .next (s.withCore d.cutScan)
      ∧ (∀ n, n < 64 → bitAt q.mask n = true → q.cutCtxs.contains n = false → d.ctxCut n = false →
          ∃ q1, d.cutScan.clip.run = some q1 ∧ q1.phase = .cutting ∧ q1.targets = targets ∧ fld d.cutScan.clip.status 12 4 = 3)
      ∧ ((∀ n, n < 64 → bitAt q.mask n = true → q.cutCtxs.contains n = true ∨ d.ctxCut n = true) →
          ∃ q1, d.cutScan.clip.run = some q1 ∧ q1.phase = .drain ∧ q1.owed = true ∧ q1.localCut = s.core.gc.count
            ∧ q1.targets = targets ∧ fld d.cutScan.clip.status 12 4 = 4))
    ∧ (∀ ctx tag r, q.phase = .cutting → s.core.findRun ctx tag = some r → bitAt q.mask ctx = true → s.core.runCut r = true →
      let d := s.core.setRun { r with cut := true }
      exec (.instanceCut ctx tag) s = .next (s.withCore d.cutScan)
      ∧ (∀ n, n < 64 → bitAt q.mask n = true → q.cutCtxs.contains n = false → d.ctxCut n = false →
          ∃ q1 x, d.cutScan.clip.run = some q1 ∧ q1.phase = .cutting ∧ d.cutScan.findRun ctx tag = some x ∧ x.cut = true))
    ∧ ((q.phase = .agree ∨ q.phase = .cutting ∨ q.phase = .drain) → q.count + q.limit * 1024 ≤ s.core.gc.count →
      ∃ u, exec .drainLimit s = .next u ∧ failed u 3))
  ∧ (∀ (c : Core) (q : ClipRun), c.clip.run = some q → q.phase = .agree → q.owed = true → q.heard = [] → c.clipIdx = 0 → c.clipKids = [] →
      let m : ClipMsg := { clipCount := q.count, round := q.round + 1, up := true, fromIdx := 0,
                           ords := (List.range 64).map fun n => if bitAt q.mask n then c.passedOf n else 0, flag := true, tx := 0, rx := 0,
                           count := 0 }
      c.clipRounds.clip.run = some { q with
        round := q.round + 1, roundAt := c.now, owed := false, sentUp := true, result := some { m with up := false }, heard := [m] })

/-- A clip from its drain to its end (R347 to R350, R354, R369): while the sums of round B differ the next round is owed after its
interval, and this chip's contribution, its frame counters, waits until its receive ends are quiet; when the sums agree, the sections and
the header are written, and the ports are to save; with Hedge down the clip is confirmed with reason 9 instead. Once every port has
saved, the areas are read and round C begins; its result fixes the continue count and completes the blob; at that count the clip is over,
saved, or failed with reason 6 where another chip failed. A CLIP frame without a clip here is discarded and counted, a child's
contribution is heard, and the result of a round is taken from the parent. -/
def Obligations.ClipSavesAndContinues : Prop :=
  (∀ (s : State) (q : ClipRun), s.running = true → s.core.clip.run = some q →
    (∀ m, q.phase = .drain → q.result = some m → q.owed = false → ClipRun.drained m = false → q.roundAt + 4096 * 3 ≤ s.core.now →
      exec .roundBStart s = .next (s.withCore (s.core.setClip { q with owed := true })))
    ∧ (∀ m, q.phase = .drain → q.result = some m → q.owed = false → ClipRun.drained m = true →
      (s.sys.hedgeDown = true → exec .roundBResult s = .next (s.withCore (s.core.clipConfirm q 9)))
      ∧ (s.sys.hedgeDown = false → s.core.objsFolded q.mask = true → memWf s.core.mem = true →
        let iv := (s.core.drawBytes 12).1
        let c1 := (s.core.drawBytes 12).2.drawWord.2
        let text := gcmText s.sys.keys.devKey iv (padLines (Config.encodeSections
          (ClipSave.mk ((maskCtxs q.mask).map c1.ctxSave) s.core.clip.tx s.core.clip.rx q.localCut)))
        let off := 4 + text.length / 64
        s.core.writeFault q.blobAt (256 + text.length) = none →
        64 * (off + s.core.saveLines * q.savedPorts.length) ≤ q.blobLen → text.length % 64 = 0 →
        ∃ u q1, exec .roundBResult s = .next u ∧ u.core.clip.run = some q1 ∧ q1.phase = .save ∧ q1.engOff = off ∧ q1.text = text
          ∧ q1.tx = s.core.clip.tx ∧ q1.rx = s.core.clip.rx
          ∧ q1.ports.map Prod.fst = q.savedPorts ∧ memBytes u.core.mem (q.blobAt + 256) text.length = text
          ∧ (∀ a, a < q.blobAt ∨ q.blobAt + 64 * off ≤ a → memGet u.core.mem a = memGet s.core.mem a)
          ∧ u.core.hedge.blobCount = min (s.core.hedge.blobCount + 1) 0xFFFF))
    ∧ (∀ bs, q.phase = .save → q.ports = [] →
      s.core.readBytes (q.blobAt + 64 * q.engOff) (64 * s.core.saveLines * q.savedPorts.length) = .ok bs →
      ∃ u q1, exec .clipSaveDone s = .next u ∧ u.core.clip.run = some q1 ∧ q1.phase = .confirm ∧ q1.areas = bs ∧ q1.reason = 0
        ∧ q1.round = q.round + 1 ∧ u.core.mem = s.core.mem)
    ∧ (∀ m, q.phase = .confirm → q.result = some m →
      let q1 := { q with phase := .cont, sliceOk := m.flag, contAt := m.count + fld s.core.clip.ctrl 16 16 * 1024 }
      let head := s.core.blobHead q m.flag []
      let full := s.core.blobHead q m.flag (blobTag s.sys head q.text q.areas q.iv)
      (q.reason ≠ 0 → exec .roundCResult s = .next (s.withCore (s.core.setClip q1)))
      ∧ (q.reason = 0 → s.sys.hedgeDown = true → exec .roundCResult s = .next (s.withCore (s.core.setClip { q1 with reason := 9 })))
      ∧ (q.reason = 0 → s.sys.hedgeDown = false → s.core.writeFault q.blobAt full.length = none →
          exec .roundCResult s = .next (s.withCore ((s.core.writeBytes q.blobAt full).setClip q1)) ∧ full.length = 256))
    ∧ (q.phase = .cont → q.contAt ≤ s.core.gc.count →
      ∃ u, exec .continueCount s = .next u ∧ u.core.clip.run = none ∧ fld u.core.clip.status 12 4 = 0 ∧ u.core.mem = s.core.mem
        ∧ (s.core.fe.stopped = false → (u.core.queue 0).compl = ((s.core.queue 0).compl + 1) % 2 ^ 64)
        ∧ (q.reason = 0 → q.sliceOk = true → bitAt u.core.clip.status 1 = true)
        ∧ (q.reason = 0 → q.sliceOk = false → bitAt u.core.clip.status 2 = true ∧ fld u.core.clip.status 24 8 = 6)))
  ∧ (∀ (c : Core) (q : ClipRun), c.clip.run = some q → q.phase = .drain → q.owed = true →
      (c.endsQuiet q.mask = false → c.clipRounds = c)
      ∧ (c.endsQuiet q.mask = true →
          c.clipRounds = c.beginRound q { c.clipBlank q with tx := c.clip.tx.toNat, rx := c.clip.rx.toNat }))
  ∧ (∀ (s : State) (a : Arrival) (d : Core) (f : Frame) (m : ClipMsg), s.running = true → a.wf = true →
    s.core.arrive (fun p => match p with | .clip _ => true | _ => false) a = (d, some f) → f.payload = .clip m →
    (d.clip.run = none →
      exec (.clipFrame a) s = .next (s.withCore { d with fab := { d.fab with cnt := satAdd d.fab.cnt 0 32 1 } }))
    ∧ (∀ q, d.clip.run = some q → m.clipCount = q.count → m.up = true → d.clipKids.contains m.fromIdx = true → m.round = q.round →
        q.sentUp = false → exec (.clipFrame a) s = .next (s.withCore (d.setClip { q with heard := q.heard ++ [m] }).roundStep))
    ∧ (∀ q, d.clip.run = some q → m.clipCount = q.count → m.up = false → m.round = q.round → q.sentUp = true → q.result = none →
      ∃ u q1, exec (.clipFrame a) s = .next u ∧ u.core.clip.run = some q1
        ∧ q1.result = some { m with up := false, fromIdx := d.clipIdx } ∧ q1.phase = q.phase ∧ u.core.mem = d.mem))

/-- RESTORE (R230, R352, R356, R357, R369): a blob that authenticates and passes the checks is accepted, and its ports load; one that
does not authenticate is AUTH_FAIL, and sets a flag of Hedge; with Hedge down it is FAULTED with reason 9, which last_reason shows. When the
loads have returned and the tables can be read and written, the saved state is applied as one step; an access that fails ends RESTORE
with its code. At the resume count, or at once when that has passed, the contexts go on. -/
def Obligations.RestoreAppliesBlob : Prop :=
  (∀ (s : State) (p : Packet) (g : Region) (h : List W64) (hb text areas : List Byte), s.takes 0x72 0 p = true →
    let c := s.core.taken 0
    let off := fld (h.getD 12 0) 32 32
    let ports := maskPorts ((h.drop 16).flatMap wordBytes)
    let iv := (hb.drop 64).take 12
    let tagged := blobTag s.sys (hb.take 80 ++ natBytes 16 0 ++ hb.drop 96) text areas iv
    c.clipPending = false → passes (step9 p []) = true → c.handleParam 0 p 2 0 false 0 = .ok g → 256 ≤ g.size →
    (∀ n, n < 64 → bitAt (pw p 3) n = true → (c.ctx n).st = .opened ∧ c.noRuns n = true) →
    c.readWords g.base 32 = .ok h → c.blobForm h (pw p 3) ports.length g.size = true →
    c.readBytes g.base 256 = .ok hb → c.readBytes (g.base + 256) (64 * (off - 4)) = .ok text →
    c.readBytes (g.base + 64 * off) (64 * fld (h.getD 12 0) 16 16 * ports.length) = .ok areas →
    (∀ save, s.sys.hedgeDown = false → tagged = (hb.drop 80).take 16 →
      Config.decodeSections (gcmText s.sys.keys.devKey iv text) = some save →
      (∀ e, e ∈ ports → c.present e = true) → save.ctxs.all c.saveFits = true →
      (∀ x, x ∈ save.ctxs → passes (c.objsFit x) = true) → c.objsRoom save = true →
      ∃ d q, exec .restore s = .next (s.acceptedWith 0 p d) ∧ d.clip.restore = some q ∧ q.mask = pw p 3 ∧ q.applied = false
        ∧ q.resume = (pw p 4).toNat ∧ q.ports.map Prod.fst = ports ∧ q.save.ctxs = save.ctxs ∧ fld d.clip.status 12 4 = 8
        ∧ d.ctxs = c.ctxs ∧ d.graph = c.graph ∧ d.mem = c.mem ∧ d.queues = c.queues)
    ∧ (s.sys.hedgeDown = false → tagged ≠ (hb.drop 80).take 16 →
      ∃ d, exec .restore s = .next (s.replied 0 p { status := .authFail, detail := 1 } d) ∧ bitAt d.hedge.evt 1 = true
        ∧ d.clip = c.clip ∧ d.graph = c.graph ∧ d.mem = c.mem ∧ d.ctxs = c.ctxs)
    ∧ (s.sys.hedgeDown = true →
      ∃ d, exec .restore s = .next (s.replied 0 p (vFaulted 2 9) d) ∧ bitAt d.clip.status 2 = true ∧ fld d.clip.status 24 8 = 9
        ∧ d.clip.restore = none ∧ d.graph = c.graph ∧ d.mem = c.mem ∧ d.ctxs = c.ctxs))
  ∧ (∀ (s : State) (q : RestoreRun), s.running = true → s.core.clip.restore = some q →
    (q.ports = [] → q.applied = false → s.core.restoreFaults q = [] → s.core.gc.count ≤ q.resume → (q.save.ctxs.map (·.num)).Nodup →
      ∃ u, exec .restoreApply s = .next u ∧ u = s.withCore (s.core.restoreState q)
        ∧ u.core.clip.restore = some { q with applied := true } ∧ u.core.clip.tx = q.save.tx ∧ u.core.clip.rx = q.save.rx
        ∧ (∀ x, x ∈ q.save.ctxs → (u.core.ctx x.num).st = x.regs.st ∧ (u.core.ctx x.num).ndc = x.regs.ndc
            ∧ (u.core.ctx x.num).det = x.regs.det ∧ (u.core.ctx x.num).cuts = x.regs.cuts ∧ u.core.plyPage x.num = x.ply)
        ∧ (∀ n, n ∉ q.save.ctxs.map (·.num) → u.core.ctx n = s.core.ctx n ∧ u.core.plyPage n = s.core.plyPage n))
    ∧ (q.ports = [] → q.applied = false → s.core.restoreFaults q = [] → q.resume < s.core.gc.count →
      ∃ u, exec .restoreApply s = .next u ∧ u.core.clip.restore = none ∧ bitAt u.core.clip.status 1 = true
        ∧ bitAt u.core.clip.status 3 = true)
    ∧ (∀ k l, q.ports = [] → q.applied = false → s.core.restoreFaults q = k :: l → (s.core.restoreFaults q).contains heldCode = false →
      (k = 1 ∨ k = 2) →
      ∃ u, exec .restoreApply s = .next u ∧ u.core.clip.restore = none ∧ bitAt u.core.clip.status 2 = true
        ∧ fld u.core.clip.status 24 8 = k ∧ u.core.mem = s.core.mem ∧ u.core.graph = s.core.graph)
    ∧ (q.applied = true → q.resume ≤ s.core.gc.count →
      ∃ u, exec .resumeCount s = .next u ∧ u.core.clip.restore = none ∧ bitAt u.core.clip.status 1 = true
        ∧ fld u.core.clip.status 12 4 = 0 ∧ u.core.mem = s.core.mem
        ∧ (s.core.fe.stopped = false → (u.core.queue 0).compl = ((s.core.queue 0).compl + 1) % 2 ^ 64)))

/-! The Reel port -/

/-- REEL_RESPONSE (R33, R34, R58, R409): a response to an outstanding request is taken; one that DRAIN waits for is discarded; one that
comes after DRAIN leaves a PORT record with reason 4, any other one with reason 1. What a write leaves in memory: its bytes with OK,
nothing with DECODE_ERR, and free bytes with POISON; no other byte changes. Reads and peer writes leave memory as it is. -/
def Obligations.ReelResponsesAnswered : Prop :=
  (∀ (s : State) (chan tag : Nat) (write : Bool) (status : Nat) (stores : List Host.Cell) (bad : List (Nat × Nat)), s.sys.porst = false →
    (Instr.reelResponse chan tag write status stores bad).wf = true →
    let c := bad.foldl (fun d l => d.markLine l.1 l.2) (s.core.store stores)
    let i := Instr.reelResponse chan tag write status stores bad
    (∀ r, c.reelOwner chan tag write = some r → exec i s = .next (s.withCore (c.reelAnswer r status)))
    ∧ (c.reelOwner chan tag write = none → s.sys.drainOwed.contains (chan, tag) = true →
      ∃ t, exec i s = .next t ∧ t.core = c ∧ t.sys.drainOwed.length + 1 = s.sys.drainOwed.length ∧ t.sys.phase = s.sys.phase)
    ∧ (c.reelOwner chan tag write = none → s.sys.drainOwed.contains (chan, tag) = false →
      s.sys.drainLate.contains (chan, tag) = true →
      ∃ t, exec i s = .next t ∧ t.core = c.logPort 4 chan tag status ∧ t.sys.drainLate.length + 1 = s.sys.drainLate.length
        ∧ t.sys.phase = s.sys.phase)
    ∧ (c.reelOwner chan tag write = none → s.sys.drainOwed.contains (chan, tag) = false →
      s.sys.drainLate.contains (chan, tag) = false → exec i s = .next (s.withCore (c.logPort 1 chan tag status))))
  ∧ (∀ (c : Core) (r : ReelReq), memWf c.mem = true → (∀ n a i, r.serves ≠ .testWrite n a i) →
    ((r.tier = 2 ∨ r.write = false) → ∀ code, (c.rspMemory r code).mem = c.mem)
    ∧ (r.tier ≠ 2 → r.write = true →
      (∀ code a, a < r.addr ∨ r.addr + r.data.length ≤ a → memGet (c.rspMemory r code).mem a = memGet c.mem a)
      ∧ memBytes (c.rspMemory r 0).mem r.addr r.data.length = r.data
      ∧ (c.rspMemory r 1).mem = c.mem
      ∧ (∀ i, i < r.data.length → memGet (c.rspMemory r 2).mem (r.addr + i) = Config.freeByte (c.free + i))))
end

