-- ==== Sys2Proof/Laws/State.lean ====
section
/-! SUPPORT. What each update of the state leaves as it was: one lemma per field per update, true by rfl, and what the
accessors see of it. -/

namespace Sys2Proof.Machine

@[simp] theorem State.withCore_core (s : State) (c : Core) : (s.withCore c).core = c := rfl
@[simp] theorem State.withCore_sys (s : State) (c : Core) : (s.withCore c).sys = s.sys := rfl
@[simp] theorem State.withCore_pending (s : State) (c : Core) : (s.withCore c).pending = s.pending := rfl
@[simp] theorem State.put_eq (s : State) (c : Core) : s.put c = .next (s.withCore c) := rfl

/-! Maps -/

@[simp] theorem aget_nil {α : Type} (n : Nat) : aget ([] : AMap α) n = none := rfl

theorem aget_aset_self {α : Type} (m : AMap α) (n : Nat) (v : α) : aget (aset m n v) n = some v := by
  induction m with
  | nil => simp [aset, aget]
  | cons x r ih => obtain ⟨k, w⟩ := x; by_cases h : k = n <;> simp [aset, aget, h, ih]

theorem aget_aset_other {α : Type} (m : AMap α) (n j : Nat) (v : α) (h : j ≠ n) : aget (aset m n v) j = aget m j := by
  induction m with
  | nil => simp [aset, aget, Ne.symm h]
  | cons x r ih =>
    obtain ⟨k, w⟩ := x
    by_cases hk : k = n
    · subst hk; simp [aset, aget, Ne.symm h]
    · by_cases hj : k = j
      · subst hj; simp [aset, aget, h]
      · simp [aset, aget, hk, hj, ih]

@[simp] theorem agetD_aset_self {α : Type} (m : AMap α) (n : Nat) (v d : α) : agetD (aset m n v) n d = v := by
  simp [agetD, aget_aset_self]

theorem agetD_aset_other {α : Type} (m : AMap α) (n j : Nat) (v d : α) (h : j ≠ n) :
    agetD (aset m n v) j d = agetD m j d := by
  simp [agetD, aget_aset_other m n j v h]

/-! What an accessor sees of its own update -/

@[simp] theorem Core.queue_setQueue (c : Core) (n : Nat) (x : Queue) : (c.setQueue n x).queue n = x := agetD_aset_self _ n x _
theorem Core.queue_setQueue_other (c : Core) (n j : Nat) (x : Queue) (h : j ≠ n) : (c.setQueue n x).queue j = c.queue j :=
  agetD_aset_other _ n j x _ h
@[simp] theorem Core.ctx_setCtx (c : Core) (n : Nat) (x : Ctx) : (c.setCtx n x).ctx n = x := agetD_aset_self _ n x _
theorem Core.ctx_setCtx_other (c : Core) (n j : Nat) (x : Ctx) (h : j ≠ n) : (c.setCtx n x).ctx j = c.ctx j :=
  agetD_aset_other _ n j x _ h
@[simp] theorem Core.port_setPort (c : Core) (n : Nat) (x : EngPort) : (c.setPort n x).port n = x := agetD_aset_self _ n x _
theorem Core.port_setPort_other (c : Core) (n j : Nat) (x : EngPort) (h : j ≠ n) : (c.setPort n x).port j = c.port j :=
  agetD_aset_other _ n j x _ h
@[simp] theorem Core.spindle_setSpindle (c : Core) (n : Nat) (x : Spindle) : (c.setSpindle n x).spindle n = x := agetD_aset_self _ n x _
theorem Core.spindle_setSpindle_other (c : Core) (n j : Nat) (x : Spindle) (h : j ≠ n) : (c.setSpindle n x).spindle j = c.spindle j :=
  agetD_aset_other _ n j x _ h
@[simp] theorem Core.chan_setChan (c : Core) (n : Nat) (x : Chan) : (c.setChan n x).chan n = x := agetD_aset_self _ n x _
theorem Core.chan_setChan_other (c : Core) (n j : Nat) (x : Chan) (h : j ≠ n) : (c.setChan n x).chan j = c.chan j :=
  agetD_aset_other _ n j x _ h
@[simp] theorem Core.table_setTable (c : Core) (n : Nat) (x : Moe) : (c.setTable n x).table n = x := agetD_aset_self _ n x _
theorem Core.table_setTable_other (c : Core) (n j : Nat) (x : Moe) (h : j ≠ n) : (c.setTable n x).table j = c.table j :=
  agetD_aset_other _ n j x _ h
@[simp] theorem Core.plyPage_setPlyPage (c : Core) (n : Nat) (x : PlyPage) : (c.setPlyPage n x).plyPage n = x := agetD_aset_self _ n x _
theorem Core.plyPage_setPlyPage_other (c : Core) (n j : Nat) (x : PlyPage) (h : j ≠ n) : (c.setPlyPage n x).plyPage j = c.plyPage j :=
  agetD_aset_other _ n j x _ h
@[simp] theorem Core.link_setLink (c : Core) (n : Nat) (x : Link) : (c.setLink n x).link n = x := agetD_aset_self _ n x _
theorem Core.link_setLink_other (c : Core) (n j : Nat) (x : Link) (h : j ≠ n) : (c.setLink n x).link j = c.link j :=
  agetD_aset_other _ n j x _ h

/-! setQueue -/

@[simp] theorem Core.setQueue_cfg (c : Core) (n : Nat) (x : Queue) : (c.setQueue n x).cfg = c.cfg := rfl
@[simp] theorem Core.setQueue_build (c : Core) (n : Nat) (x : Queue) : (c.setQueue n x).build = c.build := rfl
@[simp] theorem Core.setQueue_engPresent (c : Core) (n : Nat) (x : Queue) : (c.setQueue n x).engPresent = c.engPresent := rfl
@[simp] theorem Core.setQueue_now (c : Core) (n : Nat) (x : Queue) : (c.setQueue n x).now = c.now := rfl
@[simp] theorem Core.setQueue_free (c : Core) (n : Nat) (x : Queue) : (c.setQueue n x).free = c.free := rfl
@[simp] theorem Core.setQueue_mem (c : Core) (n : Nat) (x : Queue) : (c.setQueue n x).mem = c.mem := rfl
@[simp] theorem Core.setQueue_badLines (c : Core) (n : Nat) (x : Queue) : (c.setQueue n x).badLines = c.badLines := rfl
@[simp] theorem Core.setQueue_df (c : Core) (n : Nat) (x : Queue) : (c.setQueue n x).df = c.df := rfl
@[simp] theorem Core.setQueue_sets (c : Core) (n : Nat) (x : Queue) : (c.setQueue n x).sets = c.sets := rfl
@[simp] theorem Core.setQueue_reel (c : Core) (n : Nat) (x : Queue) : (c.setQueue n x).reel = c.reel := rfl
@[simp] theorem Core.setQueue_gc (c : Core) (n : Nat) (x : Queue) : (c.setQueue n x).gc = c.gc := rfl
@[simp] theorem Core.setQueue_clk (c : Core) (n : Nat) (x : Queue) : (c.setQueue n x).clk = c.clk := rfl
@[simp] theorem Core.setQueue_pwr (c : Core) (n : Nat) (x : Queue) : (c.setQueue n x).pwr = c.pwr := rfl
@[simp] theorem Core.setQueue_fe (c : Core) (n : Nat) (x : Queue) : (c.setQueue n x).fe = c.fe := rfl
@[simp] theorem Core.setQueue_ctxs (c : Core) (n : Nat) (x : Queue) : (c.setQueue n x).ctxs = c.ctxs := rfl
@[simp] theorem Core.setQueue_graph (c : Core) (n : Nat) (x : Queue) : (c.setQueue n x).graph = c.graph := rfl
@[simp] theorem Core.setQueue_disp (c : Core) (n : Nat) (x : Queue) : (c.setQueue n x).disp = c.disp := rfl
@[simp] theorem Core.setQueue_sync (c : Core) (n : Nat) (x : Queue) : (c.setQueue n x).sync = c.sync := rfl
@[simp] theorem Core.setQueue_moe (c : Core) (n : Nat) (x : Queue) : (c.setQueue n x).moe = c.moe := rfl
@[simp] theorem Core.setQueue_chans (c : Core) (n : Nat) (x : Queue) : (c.setQueue n x).chans = c.chans := rfl
@[simp] theorem Core.setQueue_ply (c : Core) (n : Nat) (x : Queue) : (c.setQueue n x).ply = c.ply := rfl
@[simp] theorem Core.setQueue_fab (c : Core) (n : Nat) (x : Queue) : (c.setQueue n x).fab = c.fab := rfl
@[simp] theorem Core.setQueue_evt (c : Core) (n : Nat) (x : Queue) : (c.setQueue n x).evt = c.evt := rfl
@[simp] theorem Core.setQueue_stash (c : Core) (n : Nat) (x : Queue) : (c.setQueue n x).stash = c.stash := rfl
@[simp] theorem Core.setQueue_watch (c : Core) (n : Nat) (x : Queue) : (c.setQueue n x).watch = c.watch := rfl
@[simp] theorem Core.setQueue_clip (c : Core) (n : Nat) (x : Queue) : (c.setQueue n x).clip = c.clip := rfl
@[simp] theorem Core.setQueue_hedge (c : Core) (n : Nat) (x : Queue) : (c.setQueue n x).hedge = c.hedge := rfl
@[simp] theorem Core.setQueue_tl (c : Core) (n : Nat) (x : Queue) : (c.setQueue n x).tl = c.tl := rfl
@[simp] theorem Core.setQueue_at_ctx (c : Core) (n : Nat) (x : Queue) (j : Nat) : (c.setQueue n x).ctx j = c.ctx j := rfl
@[simp] theorem Core.setQueue_at_port (c : Core) (n : Nat) (x : Queue) (j : Nat) : (c.setQueue n x).port j = c.port j := rfl
@[simp] theorem Core.setQueue_at_spindle (c : Core) (n : Nat) (x : Queue) (j : Nat) : (c.setQueue n x).spindle j = c.spindle j := rfl
@[simp] theorem Core.setQueue_at_chan (c : Core) (n : Nat) (x : Queue) (j : Nat) : (c.setQueue n x).chan j = c.chan j := rfl
@[simp] theorem Core.setQueue_at_table (c : Core) (n : Nat) (x : Queue) (j : Nat) : (c.setQueue n x).table j = c.table j := rfl
@[simp] theorem Core.setQueue_at_plyPage (c : Core) (n : Nat) (x : Queue) (j : Nat) : (c.setQueue n x).plyPage j = c.plyPage j := rfl
@[simp] theorem Core.setQueue_at_link (c : Core) (n : Nat) (x : Queue) (j : Nat) : (c.setQueue n x).link j = c.link j := rfl
@[simp] theorem Core.setQueue_at_sig (c : Core) (n : Nat) (x : Queue) (j : Nat) : (c.setQueue n x).sig j = c.sig j := rfl

/-! setCtx -/

@[simp] theorem Core.setCtx_cfg (c : Core) (n : Nat) (x : Ctx) : (c.setCtx n x).cfg = c.cfg := rfl
@[simp] theorem Core.setCtx_build (c : Core) (n : Nat) (x : Ctx) : (c.setCtx n x).build = c.build := rfl
@[simp] theorem Core.setCtx_engPresent (c : Core) (n : Nat) (x : Ctx) : (c.setCtx n x).engPresent = c.engPresent := rfl
@[simp] theorem Core.setCtx_now (c : Core) (n : Nat) (x : Ctx) : (c.setCtx n x).now = c.now := rfl
@[simp] theorem Core.setCtx_free (c : Core) (n : Nat) (x : Ctx) : (c.setCtx n x).free = c.free := rfl
@[simp] theorem Core.setCtx_mem (c : Core) (n : Nat) (x : Ctx) : (c.setCtx n x).mem = c.mem := rfl
@[simp] theorem Core.setCtx_badLines (c : Core) (n : Nat) (x : Ctx) : (c.setCtx n x).badLines = c.badLines := rfl
@[simp] theorem Core.setCtx_df (c : Core) (n : Nat) (x : Ctx) : (c.setCtx n x).df = c.df := rfl
@[simp] theorem Core.setCtx_sets (c : Core) (n : Nat) (x : Ctx) : (c.setCtx n x).sets = c.sets := rfl
@[simp] theorem Core.setCtx_reel (c : Core) (n : Nat) (x : Ctx) : (c.setCtx n x).reel = c.reel := rfl
@[simp] theorem Core.setCtx_gc (c : Core) (n : Nat) (x : Ctx) : (c.setCtx n x).gc = c.gc := rfl
@[simp] theorem Core.setCtx_clk (c : Core) (n : Nat) (x : Ctx) : (c.setCtx n x).clk = c.clk := rfl
@[simp] theorem Core.setCtx_pwr (c : Core) (n : Nat) (x : Ctx) : (c.setCtx n x).pwr = c.pwr := rfl
@[simp] theorem Core.setCtx_queues (c : Core) (n : Nat) (x : Ctx) : (c.setCtx n x).queues = c.queues := rfl
@[simp] theorem Core.setCtx_fe (c : Core) (n : Nat) (x : Ctx) : (c.setCtx n x).fe = c.fe := rfl
@[simp] theorem Core.setCtx_graph (c : Core) (n : Nat) (x : Ctx) : (c.setCtx n x).graph = c.graph := rfl
@[simp] theorem Core.setCtx_disp (c : Core) (n : Nat) (x : Ctx) : (c.setCtx n x).disp = c.disp := rfl
@[simp] theorem Core.setCtx_sync (c : Core) (n : Nat) (x : Ctx) : (c.setCtx n x).sync = c.sync := rfl
@[simp] theorem Core.setCtx_moe (c : Core) (n : Nat) (x : Ctx) : (c.setCtx n x).moe = c.moe := rfl
@[simp] theorem Core.setCtx_chans (c : Core) (n : Nat) (x : Ctx) : (c.setCtx n x).chans = c.chans := rfl
@[simp] theorem Core.setCtx_ply (c : Core) (n : Nat) (x : Ctx) : (c.setCtx n x).ply = c.ply := rfl
@[simp] theorem Core.setCtx_fab (c : Core) (n : Nat) (x : Ctx) : (c.setCtx n x).fab = c.fab := rfl
@[simp] theorem Core.setCtx_evt (c : Core) (n : Nat) (x : Ctx) : (c.setCtx n x).evt = c.evt := rfl
@[simp] theorem Core.setCtx_stash (c : Core) (n : Nat) (x : Ctx) : (c.setCtx n x).stash = c.stash := rfl
@[simp] theorem Core.setCtx_watch (c : Core) (n : Nat) (x : Ctx) : (c.setCtx n x).watch = c.watch := rfl
@[simp] theorem Core.setCtx_clip (c : Core) (n : Nat) (x : Ctx) : (c.setCtx n x).clip = c.clip := rfl
@[simp] theorem Core.setCtx_hedge (c : Core) (n : Nat) (x : Ctx) : (c.setCtx n x).hedge = c.hedge := rfl
@[simp] theorem Core.setCtx_tl (c : Core) (n : Nat) (x : Ctx) : (c.setCtx n x).tl = c.tl := rfl
@[simp] theorem Core.setCtx_at_queue (c : Core) (n : Nat) (x : Ctx) (j : Nat) : (c.setCtx n x).queue j = c.queue j := rfl
@[simp] theorem Core.setCtx_at_port (c : Core) (n : Nat) (x : Ctx) (j : Nat) : (c.setCtx n x).port j = c.port j := rfl
@[simp] theorem Core.setCtx_at_spindle (c : Core) (n : Nat) (x : Ctx) (j : Nat) : (c.setCtx n x).spindle j = c.spindle j := rfl
@[simp] theorem Core.setCtx_at_chan (c : Core) (n : Nat) (x : Ctx) (j : Nat) : (c.setCtx n x).chan j = c.chan j := rfl
@[simp] theorem Core.setCtx_at_table (c : Core) (n : Nat) (x : Ctx) (j : Nat) : (c.setCtx n x).table j = c.table j := rfl
@[simp] theorem Core.setCtx_at_plyPage (c : Core) (n : Nat) (x : Ctx) (j : Nat) : (c.setCtx n x).plyPage j = c.plyPage j := rfl
@[simp] theorem Core.setCtx_at_link (c : Core) (n : Nat) (x : Ctx) (j : Nat) : (c.setCtx n x).link j = c.link j := rfl
@[simp] theorem Core.setCtx_at_sig (c : Core) (n : Nat) (x : Ctx) (j : Nat) : (c.setCtx n x).sig j = c.sig j := rfl

/-! setPort -/

@[simp] theorem Core.setPort_cfg (c : Core) (n : Nat) (x : EngPort) : (c.setPort n x).cfg = c.cfg := rfl
@[simp] theorem Core.setPort_build (c : Core) (n : Nat) (x : EngPort) : (c.setPort n x).build = c.build := rfl
@[simp] theorem Core.setPort_engPresent (c : Core) (n : Nat) (x : EngPort) : (c.setPort n x).engPresent = c.engPresent := rfl
@[simp] theorem Core.setPort_now (c : Core) (n : Nat) (x : EngPort) : (c.setPort n x).now = c.now := rfl
@[simp] theorem Core.setPort_free (c : Core) (n : Nat) (x : EngPort) : (c.setPort n x).free = c.free := rfl
@[simp] theorem Core.setPort_mem (c : Core) (n : Nat) (x : EngPort) : (c.setPort n x).mem = c.mem := rfl
@[simp] theorem Core.setPort_badLines (c : Core) (n : Nat) (x : EngPort) : (c.setPort n x).badLines = c.badLines := rfl
@[simp] theorem Core.setPort_df (c : Core) (n : Nat) (x : EngPort) : (c.setPort n x).df = c.df := rfl
@[simp] theorem Core.setPort_sets (c : Core) (n : Nat) (x : EngPort) : (c.setPort n x).sets = c.sets := rfl
@[simp] theorem Core.setPort_reel (c : Core) (n : Nat) (x : EngPort) : (c.setPort n x).reel = c.reel := rfl
@[simp] theorem Core.setPort_gc (c : Core) (n : Nat) (x : EngPort) : (c.setPort n x).gc = c.gc := rfl
@[simp] theorem Core.setPort_clk (c : Core) (n : Nat) (x : EngPort) : (c.setPort n x).clk = c.clk := rfl
@[simp] theorem Core.setPort_pwr (c : Core) (n : Nat) (x : EngPort) : (c.setPort n x).pwr = c.pwr := rfl
@[simp] theorem Core.setPort_queues (c : Core) (n : Nat) (x : EngPort) : (c.setPort n x).queues = c.queues := rfl
@[simp] theorem Core.setPort_fe (c : Core) (n : Nat) (x : EngPort) : (c.setPort n x).fe = c.fe := rfl
@[simp] theorem Core.setPort_ctxs (c : Core) (n : Nat) (x : EngPort) : (c.setPort n x).ctxs = c.ctxs := rfl
@[simp] theorem Core.setPort_graph (c : Core) (n : Nat) (x : EngPort) : (c.setPort n x).graph = c.graph := rfl
@[simp] theorem Core.setPort_sync (c : Core) (n : Nat) (x : EngPort) : (c.setPort n x).sync = c.sync := rfl
@[simp] theorem Core.setPort_moe (c : Core) (n : Nat) (x : EngPort) : (c.setPort n x).moe = c.moe := rfl
@[simp] theorem Core.setPort_chans (c : Core) (n : Nat) (x : EngPort) : (c.setPort n x).chans = c.chans := rfl
@[simp] theorem Core.setPort_ply (c : Core) (n : Nat) (x : EngPort) : (c.setPort n x).ply = c.ply := rfl
@[simp] theorem Core.setPort_fab (c : Core) (n : Nat) (x : EngPort) : (c.setPort n x).fab = c.fab := rfl
@[simp] theorem Core.setPort_evt (c : Core) (n : Nat) (x : EngPort) : (c.setPort n x).evt = c.evt := rfl
@[simp] theorem Core.setPort_stash (c : Core) (n : Nat) (x : EngPort) : (c.setPort n x).stash = c.stash := rfl
@[simp] theorem Core.setPort_watch (c : Core) (n : Nat) (x : EngPort) : (c.setPort n x).watch = c.watch := rfl
@[simp] theorem Core.setPort_clip (c : Core) (n : Nat) (x : EngPort) : (c.setPort n x).clip = c.clip := rfl
@[simp] theorem Core.setPort_hedge (c : Core) (n : Nat) (x : EngPort) : (c.setPort n x).hedge = c.hedge := rfl
@[simp] theorem Core.setPort_tl (c : Core) (n : Nat) (x : EngPort) : (c.setPort n x).tl = c.tl := rfl
@[simp] theorem Core.setPort_at_queue (c : Core) (n : Nat) (x : EngPort) (j : Nat) : (c.setPort n x).queue j = c.queue j := rfl
@[simp] theorem Core.setPort_at_ctx (c : Core) (n : Nat) (x : EngPort) (j : Nat) : (c.setPort n x).ctx j = c.ctx j := rfl
@[simp] theorem Core.setPort_at_chan (c : Core) (n : Nat) (x : EngPort) (j : Nat) : (c.setPort n x).chan j = c.chan j := rfl
@[simp] theorem Core.setPort_at_table (c : Core) (n : Nat) (x : EngPort) (j : Nat) : (c.setPort n x).table j = c.table j := rfl
@[simp] theorem Core.setPort_at_plyPage (c : Core) (n : Nat) (x : EngPort) (j : Nat) : (c.setPort n x).plyPage j = c.plyPage j := rfl
@[simp] theorem Core.setPort_at_link (c : Core) (n : Nat) (x : EngPort) (j : Nat) : (c.setPort n x).link j = c.link j := rfl
@[simp] theorem Core.setPort_at_sig (c : Core) (n : Nat) (x : EngPort) (j : Nat) : (c.setPort n x).sig j = c.sig j := rfl

/-! setSpindle -/

@[simp] theorem Core.setSpindle_cfg (c : Core) (n : Nat) (x : Spindle) : (c.setSpindle n x).cfg = c.cfg := rfl
@[simp] theorem Core.setSpindle_build (c : Core) (n : Nat) (x : Spindle) : (c.setSpindle n x).build = c.build := rfl
@[simp] theorem Core.setSpindle_engPresent (c : Core) (n : Nat) (x : Spindle) : (c.setSpindle n x).engPresent = c.engPresent := rfl
@[simp] theorem Core.setSpindle_now (c : Core) (n : Nat) (x : Spindle) : (c.setSpindle n x).now = c.now := rfl
@[simp] theorem Core.setSpindle_free (c : Core) (n : Nat) (x : Spindle) : (c.setSpindle n x).free = c.free := rfl
@[simp] theorem Core.setSpindle_mem (c : Core) (n : Nat) (x : Spindle) : (c.setSpindle n x).mem = c.mem := rfl
@[simp] theorem Core.setSpindle_badLines (c : Core) (n : Nat) (x : Spindle) : (c.setSpindle n x).badLines = c.badLines := rfl
@[simp] theorem Core.setSpindle_df (c : Core) (n : Nat) (x : Spindle) : (c.setSpindle n x).df = c.df := rfl
@[simp] theorem Core.setSpindle_sets (c : Core) (n : Nat) (x : Spindle) : (c.setSpindle n x).sets = c.sets := rfl
@[simp] theorem Core.setSpindle_reel (c : Core) (n : Nat) (x : Spindle) : (c.setSpindle n x).reel = c.reel := rfl
@[simp] theorem Core.setSpindle_gc (c : Core) (n : Nat) (x : Spindle) : (c.setSpindle n x).gc = c.gc := rfl
@[simp] theorem Core.setSpindle_clk (c : Core) (n : Nat) (x : Spindle) : (c.setSpindle n x).clk = c.clk := rfl
@[simp] theorem Core.setSpindle_pwr (c : Core) (n : Nat) (x : Spindle) : (c.setSpindle n x).pwr = c.pwr := rfl
@[simp] theorem Core.setSpindle_queues (c : Core) (n : Nat) (x : Spindle) : (c.setSpindle n x).queues = c.queues := rfl
@[simp] theorem Core.setSpindle_fe (c : Core) (n : Nat) (x : Spindle) : (c.setSpindle n x).fe = c.fe := rfl
@[simp] theorem Core.setSpindle_ctxs (c : Core) (n : Nat) (x : Spindle) : (c.setSpindle n x).ctxs = c.ctxs := rfl
@[simp] theorem Core.setSpindle_graph (c : Core) (n : Nat) (x : Spindle) : (c.setSpindle n x).graph = c.graph := rfl
@[simp] theorem Core.setSpindle_sync (c : Core) (n : Nat) (x : Spindle) : (c.setSpindle n x).sync = c.sync := rfl
@[simp] theorem Core.setSpindle_moe (c : Core) (n : Nat) (x : Spindle) : (c.setSpindle n x).moe = c.moe := rfl
@[simp] theorem Core.setSpindle_chans (c : Core) (n : Nat) (x : Spindle) : (c.setSpindle n x).chans = c.chans := rfl
@[simp] theorem Core.setSpindle_ply (c : Core) (n : Nat) (x : Spindle) : (c.setSpindle n x).ply = c.ply := rfl
@[simp] theorem Core.setSpindle_fab (c : Core) (n : Nat) (x : Spindle) : (c.setSpindle n x).fab = c.fab := rfl
@[simp] theorem Core.setSpindle_evt (c : Core) (n : Nat) (x : Spindle) : (c.setSpindle n x).evt = c.evt := rfl
@[simp] theorem Core.setSpindle_stash (c : Core) (n : Nat) (x : Spindle) : (c.setSpindle n x).stash = c.stash := rfl
@[simp] theorem Core.setSpindle_watch (c : Core) (n : Nat) (x : Spindle) : (c.setSpindle n x).watch = c.watch := rfl
@[simp] theorem Core.setSpindle_clip (c : Core) (n : Nat) (x : Spindle) : (c.setSpindle n x).clip = c.clip := rfl
@[simp] theorem Core.setSpindle_hedge (c : Core) (n : Nat) (x : Spindle) : (c.setSpindle n x).hedge = c.hedge := rfl
@[simp] theorem Core.setSpindle_tl (c : Core) (n : Nat) (x : Spindle) : (c.setSpindle n x).tl = c.tl := rfl
@[simp] theorem Core.setSpindle_at_queue (c : Core) (n : Nat) (x : Spindle) (j : Nat) : (c.setSpindle n x).queue j = c.queue j := rfl
@[simp] theorem Core.setSpindle_at_ctx (c : Core) (n : Nat) (x : Spindle) (j : Nat) : (c.setSpindle n x).ctx j = c.ctx j := rfl
@[simp] theorem Core.setSpindle_at_chan (c : Core) (n : Nat) (x : Spindle) (j : Nat) : (c.setSpindle n x).chan j = c.chan j := rfl
@[simp] theorem Core.setSpindle_at_table (c : Core) (n : Nat) (x : Spindle) (j : Nat) : (c.setSpindle n x).table j = c.table j := rfl
@[simp] theorem Core.setSpindle_at_plyPage (c : Core) (n : Nat) (x : Spindle) (j : Nat) : (c.setSpindle n x).plyPage j = c.plyPage j := rfl
@[simp] theorem Core.setSpindle_at_link (c : Core) (n : Nat) (x : Spindle) (j : Nat) : (c.setSpindle n x).link j = c.link j := rfl
@[simp] theorem Core.setSpindle_at_sig (c : Core) (n : Nat) (x : Spindle) (j : Nat) : (c.setSpindle n x).sig j = c.sig j := rfl

/-! setChan -/

@[simp] theorem Core.setChan_cfg (c : Core) (n : Nat) (x : Chan) : (c.setChan n x).cfg = c.cfg := rfl
@[simp] theorem Core.setChan_build (c : Core) (n : Nat) (x : Chan) : (c.setChan n x).build = c.build := rfl
@[simp] theorem Core.setChan_engPresent (c : Core) (n : Nat) (x : Chan) : (c.setChan n x).engPresent = c.engPresent := rfl
@[simp] theorem Core.setChan_now (c : Core) (n : Nat) (x : Chan) : (c.setChan n x).now = c.now := rfl
@[simp] theorem Core.setChan_free (c : Core) (n : Nat) (x : Chan) : (c.setChan n x).free = c.free := rfl
@[simp] theorem Core.setChan_mem (c : Core) (n : Nat) (x : Chan) : (c.setChan n x).mem = c.mem := rfl
@[simp] theorem Core.setChan_badLines (c : Core) (n : Nat) (x : Chan) : (c.setChan n x).badLines = c.badLines := rfl
@[simp] theorem Core.setChan_df (c : Core) (n : Nat) (x : Chan) : (c.setChan n x).df = c.df := rfl
@[simp] theorem Core.setChan_sets (c : Core) (n : Nat) (x : Chan) : (c.setChan n x).sets = c.sets := rfl
@[simp] theorem Core.setChan_reel (c : Core) (n : Nat) (x : Chan) : (c.setChan n x).reel = c.reel := rfl
@[simp] theorem Core.setChan_gc (c : Core) (n : Nat) (x : Chan) : (c.setChan n x).gc = c.gc := rfl
@[simp] theorem Core.setChan_clk (c : Core) (n : Nat) (x : Chan) : (c.setChan n x).clk = c.clk := rfl
@[simp] theorem Core.setChan_pwr (c : Core) (n : Nat) (x : Chan) : (c.setChan n x).pwr = c.pwr := rfl
@[simp] theorem Core.setChan_queues (c : Core) (n : Nat) (x : Chan) : (c.setChan n x).queues = c.queues := rfl
@[simp] theorem Core.setChan_fe (c : Core) (n : Nat) (x : Chan) : (c.setChan n x).fe = c.fe := rfl
@[simp] theorem Core.setChan_ctxs (c : Core) (n : Nat) (x : Chan) : (c.setChan n x).ctxs = c.ctxs := rfl
@[simp] theorem Core.setChan_graph (c : Core) (n : Nat) (x : Chan) : (c.setChan n x).graph = c.graph := rfl
@[simp] theorem Core.setChan_disp (c : Core) (n : Nat) (x : Chan) : (c.setChan n x).disp = c.disp := rfl
@[simp] theorem Core.setChan_sync (c : Core) (n : Nat) (x : Chan) : (c.setChan n x).sync = c.sync := rfl
@[simp] theorem Core.setChan_moe (c : Core) (n : Nat) (x : Chan) : (c.setChan n x).moe = c.moe := rfl
@[simp] theorem Core.setChan_ply (c : Core) (n : Nat) (x : Chan) : (c.setChan n x).ply = c.ply := rfl
@[simp] theorem Core.setChan_fab (c : Core) (n : Nat) (x : Chan) : (c.setChan n x).fab = c.fab := rfl
@[simp] theorem Core.setChan_evt (c : Core) (n : Nat) (x : Chan) : (c.setChan n x).evt = c.evt := rfl
@[simp] theorem Core.setChan_stash (c : Core) (n : Nat) (x : Chan) : (c.setChan n x).stash = c.stash := rfl
@[simp] theorem Core.setChan_watch (c : Core) (n : Nat) (x : Chan) : (c.setChan n x).watch = c.watch := rfl
@[simp] theorem Core.setChan_clip (c : Core) (n : Nat) (x : Chan) : (c.setChan n x).clip = c.clip := rfl
@[simp] theorem Core.setChan_hedge (c : Core) (n : Nat) (x : Chan) : (c.setChan n x).hedge = c.hedge := rfl
@[simp] theorem Core.setChan_tl (c : Core) (n : Nat) (x : Chan) : (c.setChan n x).tl = c.tl := rfl
@[simp] theorem Core.setChan_at_queue (c : Core) (n : Nat) (x : Chan) (j : Nat) : (c.setChan n x).queue j = c.queue j := rfl
@[simp] theorem Core.setChan_at_ctx (c : Core) (n : Nat) (x : Chan) (j : Nat) : (c.setChan n x).ctx j = c.ctx j := rfl
@[simp] theorem Core.setChan_at_port (c : Core) (n : Nat) (x : Chan) (j : Nat) : (c.setChan n x).port j = c.port j := rfl
@[simp] theorem Core.setChan_at_spindle (c : Core) (n : Nat) (x : Chan) (j : Nat) : (c.setChan n x).spindle j = c.spindle j := rfl
@[simp] theorem Core.setChan_at_table (c : Core) (n : Nat) (x : Chan) (j : Nat) : (c.setChan n x).table j = c.table j := rfl
@[simp] theorem Core.setChan_at_plyPage (c : Core) (n : Nat) (x : Chan) (j : Nat) : (c.setChan n x).plyPage j = c.plyPage j := rfl
@[simp] theorem Core.setChan_at_link (c : Core) (n : Nat) (x : Chan) (j : Nat) : (c.setChan n x).link j = c.link j := rfl
@[simp] theorem Core.setChan_at_sig (c : Core) (n : Nat) (x : Chan) (j : Nat) : (c.setChan n x).sig j = c.sig j := rfl

/-! setTable -/

@[simp] theorem Core.setTable_cfg (c : Core) (n : Nat) (x : Moe) : (c.setTable n x).cfg = c.cfg := rfl
@[simp] theorem Core.setTable_build (c : Core) (n : Nat) (x : Moe) : (c.setTable n x).build = c.build := rfl
@[simp] theorem Core.setTable_engPresent (c : Core) (n : Nat) (x : Moe) : (c.setTable n x).engPresent = c.engPresent := rfl
@[simp] theorem Core.setTable_now (c : Core) (n : Nat) (x : Moe) : (c.setTable n x).now = c.now := rfl
@[simp] theorem Core.setTable_free (c : Core) (n : Nat) (x : Moe) : (c.setTable n x).free = c.free := rfl
@[simp] theorem Core.setTable_mem (c : Core) (n : Nat) (x : Moe) : (c.setTable n x).mem = c.mem := rfl
@[simp] theorem Core.setTable_badLines (c : Core) (n : Nat) (x : Moe) : (c.setTable n x).badLines = c.badLines := rfl
@[simp] theorem Core.setTable_df (c : Core) (n : Nat) (x : Moe) : (c.setTable n x).df = c.df := rfl
@[simp] theorem Core.setTable_sets (c : Core) (n : Nat) (x : Moe) : (c.setTable n x).sets = c.sets := rfl
@[simp] theorem Core.setTable_reel (c : Core) (n : Nat) (x : Moe) : (c.setTable n x).reel = c.reel := rfl
@[simp] theorem Core.setTable_gc (c : Core) (n : Nat) (x : Moe) : (c.setTable n x).gc = c.gc := rfl
@[simp] theorem Core.setTable_clk (c : Core) (n : Nat) (x : Moe) : (c.setTable n x).clk = c.clk := rfl
@[simp] theorem Core.setTable_pwr (c : Core) (n : Nat) (x : Moe) : (c.setTable n x).pwr = c.pwr := rfl
@[simp] theorem Core.setTable_queues (c : Core) (n : Nat) (x : Moe) : (c.setTable n x).queues = c.queues := rfl
@[simp] theorem Core.setTable_fe (c : Core) (n : Nat) (x : Moe) : (c.setTable n x).fe = c.fe := rfl
@[simp] theorem Core.setTable_ctxs (c : Core) (n : Nat) (x : Moe) : (c.setTable n x).ctxs = c.ctxs := rfl
@[simp] theorem Core.setTable_graph (c : Core) (n : Nat) (x : Moe) : (c.setTable n x).graph = c.graph := rfl
@[simp] theorem Core.setTable_disp (c : Core) (n : Nat) (x : Moe) : (c.setTable n x).disp = c.disp := rfl
@[simp] theorem Core.setTable_sync (c : Core) (n : Nat) (x : Moe) : (c.setTable n x).sync = c.sync := rfl
@[simp] theorem Core.setTable_chans (c : Core) (n : Nat) (x : Moe) : (c.setTable n x).chans = c.chans := rfl
@[simp] theorem Core.setTable_ply (c : Core) (n : Nat) (x : Moe) : (c.setTable n x).ply = c.ply := rfl
@[simp] theorem Core.setTable_fab (c : Core) (n : Nat) (x : Moe) : (c.setTable n x).fab = c.fab := rfl
@[simp] theorem Core.setTable_evt (c : Core) (n : Nat) (x : Moe) : (c.setTable n x).evt = c.evt := rfl
@[simp] theorem Core.setTable_stash (c : Core) (n : Nat) (x : Moe) : (c.setTable n x).stash = c.stash := rfl
@[simp] theorem Core.setTable_watch (c : Core) (n : Nat) (x : Moe) : (c.setTable n x).watch = c.watch := rfl
@[simp] theorem Core.setTable_clip (c : Core) (n : Nat) (x : Moe) : (c.setTable n x).clip = c.clip := rfl
@[simp] theorem Core.setTable_hedge (c : Core) (n : Nat) (x : Moe) : (c.setTable n x).hedge = c.hedge := rfl
@[simp] theorem Core.setTable_tl (c : Core) (n : Nat) (x : Moe) : (c.setTable n x).tl = c.tl := rfl
@[simp] theorem Core.setTable_at_queue (c : Core) (n : Nat) (x : Moe) (j : Nat) : (c.setTable n x).queue j = c.queue j := rfl
@[simp] theorem Core.setTable_at_ctx (c : Core) (n : Nat) (x : Moe) (j : Nat) : (c.setTable n x).ctx j = c.ctx j := rfl
@[simp] theorem Core.setTable_at_port (c : Core) (n : Nat) (x : Moe) (j : Nat) : (c.setTable n x).port j = c.port j := rfl
@[simp] theorem Core.setTable_at_spindle (c : Core) (n : Nat) (x : Moe) (j : Nat) : (c.setTable n x).spindle j = c.spindle j := rfl
@[simp] theorem Core.setTable_at_chan (c : Core) (n : Nat) (x : Moe) (j : Nat) : (c.setTable n x).chan j = c.chan j := rfl
@[simp] theorem Core.setTable_at_plyPage (c : Core) (n : Nat) (x : Moe) (j : Nat) : (c.setTable n x).plyPage j = c.plyPage j := rfl
@[simp] theorem Core.setTable_at_link (c : Core) (n : Nat) (x : Moe) (j : Nat) : (c.setTable n x).link j = c.link j := rfl
@[simp] theorem Core.setTable_at_sig (c : Core) (n : Nat) (x : Moe) (j : Nat) : (c.setTable n x).sig j = c.sig j := rfl

/-! setPlyPage -/

@[simp] theorem Core.setPlyPage_cfg (c : Core) (n : Nat) (x : PlyPage) : (c.setPlyPage n x).cfg = c.cfg := rfl
@[simp] theorem Core.setPlyPage_build (c : Core) (n : Nat) (x : PlyPage) : (c.setPlyPage n x).build = c.build := rfl
@[simp] theorem Core.setPlyPage_engPresent (c : Core) (n : Nat) (x : PlyPage) : (c.setPlyPage n x).engPresent = c.engPresent := rfl
@[simp] theorem Core.setPlyPage_now (c : Core) (n : Nat) (x : PlyPage) : (c.setPlyPage n x).now = c.now := rfl
@[simp] theorem Core.setPlyPage_free (c : Core) (n : Nat) (x : PlyPage) : (c.setPlyPage n x).free = c.free := rfl
@[simp] theorem Core.setPlyPage_mem (c : Core) (n : Nat) (x : PlyPage) : (c.setPlyPage n x).mem = c.mem := rfl
@[simp] theorem Core.setPlyPage_badLines (c : Core) (n : Nat) (x : PlyPage) : (c.setPlyPage n x).badLines = c.badLines := rfl
@[simp] theorem Core.setPlyPage_df (c : Core) (n : Nat) (x : PlyPage) : (c.setPlyPage n x).df = c.df := rfl
@[simp] theorem Core.setPlyPage_sets (c : Core) (n : Nat) (x : PlyPage) : (c.setPlyPage n x).sets = c.sets := rfl
@[simp] theorem Core.setPlyPage_reel (c : Core) (n : Nat) (x : PlyPage) : (c.setPlyPage n x).reel = c.reel := rfl
@[simp] theorem Core.setPlyPage_gc (c : Core) (n : Nat) (x : PlyPage) : (c.setPlyPage n x).gc = c.gc := rfl
@[simp] theorem Core.setPlyPage_clk (c : Core) (n : Nat) (x : PlyPage) : (c.setPlyPage n x).clk = c.clk := rfl
@[simp] theorem Core.setPlyPage_pwr (c : Core) (n : Nat) (x : PlyPage) : (c.setPlyPage n x).pwr = c.pwr := rfl
@[simp] theorem Core.setPlyPage_queues (c : Core) (n : Nat) (x : PlyPage) : (c.setPlyPage n x).queues = c.queues := rfl
@[simp] theorem Core.setPlyPage_fe (c : Core) (n : Nat) (x : PlyPage) : (c.setPlyPage n x).fe = c.fe := rfl
@[simp] theorem Core.setPlyPage_ctxs (c : Core) (n : Nat) (x : PlyPage) : (c.setPlyPage n x).ctxs = c.ctxs := rfl
@[simp] theorem Core.setPlyPage_graph (c : Core) (n : Nat) (x : PlyPage) : (c.setPlyPage n x).graph = c.graph := rfl
@[simp] theorem Core.setPlyPage_disp (c : Core) (n : Nat) (x : PlyPage) : (c.setPlyPage n x).disp = c.disp := rfl
@[simp] theorem Core.setPlyPage_sync (c : Core) (n : Nat) (x : PlyPage) : (c.setPlyPage n x).sync = c.sync := rfl
@[simp] theorem Core.setPlyPage_moe (c : Core) (n : Nat) (x : PlyPage) : (c.setPlyPage n x).moe = c.moe := rfl
@[simp] theorem Core.setPlyPage_chans (c : Core) (n : Nat) (x : PlyPage) : (c.setPlyPage n x).chans = c.chans := rfl
@[simp] theorem Core.setPlyPage_fab (c : Core) (n : Nat) (x : PlyPage) : (c.setPlyPage n x).fab = c.fab := rfl
@[simp] theorem Core.setPlyPage_evt (c : Core) (n : Nat) (x : PlyPage) : (c.setPlyPage n x).evt = c.evt := rfl
@[simp] theorem Core.setPlyPage_stash (c : Core) (n : Nat) (x : PlyPage) : (c.setPlyPage n x).stash = c.stash := rfl
@[simp] theorem Core.setPlyPage_watch (c : Core) (n : Nat) (x : PlyPage) : (c.setPlyPage n x).watch = c.watch := rfl
@[simp] theorem Core.setPlyPage_clip (c : Core) (n : Nat) (x : PlyPage) : (c.setPlyPage n x).clip = c.clip := rfl
@[simp] theorem Core.setPlyPage_hedge (c : Core) (n : Nat) (x : PlyPage) : (c.setPlyPage n x).hedge = c.hedge := rfl
@[simp] theorem Core.setPlyPage_tl (c : Core) (n : Nat) (x : PlyPage) : (c.setPlyPage n x).tl = c.tl := rfl
@[simp] theorem Core.setPlyPage_at_queue (c : Core) (n : Nat) (x : PlyPage) (j : Nat) : (c.setPlyPage n x).queue j = c.queue j := rfl
@[simp] theorem Core.setPlyPage_at_ctx (c : Core) (n : Nat) (x : PlyPage) (j : Nat) : (c.setPlyPage n x).ctx j = c.ctx j := rfl
@[simp] theorem Core.setPlyPage_at_port (c : Core) (n : Nat) (x : PlyPage) (j : Nat) : (c.setPlyPage n x).port j = c.port j := rfl
@[simp] theorem Core.setPlyPage_at_spindle (c : Core) (n : Nat) (x : PlyPage) (j : Nat) : (c.setPlyPage n x).spindle j = c.spindle j := rfl
@[simp] theorem Core.setPlyPage_at_chan (c : Core) (n : Nat) (x : PlyPage) (j : Nat) : (c.setPlyPage n x).chan j = c.chan j := rfl
@[simp] theorem Core.setPlyPage_at_table (c : Core) (n : Nat) (x : PlyPage) (j : Nat) : (c.setPlyPage n x).table j = c.table j := rfl
@[simp] theorem Core.setPlyPage_at_link (c : Core) (n : Nat) (x : PlyPage) (j : Nat) : (c.setPlyPage n x).link j = c.link j := rfl
@[simp] theorem Core.setPlyPage_at_sig (c : Core) (n : Nat) (x : PlyPage) (j : Nat) : (c.setPlyPage n x).sig j = c.sig j := rfl

/-! setLink -/

@[simp] theorem Core.setLink_cfg (c : Core) (n : Nat) (x : Link) : (c.setLink n x).cfg = c.cfg := rfl
@[simp] theorem Core.setLink_build (c : Core) (n : Nat) (x : Link) : (c.setLink n x).build = c.build := rfl
@[simp] theorem Core.setLink_engPresent (c : Core) (n : Nat) (x : Link) : (c.setLink n x).engPresent = c.engPresent := rfl
@[simp] theorem Core.setLink_now (c : Core) (n : Nat) (x : Link) : (c.setLink n x).now = c.now := rfl
@[simp] theorem Core.setLink_free (c : Core) (n : Nat) (x : Link) : (c.setLink n x).free = c.free := rfl
@[simp] theorem Core.setLink_mem (c : Core) (n : Nat) (x : Link) : (c.setLink n x).mem = c.mem := rfl
@[simp] theorem Core.setLink_badLines (c : Core) (n : Nat) (x : Link) : (c.setLink n x).badLines = c.badLines := rfl
@[simp] theorem Core.setLink_df (c : Core) (n : Nat) (x : Link) : (c.setLink n x).df = c.df := rfl
@[simp] theorem Core.setLink_sets (c : Core) (n : Nat) (x : Link) : (c.setLink n x).sets = c.sets := rfl
@[simp] theorem Core.setLink_reel (c : Core) (n : Nat) (x : Link) : (c.setLink n x).reel = c.reel := rfl
@[simp] theorem Core.setLink_gc (c : Core) (n : Nat) (x : Link) : (c.setLink n x).gc = c.gc := rfl
@[simp] theorem Core.setLink_clk (c : Core) (n : Nat) (x : Link) : (c.setLink n x).clk = c.clk := rfl
@[simp] theorem Core.setLink_pwr (c : Core) (n : Nat) (x : Link) : (c.setLink n x).pwr = c.pwr := rfl
@[simp] theorem Core.setLink_queues (c : Core) (n : Nat) (x : Link) : (c.setLink n x).queues = c.queues := rfl
@[simp] theorem Core.setLink_fe (c : Core) (n : Nat) (x : Link) : (c.setLink n x).fe = c.fe := rfl
@[simp] theorem Core.setLink_ctxs (c : Core) (n : Nat) (x : Link) : (c.setLink n x).ctxs = c.ctxs := rfl
@[simp] theorem Core.setLink_graph (c : Core) (n : Nat) (x : Link) : (c.setLink n x).graph = c.graph := rfl
@[simp] theorem Core.setLink_disp (c : Core) (n : Nat) (x : Link) : (c.setLink n x).disp = c.disp := rfl
@[simp] theorem Core.setLink_sync (c : Core) (n : Nat) (x : Link) : (c.setLink n x).sync = c.sync := rfl
@[simp] theorem Core.setLink_moe (c : Core) (n : Nat) (x : Link) : (c.setLink n x).moe = c.moe := rfl
@[simp] theorem Core.setLink_chans (c : Core) (n : Nat) (x : Link) : (c.setLink n x).chans = c.chans := rfl
@[simp] theorem Core.setLink_ply (c : Core) (n : Nat) (x : Link) : (c.setLink n x).ply = c.ply := rfl
@[simp] theorem Core.setLink_evt (c : Core) (n : Nat) (x : Link) : (c.setLink n x).evt = c.evt := rfl
@[simp] theorem Core.setLink_stash (c : Core) (n : Nat) (x : Link) : (c.setLink n x).stash = c.stash := rfl
@[simp] theorem Core.setLink_watch (c : Core) (n : Nat) (x : Link) : (c.setLink n x).watch = c.watch := rfl
@[simp] theorem Core.setLink_clip (c : Core) (n : Nat) (x : Link) : (c.setLink n x).clip = c.clip := rfl
@[simp] theorem Core.setLink_hedge (c : Core) (n : Nat) (x : Link) : (c.setLink n x).hedge = c.hedge := rfl
@[simp] theorem Core.setLink_tl (c : Core) (n : Nat) (x : Link) : (c.setLink n x).tl = c.tl := rfl
@[simp] theorem Core.setLink_at_queue (c : Core) (n : Nat) (x : Link) (j : Nat) : (c.setLink n x).queue j = c.queue j := rfl
@[simp] theorem Core.setLink_at_ctx (c : Core) (n : Nat) (x : Link) (j : Nat) : (c.setLink n x).ctx j = c.ctx j := rfl
@[simp] theorem Core.setLink_at_port (c : Core) (n : Nat) (x : Link) (j : Nat) : (c.setLink n x).port j = c.port j := rfl
@[simp] theorem Core.setLink_at_spindle (c : Core) (n : Nat) (x : Link) (j : Nat) : (c.setLink n x).spindle j = c.spindle j := rfl
@[simp] theorem Core.setLink_at_chan (c : Core) (n : Nat) (x : Link) (j : Nat) : (c.setLink n x).chan j = c.chan j := rfl
@[simp] theorem Core.setLink_at_table (c : Core) (n : Nat) (x : Link) (j : Nat) : (c.setLink n x).table j = c.table j := rfl
@[simp] theorem Core.setLink_at_plyPage (c : Core) (n : Nat) (x : Link) (j : Nat) : (c.setLink n x).plyPage j = c.plyPage j := rfl
@[simp] theorem Core.setLink_at_sig (c : Core) (n : Nat) (x : Link) (j : Nat) : (c.setLink n x).sig j = c.sig j := rfl

/-! setRun -/

@[simp] theorem Core.setRun_cfg (c : Core) (x : Run) : (c.setRun x).cfg = c.cfg := rfl
@[simp] theorem Core.setRun_build (c : Core) (x : Run) : (c.setRun x).build = c.build := rfl
@[simp] theorem Core.setRun_engPresent (c : Core) (x : Run) : (c.setRun x).engPresent = c.engPresent := rfl
@[simp] theorem Core.setRun_now (c : Core) (x : Run) : (c.setRun x).now = c.now := rfl
@[simp] theorem Core.setRun_free (c : Core) (x : Run) : (c.setRun x).free = c.free := rfl
@[simp] theorem Core.setRun_mem (c : Core) (x : Run) : (c.setRun x).mem = c.mem := rfl
@[simp] theorem Core.setRun_badLines (c : Core) (x : Run) : (c.setRun x).badLines = c.badLines := rfl
@[simp] theorem Core.setRun_df (c : Core) (x : Run) : (c.setRun x).df = c.df := rfl
@[simp] theorem Core.setRun_sets (c : Core) (x : Run) : (c.setRun x).sets = c.sets := rfl
@[simp] theorem Core.setRun_reel (c : Core) (x : Run) : (c.setRun x).reel = c.reel := rfl
@[simp] theorem Core.setRun_gc (c : Core) (x : Run) : (c.setRun x).gc = c.gc := rfl
@[simp] theorem Core.setRun_clk (c : Core) (x : Run) : (c.setRun x).clk = c.clk := rfl
@[simp] theorem Core.setRun_pwr (c : Core) (x : Run) : (c.setRun x).pwr = c.pwr := rfl
@[simp] theorem Core.setRun_queues (c : Core) (x : Run) : (c.setRun x).queues = c.queues := rfl
@[simp] theorem Core.setRun_fe (c : Core) (x : Run) : (c.setRun x).fe = c.fe := rfl
@[simp] theorem Core.setRun_ctxs (c : Core) (x : Run) : (c.setRun x).ctxs = c.ctxs := rfl
@[simp] theorem Core.setRun_disp (c : Core) (x : Run) : (c.setRun x).disp = c.disp := rfl
@[simp] theorem Core.setRun_sync (c : Core) (x : Run) : (c.setRun x).sync = c.sync := rfl
@[simp] theorem Core.setRun_moe (c : Core) (x : Run) : (c.setRun x).moe = c.moe := rfl
@[simp] theorem Core.setRun_chans (c : Core) (x : Run) : (c.setRun x).chans = c.chans := rfl
@[simp] theorem Core.setRun_ply (c : Core) (x : Run) : (c.setRun x).ply = c.ply := rfl
@[simp] theorem Core.setRun_fab (c : Core) (x : Run) : (c.setRun x).fab = c.fab := rfl
@[simp] theorem Core.setRun_evt (c : Core) (x : Run) : (c.setRun x).evt = c.evt := rfl
@[simp] theorem Core.setRun_stash (c : Core) (x : Run) : (c.setRun x).stash = c.stash := rfl
@[simp] theorem Core.setRun_watch (c : Core) (x : Run) : (c.setRun x).watch = c.watch := rfl
@[simp] theorem Core.setRun_clip (c : Core) (x : Run) : (c.setRun x).clip = c.clip := rfl
@[simp] theorem Core.setRun_hedge (c : Core) (x : Run) : (c.setRun x).hedge = c.hedge := rfl
@[simp] theorem Core.setRun_tl (c : Core) (x : Run) : (c.setRun x).tl = c.tl := rfl
@[simp] theorem Core.setRun_at_queue (c : Core) (x : Run) (j : Nat) : (c.setRun x).queue j = c.queue j := rfl
@[simp] theorem Core.setRun_at_ctx (c : Core) (x : Run) (j : Nat) : (c.setRun x).ctx j = c.ctx j := rfl
@[simp] theorem Core.setRun_at_port (c : Core) (x : Run) (j : Nat) : (c.setRun x).port j = c.port j := rfl
@[simp] theorem Core.setRun_at_spindle (c : Core) (x : Run) (j : Nat) : (c.setRun x).spindle j = c.spindle j := rfl
@[simp] theorem Core.setRun_at_chan (c : Core) (x : Run) (j : Nat) : (c.setRun x).chan j = c.chan j := rfl
@[simp] theorem Core.setRun_at_table (c : Core) (x : Run) (j : Nat) : (c.setRun x).table j = c.table j := rfl
@[simp] theorem Core.setRun_at_plyPage (c : Core) (x : Run) (j : Nat) : (c.setRun x).plyPage j = c.plyPage j := rfl
@[simp] theorem Core.setRun_at_link (c : Core) (x : Run) (j : Nat) : (c.setRun x).link j = c.link j := rfl

/-! setObj -/

@[simp] theorem Core.setObj_cfg (c : Core) (x : SyncObj) : (c.setObj x).cfg = c.cfg := rfl
@[simp] theorem Core.setObj_build (c : Core) (x : SyncObj) : (c.setObj x).build = c.build := rfl
@[simp] theorem Core.setObj_engPresent (c : Core) (x : SyncObj) : (c.setObj x).engPresent = c.engPresent := rfl
@[simp] theorem Core.setObj_now (c : Core) (x : SyncObj) : (c.setObj x).now = c.now := rfl
@[simp] theorem Core.setObj_free (c : Core) (x : SyncObj) : (c.setObj x).free = c.free := rfl
@[simp] theorem Core.setObj_mem (c : Core) (x : SyncObj) : (c.setObj x).mem = c.mem := rfl
@[simp] theorem Core.setObj_badLines (c : Core) (x : SyncObj) : (c.setObj x).badLines = c.badLines := rfl
@[simp] theorem Core.setObj_df (c : Core) (x : SyncObj) : (c.setObj x).df = c.df := rfl
@[simp] theorem Core.setObj_sets (c : Core) (x : SyncObj) : (c.setObj x).sets = c.sets := rfl
@[simp] theorem Core.setObj_reel (c : Core) (x : SyncObj) : (c.setObj x).reel = c.reel := rfl
@[simp] theorem Core.setObj_gc (c : Core) (x : SyncObj) : (c.setObj x).gc = c.gc := rfl
@[simp] theorem Core.setObj_clk (c : Core) (x : SyncObj) : (c.setObj x).clk = c.clk := rfl
@[simp] theorem Core.setObj_pwr (c : Core) (x : SyncObj) : (c.setObj x).pwr = c.pwr := rfl
@[simp] theorem Core.setObj_queues (c : Core) (x : SyncObj) : (c.setObj x).queues = c.queues := rfl
@[simp] theorem Core.setObj_fe (c : Core) (x : SyncObj) : (c.setObj x).fe = c.fe := rfl
@[simp] theorem Core.setObj_ctxs (c : Core) (x : SyncObj) : (c.setObj x).ctxs = c.ctxs := rfl
@[simp] theorem Core.setObj_graph (c : Core) (x : SyncObj) : (c.setObj x).graph = c.graph := rfl
@[simp] theorem Core.setObj_disp (c : Core) (x : SyncObj) : (c.setObj x).disp = c.disp := rfl
@[simp] theorem Core.setObj_moe (c : Core) (x : SyncObj) : (c.setObj x).moe = c.moe := rfl
@[simp] theorem Core.setObj_chans (c : Core) (x : SyncObj) : (c.setObj x).chans = c.chans := rfl
@[simp] theorem Core.setObj_ply (c : Core) (x : SyncObj) : (c.setObj x).ply = c.ply := rfl
@[simp] theorem Core.setObj_fab (c : Core) (x : SyncObj) : (c.setObj x).fab = c.fab := rfl
@[simp] theorem Core.setObj_evt (c : Core) (x : SyncObj) : (c.setObj x).evt = c.evt := rfl
@[simp] theorem Core.setObj_stash (c : Core) (x : SyncObj) : (c.setObj x).stash = c.stash := rfl
@[simp] theorem Core.setObj_watch (c : Core) (x : SyncObj) : (c.setObj x).watch = c.watch := rfl
@[simp] theorem Core.setObj_clip (c : Core) (x : SyncObj) : (c.setObj x).clip = c.clip := rfl
@[simp] theorem Core.setObj_hedge (c : Core) (x : SyncObj) : (c.setObj x).hedge = c.hedge := rfl
@[simp] theorem Core.setObj_tl (c : Core) (x : SyncObj) : (c.setObj x).tl = c.tl := rfl
@[simp] theorem Core.setObj_at_queue (c : Core) (x : SyncObj) (j : Nat) : (c.setObj x).queue j = c.queue j := rfl
@[simp] theorem Core.setObj_at_ctx (c : Core) (x : SyncObj) (j : Nat) : (c.setObj x).ctx j = c.ctx j := rfl
@[simp] theorem Core.setObj_at_port (c : Core) (x : SyncObj) (j : Nat) : (c.setObj x).port j = c.port j := rfl
@[simp] theorem Core.setObj_at_spindle (c : Core) (x : SyncObj) (j : Nat) : (c.setObj x).spindle j = c.spindle j := rfl
@[simp] theorem Core.setObj_at_chan (c : Core) (x : SyncObj) (j : Nat) : (c.setObj x).chan j = c.chan j := rfl
@[simp] theorem Core.setObj_at_table (c : Core) (x : SyncObj) (j : Nat) : (c.setObj x).table j = c.table j := rfl
@[simp] theorem Core.setObj_at_plyPage (c : Core) (x : SyncObj) (j : Nat) : (c.setObj x).plyPage j = c.plyPage j := rfl
@[simp] theorem Core.setObj_at_link (c : Core) (x : SyncObj) (j : Nat) : (c.setObj x).link j = c.link j := rfl
@[simp] theorem Core.setObj_at_sig (c : Core) (x : SyncObj) (j : Nat) : (c.setObj x).sig j = c.sig j := rfl

/-! setFault -/

@[simp] theorem Core.setFault_cfg (c : Core) (b : Nat) : (c.setFault b).cfg = c.cfg := rfl
@[simp] theorem Core.setFault_build (c : Core) (b : Nat) : (c.setFault b).build = c.build := rfl
@[simp] theorem Core.setFault_engPresent (c : Core) (b : Nat) : (c.setFault b).engPresent = c.engPresent := rfl
@[simp] theorem Core.setFault_now (c : Core) (b : Nat) : (c.setFault b).now = c.now := rfl
@[simp] theorem Core.setFault_free (c : Core) (b : Nat) : (c.setFault b).free = c.free := rfl
@[simp] theorem Core.setFault_mem (c : Core) (b : Nat) : (c.setFault b).mem = c.mem := rfl
@[simp] theorem Core.setFault_badLines (c : Core) (b : Nat) : (c.setFault b).badLines = c.badLines := rfl
@[simp] theorem Core.setFault_df (c : Core) (b : Nat) : (c.setFault b).df = c.df := rfl
@[simp] theorem Core.setFault_reel (c : Core) (b : Nat) : (c.setFault b).reel = c.reel := rfl
@[simp] theorem Core.setFault_gc (c : Core) (b : Nat) : (c.setFault b).gc = c.gc := rfl
@[simp] theorem Core.setFault_clk (c : Core) (b : Nat) : (c.setFault b).clk = c.clk := rfl
@[simp] theorem Core.setFault_pwr (c : Core) (b : Nat) : (c.setFault b).pwr = c.pwr := rfl
@[simp] theorem Core.setFault_queues (c : Core) (b : Nat) : (c.setFault b).queues = c.queues := rfl
@[simp] theorem Core.setFault_fe (c : Core) (b : Nat) : (c.setFault b).fe = c.fe := rfl
@[simp] theorem Core.setFault_ctxs (c : Core) (b : Nat) : (c.setFault b).ctxs = c.ctxs := rfl
@[simp] theorem Core.setFault_graph (c : Core) (b : Nat) : (c.setFault b).graph = c.graph := rfl
@[simp] theorem Core.setFault_disp (c : Core) (b : Nat) : (c.setFault b).disp = c.disp := rfl
@[simp] theorem Core.setFault_sync (c : Core) (b : Nat) : (c.setFault b).sync = c.sync := rfl
@[simp] theorem Core.setFault_moe (c : Core) (b : Nat) : (c.setFault b).moe = c.moe := rfl
@[simp] theorem Core.setFault_chans (c : Core) (b : Nat) : (c.setFault b).chans = c.chans := rfl
@[simp] theorem Core.setFault_ply (c : Core) (b : Nat) : (c.setFault b).ply = c.ply := rfl
@[simp] theorem Core.setFault_fab (c : Core) (b : Nat) : (c.setFault b).fab = c.fab := rfl
@[simp] theorem Core.setFault_evt (c : Core) (b : Nat) : (c.setFault b).evt = c.evt := rfl
@[simp] theorem Core.setFault_stash (c : Core) (b : Nat) : (c.setFault b).stash = c.stash := rfl
@[simp] theorem Core.setFault_clip (c : Core) (b : Nat) : (c.setFault b).clip = c.clip := rfl
@[simp] theorem Core.setFault_hedge (c : Core) (b : Nat) : (c.setFault b).hedge = c.hedge := rfl
@[simp] theorem Core.setFault_tl (c : Core) (b : Nat) : (c.setFault b).tl = c.tl := rfl
@[simp] theorem Core.setFault_at_queue (c : Core) (b : Nat) (j : Nat) : (c.setFault b).queue j = c.queue j := rfl
@[simp] theorem Core.setFault_at_ctx (c : Core) (b : Nat) (j : Nat) : (c.setFault b).ctx j = c.ctx j := rfl
@[simp] theorem Core.setFault_at_port (c : Core) (b : Nat) (j : Nat) : (c.setFault b).port j = c.port j := rfl
@[simp] theorem Core.setFault_at_spindle (c : Core) (b : Nat) (j : Nat) : (c.setFault b).spindle j = c.spindle j := rfl
@[simp] theorem Core.setFault_at_chan (c : Core) (b : Nat) (j : Nat) : (c.setFault b).chan j = c.chan j := rfl
@[simp] theorem Core.setFault_at_table (c : Core) (b : Nat) (j : Nat) : (c.setFault b).table j = c.table j := rfl
@[simp] theorem Core.setFault_at_plyPage (c : Core) (b : Nat) (j : Nat) : (c.setFault b).plyPage j = c.plyPage j := rfl
@[simp] theorem Core.setFault_at_link (c : Core) (b : Nat) (j : Nat) : (c.setFault b).link j = c.link j := rfl
@[simp] theorem Core.setFault_at_sig (c : Core) (b : Nat) (j : Nat) : (c.setFault b).sig j = c.sig j := rfl

/-! setHedge -/

@[simp] theorem Core.setHedge_cfg (c : Core) (b : Nat) : (c.setHedge b).cfg = c.cfg := rfl
@[simp] theorem Core.setHedge_build (c : Core) (b : Nat) : (c.setHedge b).build = c.build := rfl
@[simp] theorem Core.setHedge_engPresent (c : Core) (b : Nat) : (c.setHedge b).engPresent = c.engPresent := rfl
@[simp] theorem Core.setHedge_now (c : Core) (b : Nat) : (c.setHedge b).now = c.now := rfl
@[simp] theorem Core.setHedge_free (c : Core) (b : Nat) : (c.setHedge b).free = c.free := rfl
@[simp] theorem Core.setHedge_mem (c : Core) (b : Nat) : (c.setHedge b).mem = c.mem := rfl
@[simp] theorem Core.setHedge_badLines (c : Core) (b : Nat) : (c.setHedge b).badLines = c.badLines := rfl
@[simp] theorem Core.setHedge_df (c : Core) (b : Nat) : (c.setHedge b).df = c.df := rfl
@[simp] theorem Core.setHedge_reel (c : Core) (b : Nat) : (c.setHedge b).reel = c.reel := rfl
@[simp] theorem Core.setHedge_gc (c : Core) (b : Nat) : (c.setHedge b).gc = c.gc := rfl
@[simp] theorem Core.setHedge_clk (c : Core) (b : Nat) : (c.setHedge b).clk = c.clk := rfl
@[simp] theorem Core.setHedge_pwr (c : Core) (b : Nat) : (c.setHedge b).pwr = c.pwr := rfl
@[simp] theorem Core.setHedge_queues (c : Core) (b : Nat) : (c.setHedge b).queues = c.queues := rfl
@[simp] theorem Core.setHedge_fe (c : Core) (b : Nat) : (c.setHedge b).fe = c.fe := rfl
@[simp] theorem Core.setHedge_ctxs (c : Core) (b : Nat) : (c.setHedge b).ctxs = c.ctxs := rfl
@[simp] theorem Core.setHedge_graph (c : Core) (b : Nat) : (c.setHedge b).graph = c.graph := rfl
@[simp] theorem Core.setHedge_disp (c : Core) (b : Nat) : (c.setHedge b).disp = c.disp := rfl
@[simp] theorem Core.setHedge_sync (c : Core) (b : Nat) : (c.setHedge b).sync = c.sync := rfl
@[simp] theorem Core.setHedge_moe (c : Core) (b : Nat) : (c.setHedge b).moe = c.moe := rfl
@[simp] theorem Core.setHedge_chans (c : Core) (b : Nat) : (c.setHedge b).chans = c.chans := rfl
@[simp] theorem Core.setHedge_ply (c : Core) (b : Nat) : (c.setHedge b).ply = c.ply := rfl
@[simp] theorem Core.setHedge_fab (c : Core) (b : Nat) : (c.setHedge b).fab = c.fab := rfl
@[simp] theorem Core.setHedge_evt (c : Core) (b : Nat) : (c.setHedge b).evt = c.evt := rfl
@[simp] theorem Core.setHedge_stash (c : Core) (b : Nat) : (c.setHedge b).stash = c.stash := rfl
@[simp] theorem Core.setHedge_watch (c : Core) (b : Nat) : (c.setHedge b).watch = c.watch := rfl
@[simp] theorem Core.setHedge_clip (c : Core) (b : Nat) : (c.setHedge b).clip = c.clip := rfl
@[simp] theorem Core.setHedge_tl (c : Core) (b : Nat) : (c.setHedge b).tl = c.tl := rfl
@[simp] theorem Core.setHedge_at_queue (c : Core) (b : Nat) (j : Nat) : (c.setHedge b).queue j = c.queue j := rfl
@[simp] theorem Core.setHedge_at_ctx (c : Core) (b : Nat) (j : Nat) : (c.setHedge b).ctx j = c.ctx j := rfl
@[simp] theorem Core.setHedge_at_port (c : Core) (b : Nat) (j : Nat) : (c.setHedge b).port j = c.port j := rfl
@[simp] theorem Core.setHedge_at_spindle (c : Core) (b : Nat) (j : Nat) : (c.setHedge b).spindle j = c.spindle j := rfl
@[simp] theorem Core.setHedge_at_chan (c : Core) (b : Nat) (j : Nat) : (c.setHedge b).chan j = c.chan j := rfl
@[simp] theorem Core.setHedge_at_table (c : Core) (b : Nat) (j : Nat) : (c.setHedge b).table j = c.table j := rfl
@[simp] theorem Core.setHedge_at_plyPage (c : Core) (b : Nat) (j : Nat) : (c.setHedge b).plyPage j = c.plyPage j := rfl
@[simp] theorem Core.setHedge_at_link (c : Core) (b : Nat) (j : Nat) : (c.setHedge b).link j = c.link j := rfl
@[simp] theorem Core.setHedge_at_sig (c : Core) (b : Nat) (j : Nat) : (c.setHedge b).sig j = c.sig j := rfl

/-! mark -/

@[simp] theorem Core.mark_cfg (c : Core) (off bit : Nat) : (c.mark off bit).cfg = c.cfg := rfl
@[simp] theorem Core.mark_build (c : Core) (off bit : Nat) : (c.mark off bit).build = c.build := rfl
@[simp] theorem Core.mark_engPresent (c : Core) (off bit : Nat) : (c.mark off bit).engPresent = c.engPresent := rfl
@[simp] theorem Core.mark_now (c : Core) (off bit : Nat) : (c.mark off bit).now = c.now := rfl
@[simp] theorem Core.mark_free (c : Core) (off bit : Nat) : (c.mark off bit).free = c.free := rfl
@[simp] theorem Core.mark_mem (c : Core) (off bit : Nat) : (c.mark off bit).mem = c.mem := rfl
@[simp] theorem Core.mark_badLines (c : Core) (off bit : Nat) : (c.mark off bit).badLines = c.badLines := rfl
@[simp] theorem Core.mark_df (c : Core) (off bit : Nat) : (c.mark off bit).df = c.df := rfl
@[simp] theorem Core.mark_reel (c : Core) (off bit : Nat) : (c.mark off bit).reel = c.reel := rfl
@[simp] theorem Core.mark_gc (c : Core) (off bit : Nat) : (c.mark off bit).gc = c.gc := rfl
@[simp] theorem Core.mark_clk (c : Core) (off bit : Nat) : (c.mark off bit).clk = c.clk := rfl
@[simp] theorem Core.mark_pwr (c : Core) (off bit : Nat) : (c.mark off bit).pwr = c.pwr := rfl
@[simp] theorem Core.mark_queues (c : Core) (off bit : Nat) : (c.mark off bit).queues = c.queues := rfl
@[simp] theorem Core.mark_fe (c : Core) (off bit : Nat) : (c.mark off bit).fe = c.fe := rfl
@[simp] theorem Core.mark_ctxs (c : Core) (off bit : Nat) : (c.mark off bit).ctxs = c.ctxs := rfl
@[simp] theorem Core.mark_graph (c : Core) (off bit : Nat) : (c.mark off bit).graph = c.graph := rfl
@[simp] theorem Core.mark_disp (c : Core) (off bit : Nat) : (c.mark off bit).disp = c.disp := rfl
@[simp] theorem Core.mark_sync (c : Core) (off bit : Nat) : (c.mark off bit).sync = c.sync := rfl
@[simp] theorem Core.mark_moe (c : Core) (off bit : Nat) : (c.mark off bit).moe = c.moe := rfl
@[simp] theorem Core.mark_chans (c : Core) (off bit : Nat) : (c.mark off bit).chans = c.chans := rfl
@[simp] theorem Core.mark_ply (c : Core) (off bit : Nat) : (c.mark off bit).ply = c.ply := rfl
@[simp] theorem Core.mark_fab (c : Core) (off bit : Nat) : (c.mark off bit).fab = c.fab := rfl
@[simp] theorem Core.mark_evt (c : Core) (off bit : Nat) : (c.mark off bit).evt = c.evt := rfl
@[simp] theorem Core.mark_stash (c : Core) (off bit : Nat) : (c.mark off bit).stash = c.stash := rfl
@[simp] theorem Core.mark_watch (c : Core) (off bit : Nat) : (c.mark off bit).watch = c.watch := rfl
@[simp] theorem Core.mark_clip (c : Core) (off bit : Nat) : (c.mark off bit).clip = c.clip := rfl
@[simp] theorem Core.mark_hedge (c : Core) (off bit : Nat) : (c.mark off bit).hedge = c.hedge := rfl
@[simp] theorem Core.mark_tl (c : Core) (off bit : Nat) : (c.mark off bit).tl = c.tl := rfl
@[simp] theorem Core.markNow_cfg (c : Core) (off bit : Nat) : (c.markNow off bit).cfg = c.cfg := rfl
@[simp] theorem Core.markNow_build (c : Core) (off bit : Nat) : (c.markNow off bit).build = c.build := rfl
@[simp] theorem Core.markNow_engPresent (c : Core) (off bit : Nat) : (c.markNow off bit).engPresent = c.engPresent := rfl
@[simp] theorem Core.markNow_now (c : Core) (off bit : Nat) : (c.markNow off bit).now = c.now := rfl
@[simp] theorem Core.markNow_free (c : Core) (off bit : Nat) : (c.markNow off bit).free = c.free := rfl
@[simp] theorem Core.markNow_mem (c : Core) (off bit : Nat) : (c.markNow off bit).mem = c.mem := rfl
@[simp] theorem Core.markNow_badLines (c : Core) (off bit : Nat) : (c.markNow off bit).badLines = c.badLines := rfl
@[simp] theorem Core.markNow_df (c : Core) (off bit : Nat) : (c.markNow off bit).df = c.df := rfl
@[simp] theorem Core.markNow_reel (c : Core) (off bit : Nat) : (c.markNow off bit).reel = c.reel := rfl
@[simp] theorem Core.markNow_gc (c : Core) (off bit : Nat) : (c.markNow off bit).gc = c.gc := rfl
@[simp] theorem Core.markNow_clk (c : Core) (off bit : Nat) : (c.markNow off bit).clk = c.clk := rfl
@[simp] theorem Core.markNow_pwr (c : Core) (off bit : Nat) : (c.markNow off bit).pwr = c.pwr := rfl
@[simp] theorem Core.markNow_queues (c : Core) (off bit : Nat) : (c.markNow off bit).queues = c.queues := rfl
@[simp] theorem Core.markNow_fe (c : Core) (off bit : Nat) : (c.markNow off bit).fe = c.fe := rfl
@[simp] theorem Core.markNow_ctxs (c : Core) (off bit : Nat) : (c.markNow off bit).ctxs = c.ctxs := rfl
@[simp] theorem Core.markNow_graph (c : Core) (off bit : Nat) : (c.markNow off bit).graph = c.graph := rfl
@[simp] theorem Core.markNow_disp (c : Core) (off bit : Nat) : (c.markNow off bit).disp = c.disp := rfl
@[simp] theorem Core.markNow_sync (c : Core) (off bit : Nat) : (c.markNow off bit).sync = c.sync := rfl
@[simp] theorem Core.markNow_moe (c : Core) (off bit : Nat) : (c.markNow off bit).moe = c.moe := rfl
@[simp] theorem Core.markNow_chans (c : Core) (off bit : Nat) : (c.markNow off bit).chans = c.chans := rfl
@[simp] theorem Core.markNow_ply (c : Core) (off bit : Nat) : (c.markNow off bit).ply = c.ply := rfl
@[simp] theorem Core.markNow_fab (c : Core) (off bit : Nat) : (c.markNow off bit).fab = c.fab := rfl
@[simp] theorem Core.markNow_evt (c : Core) (off bit : Nat) : (c.markNow off bit).evt = c.evt := rfl
@[simp] theorem Core.markNow_stash (c : Core) (off bit : Nat) : (c.markNow off bit).stash = c.stash := rfl
@[simp] theorem Core.markNow_watch (c : Core) (off bit : Nat) : (c.markNow off bit).watch = c.watch := rfl
@[simp] theorem Core.markNow_clip (c : Core) (off bit : Nat) : (c.markNow off bit).clip = c.clip := rfl
@[simp] theorem Core.markNow_hedge (c : Core) (off bit : Nat) : (c.markNow off bit).hedge = c.hedge := rfl
@[simp] theorem Core.markNow_tl (c : Core) (off bit : Nat) : (c.markNow off bit).tl = c.tl := rfl

end Sys2Proof.Machine
end

