-- ==== Sys2Proof/Laws/Memory.lean ====
section
/-! SUPPORT. Memory: a byte written is the byte read, other bytes stay, and every operation keeps the canonical form. -/

namespace Sys2Proof.Machine

theorem memOk_mono {m : List Host.Cell} {lo lo' : Nat} (h : memOk lo m = true) (hl : lo' ≤ lo) : memOk lo' m = true := by
  cases m with
  | nil => rfl
  | cons x r => obtain ⟨k, v⟩ := x; simp [memOk] at h ⊢; exact ⟨⟨by omega, h.1.2⟩, h.2⟩

theorem memGet_below {m : List Host.Cell} {lo a : Nat} (h : memOk lo m = true) (ha : a < lo) : memGet m a = 0 := by
  induction m generalizing lo with
  | nil => rfl
  | cons x r ih =>
    obtain ⟨k, v⟩ := x
    simp [memOk] at h
    have hk : k ≠ a := by omega
    simp [memGet, hk, ih h.2 (by omega)]

theorem memPut_ok {m : List Host.Cell} {lo a : Nat} (b : Byte) (h : memOk lo m = true) (ha : lo ≤ a) :
    memOk lo (memPut m a b) = true := by
  induction m generalizing lo with
  | nil =>
    unfold memPut
    split
    · rfl
    · rename_i hb; simpa [memOk, ha] using hb
  | cons x r ih =>
    obtain ⟨k, v⟩ := x
    simp [memOk] at h
    unfold memPut
    split
    · split
      · simp [memOk, h]
      · rename_i h1 h2
        have h3 : a + 1 ≤ k := by omega
        simp [memOk, h, ha, h3]
        exact h2
    · split
      · split
        · exact memOk_mono h.2 (by omega)
        · rename_i h2; subst a; simp [memOk, h]; exact h2
      · simp [memOk, h.1, ih h.2 (by omega)]

/-- Writing a byte keeps the canonical form. -/
theorem memPut_wf {m : List Host.Cell} (a : Nat) (b : Byte) (h : memWf m = true) : memWf (memPut m a b) = true :=
  memPut_ok b h (Nat.zero_le a)

theorem memGet_memPut_ok {m : List Host.Cell} {lo : Nat} (a : Nat) (b : Byte) (h : memOk lo m = true) (j : Nat) :
    memGet (memPut m a b) j = if j = a then b else memGet m j := by
  induction m generalizing lo with
  | nil =>
    unfold memPut
    split
    · rename_i hb; subst hb; simp [memGet]
    · by_cases hj : j = a
      · subst hj; simp [memGet]
      · simp [memGet, hj, Ne.symm hj]
  | cons x r ih =>
    obtain ⟨k, v⟩ := x
    simp [memOk] at h
    unfold memPut
    split
    · rename_i h1
      have h0 : memGet r a = 0 := memGet_below h.2 (by omega)
      have hk : k ≠ a := by omega
      split
      · rename_i h2; subst h2
        by_cases hj : j = a
        · subst hj; simp [memGet, hk, h0]
        · simp [hj]
      · by_cases hj : j = a
        · subst hj; simp [memGet]
        · simp [memGet, hj, Ne.symm hj]
    · split
      · rename_i h1 h2; subst h2
        have h0 : memGet r a = 0 := memGet_below h.2 (by omega)
        split
        · rename_i h3; subst h3
          by_cases hj : j = a
          · subst hj; simp [h0]
          · simp [memGet, hj, Ne.symm hj]
        · by_cases hj : j = a
          · subst hj; simp [memGet]
          · simp [memGet, hj, Ne.symm hj]
      · rename_i h1 h2
        by_cases hj : k = j
        · subst hj; simp [memGet, Ne.symm h2]
        · simp [memGet, hj, ih h.2]

/-- A byte written is the byte read, and every other byte reads as before. -/
theorem memGet_memPut {m : List Host.Cell} (a : Nat) (b : Byte) (h : memWf m = true) (j : Nat) :
    memGet (memPut m a b) j = if j = a then b else memGet m j := memGet_memPut_ok a b h j

theorem memPutBytes_wf {m : List Host.Cell} (a : Nat) (l : List Byte) (h : memWf m = true) :
    memWf (memPutBytes m a l) = true := by
  induction l generalizing m a with
  | nil => exact h
  | cons b r ih => exact ih (a + 1) (memPut_wf a b h)

theorem memPutCells_wf {m : List Host.Cell} (l : List Host.Cell) (h : memWf m = true) : memWf (memPutCells m l) = true := by
  induction l generalizing m with
  | nil => exact h
  | cons x r ih => exact ih (memPut_wf x.1 x.2 h)

/-! The operations on the state's memory -/

theorem writeBytes_wf {c : Core} (a : Nat) (bs : List Byte) (h : memWf c.mem = true) : memWf (c.writeBytes a bs).mem = true :=
  memPutBytes_wf a bs h

theorem store_wf {c : Core} (cells : List Host.Cell) (h : memWf c.mem = true) : memWf (c.store cells).mem = true :=
  memPutCells_wf _ h

theorem freeBytes_wf {c : Core} (l : List Nat) (h : memWf c.mem = true) : memWf (c.freeBytes l).mem = true :=
  memPutCells_wf _ h

theorem rspMemory_wf {c : Core} (r : ReelReq) (code : Nat) (h : memWf c.mem = true) : memWf (c.rspMemory r code).mem = true := by
  unfold Core.rspMemory
  split
  · exact h
  · split
    · unfold Core.ackMemory
      split
      · exact memPutCells_wf _ h
      · split
        · exact h
        · simp only []
          split
          · exact freeBytes_wf _ h
          · exact freeBytes_wf _ h
    · exact h

/-- The memory after reset has the canonical form. -/
theorem reset_memWf : memWf State.reset.core.mem = true := rfl

end Sys2Proof.Machine
end

