-- ==== Sys2Proof/Laws/Frame.lean ====
section
/-! SUPPORT. What the shared operations can do: the frames of a step's outcome, the checks of a register write, the control
processor's take of a packet, replies, records, the stash and the Reel port. -/

namespace Sys2Proof.Machine

/-! The frames of a step -/

theorem onRun_running {s : State} (h : s.running = true) (f : Sys → Core → Core) :
    onRun s f = .next (s.withCore (f s.sys s.core)) := by
  have : s.sys.phase = .run := by simpa [State.running] using h
  simp [onRun, this]

theorem onRun_idle {s : State} (h : s.running = false) (f : Sys → Core → Core) : onRun s f = .next s := by
  have : s.sys.phase ≠ .run := by simpa [State.running] using h
  simp [onRun, this]

/-- An effect in RUN answers a next state that differs in the core alone. -/
theorem onRun_next (s : State) (f : Sys → Core → Core) : ∃ c, onRun s f = .next (s.withCore c) := by
  cases h : s.running
  · exact ⟨s.core, onRun_idle h f⟩
  · exact ⟨_, onRun_running h f⟩

theorem onBootRun_awake {s : State} (h : s.awake = true) (f : Sys → Core → Core) :
    onBootRun s f = .next (s.withCore (f s.sys s.core)) := by
  have : s.sys.phase = .run ∨ s.sys.phase = .boot := by simpa [State.awake] using h
  simp [onBootRun, this]

theorem onBootRun_next (s : State) (f : Sys → Core → Core) : ∃ c, onBootRun s f = .next (s.withCore c) := by
  unfold onBootRun
  split
  · exact ⟨_, rfl⟩
  · exact ⟨s.core, rfl⟩

theorem onWrite_next (s : State) (off : Nat) (v : W64) (acc : Access) (f : Sys → Core → Option Core) :
    ∃ c, onWrite s off v acc f = .next (s.withCore c) := onBootRun_next s _

theorem onCommand_next (s : State) (op : Nat) (run : Sys → Core → Nat → Packet → Except Verdict CpRes) :
    ∃ c, onCommand s op run = .next (s.withCore c) := onRun_next s _

/-! Register writes (R397) -/

theorem State.served_awake {s : State} {off : Nat} {acc : Access} (h : s.served off acc = true) : s.awake = true := by
  simp [State.served, State.awake, State.running] at h ⊢
  exact h.1.1.1.1.1.imp id (fun x => x.1)

/-- An access that no check of R397 stops has the effect of the register's rule, or is recorded as ignored. -/
theorem regAccess_ok {y : Sys} {c : Core} {off : Nat} {v : W64} {acc : Access} (f : Core → Option Core)
    (h1 : absentReg c off = false) (h2 : (!acc.priv && !unprivOk off) = false)
    (h3 : ((readReg y c off).isNone || (y.phase == .boot && !bootServed off)) = false) (h4 : acc.be = 0xFF) :
    regAccess y c off v acc f = (f c).getD (c.logAccess 3 off acc.priv true v) := by
  unfold regAccess
  rw [if_neg (fun x => Bool.false_ne_true (h1 ▸ x.2)), if_neg (fun x => Bool.false_ne_true (h2 ▸ x)),
    if_neg (fun x => Bool.false_ne_true (h3 ▸ x)), if_neg (fun x => x h4)]
  generalize f c = o
  cases o with
  | none => exact Option.getD_none.symm
  | some x => exact Option.getD_some.symm

/-- A write that passes the checks has the effect of its register's rule, or is recorded as ignored. -/
theorem onWrite_served {s : State} {off : Nat} {acc : Access} (v : W64) (f : Sys → Core → Option Core)
    (h : s.served off acc = true) :
    onWrite s off v acc f = .next (s.withCore ((f s.sys s.core).getD (s.core.logAccess 3 off acc.priv true v))) := by
  have ha := State.served_awake h
  unfold State.served at h
  generalize hb : bootServed off = b at h
  generalize hr : readReg s.sys s.core off = r at h
  generalize hp : unprivOk off = u at h
  generalize habs : absentReg s.core off = a at h
  obtain ⟨⟨⟨⟨⟨h1, -⟩, h3⟩, h4⟩, h5⟩, h6⟩ := by
    simpa only [Bool.and_eq_true] using h
  rw [onWrite, onBootRun_awake ha, regAccess_ok]
  · rw [habs]; cases a <;> simp_all
  · rw [hp]; cases u <;> cases hq : acc.priv <;> simp_all
  · rw [hr, hb]
    cases r with
    | none => simp at h5
    | some x => cases b <;> simp_all [State.running]
  · exact eq_of_beq h6

/-! The control processor (R94) -/

/-- A packet that is taken is answered by its command's steps, on the core with the packet no longer offered, unless an access of
the command has to wait. -/
theorem onCommand_takes {s : State} {op n : Nat} {p : Packet} (run : Sys → Core → Nat → Packet → Except Verdict CpRes)
    (h : s.takes op n p = true) (hw : heldAnswer (run s.sys (s.core.taken n) n p) = false) :
    onCommand s op run = .next (s.withCore ((s.core.taken n).answer n p (run s.sys (s.core.taken n) n p))) := by
  simp only [State.takes, Bool.and_eq_true, decide_eq_true_eq, beq_iff_eq] at h
  obtain ⟨⟨⟨⟨h1, h2⟩, h3⟩, h4⟩, h5⟩ := h
  have h6 : (s.core.cpTaken n).cpAnswer n p (run s.sys) = run s.sys (s.core.taken n) n p := if_pos h5
  have h7 : s.core.cpTake op (run s.sys) = (s.core.taken n).answer n p (run s.sys (s.core.taken n) n p) := by
    unfold Core.cpTake
    rw [if_neg (by simp [h2]), h3]
    refine (if_neg (fun x => x h4)).trans ?_
    simp only [h6, hw, Bool.false_eq_true, if_false]
    rfl
  rw [onCommand, onRun_running h1, h7]

/-- While an access of the command has to wait, the packet stays offered (R33, R34). -/
theorem onCommand_waits {s : State} {op n : Nat} {p : Packet} (run : Sys → Core → Nat → Packet → Except Verdict CpRes)
    (h : s.takes op n p = true) (hw : heldAnswer (run s.sys (s.core.taken n) n p) = true) : onCommand s op run = .next s := by
  simp only [State.takes, Bool.and_eq_true, decide_eq_true_eq, beq_iff_eq] at h
  obtain ⟨⟨⟨⟨h1, h2⟩, h3⟩, h4⟩, h5⟩ := h
  have h6 : (s.core.cpTaken n).cpAnswer n p (run s.sys) = run s.sys (s.core.taken n) n p := if_pos h5
  have h7 : s.core.cpTake op (run s.sys) = s.core := by
    unfold Core.cpTake
    rw [if_neg (by simp [h2]), h3]
    refine (if_neg (fun x => x h4)).trans ?_
    simp only [h6, hw, if_true]
  rw [onCommand, onRun_running h1, h7]
  rfl

/-- The same for a command whose answer is known: done, accepted, held or refused. -/
theorem onCommand_done {s : State} {op n : Nat} {p : Packet} {run : Sys → Core → Nat → Packet → Except Verdict CpRes}
    {v : Verdict} {d : Core} (h : s.takes op n p = true) (hr : run s.sys (s.core.taken n) n p = .ok (.done v d)) :
    onCommand s op run = .next (s.replied n p v d) := by
  rw [onCommand_takes run h (by rw [hr]; rfl), hr]; rfl

theorem onCommand_accept {s : State} {op n : Nat} {p : Packet} {run : Sys → Core → Nat → Packet → Except Verdict CpRes}
    {d : Core} (h : s.takes op n p = true) (hr : run s.sys (s.core.taken n) n p = .ok (.accept d)) :
    onCommand s op run = .next (s.acceptedWith n p d) := by
  rw [onCommand_takes run h (by rw [hr]; rfl), hr]; rfl

theorem onCommand_hold {s : State} {op n : Nat} {p : Packet} {run : Sys → Core → Nat → Packet → Except Verdict CpRes}
    {cur : QCur} {d : Core} (h : s.takes op n p = true) (hr : run s.sys (s.core.taken n) n p = .ok (.hold cur d)) :
    onCommand s op run = .next (s.withCore (d.setQueue n { d.queue n with cur := cur })) := by
  rw [onCommand_takes run h (by rw [hr]; rfl), hr]; rfl

theorem onCommand_refuse {s : State} {op n : Nat} {p : Packet} {run : Sys → Core → Nat → Packet → Except Verdict CpRes}
    {v : Verdict} (h : s.takes op n p = true) (hr : run s.sys (s.core.taken n) n p = .error v)
    (hw : (v.status == .faulted && v.detail % 256 == heldCode) = false) :
    onCommand s op run = .next (s.replied n p v (s.core.taken n)) := by
  rw [onCommand_takes run h (by rw [hr]; exact hw), hr]; rfl

theorem passes_ok {α β : Type} {x : Except α β} (h : passes x = true) : ∃ b, x = .ok b := by
  cases x with
  | ok b => exact ⟨b, rfl⟩
  | error e => simp [passes] at h

/-! Records and replies -/

/-- A record changes the log, and where the log is full the flags of SZ_FAULT_STATUS and what is kept of their sets. -/
theorem logRaw_changes (c : Core) (cls : Nat) (w0 w1 w3 : W64) :
    ∃ e w l, c.logRaw cls w0 w1 w3 = { c with evt := e, watch := w, sets := l } := by
  unfold Core.logRaw
  split
  · exact ⟨_, c.watch, c.sets, rfl⟩
  · exact ⟨c.evt, _, _, rfl⟩

theorem log_changes (c : Core) (cls reason unit ctx status detail : Nat) (subject value : W64) :
    ∃ e w l, c.log cls reason unit ctx status detail subject value = { c with evt := e, watch := w, sets := l } :=
  logRaw_changes ..

/-- A final reply that is given changes its queue, its context, and, on a queue in OFF, the log. -/
theorem finalReplyOf_changes (c : Core) (n tag : Nat) (v : Verdict) (irq gives : Bool) (rest : Option RunRest) (halts : Bool)
    (hm : c.mute v = false) :
    ∃ q x e w l, c.finalReplyOf n tag v irq gives rest halts
      = { c with queues := aset c.queues n q, ctxs := aset c.ctxs n x, evt := e, watch := w, sets := l } := by
  unfold Core.finalReplyOf
  simp only [hm, Bool.false_eq_true, if_false]
  split
  · obtain ⟨e, w, l, h⟩ := log_changes
      ((c.setCtx n { c.ctx n with cmds := sat64 (c.ctx n).cmds 1, progressed := true }).setQueue n
        (if gives then { c.queue n with compl := ((c.queue n).compl + 1) % 2 ^ 64, cur := .none }
         else { c.queue n with compl := ((c.queue n).compl + 1) % 2 ^ 64 })) 0x02 3 n n v.status.code 0 _ _
    exact ⟨_, _, e, w, l, h⟩
  · exact ⟨_, _, c.evt, c.watch, c.sets, rfl⟩

theorem finalReply_changes (c : Core) (n tag : Nat) (v : Verdict) (irq gives : Bool) (hm : c.mute v = false) :
    ∃ q x e w l, c.finalReply n tag v irq gives
      = { c with queues := aset c.queues n q, ctxs := aset c.ctxs n x, evt := e, watch := w, sets := l } :=
  finalReplyOf_changes c n tag v irq gives none false hm

/-- After DEVICE_RESET a final reply other than RESET_PENDING changes nothing (R89). -/
theorem finalReply_mute {c : Core} {v : Verdict} (n tag : Nat) (irq gives : Bool) (hm : c.mute v = true) :
    c.finalReply n tag v irq gives = c := by
  unfold Core.finalReply Core.finalReplyOf
  simp [hm]

/-- An ACCEPTED reply changes its queue alone. -/
theorem acceptedReply_changes (c : Core) (n : Nat) (p : Packet) : ∃ q, c.acceptedReply n p = c.setQueue n q := by
  unfold Core.acceptedReply
  simp only []
  split
  · exact ⟨_, rfl⟩
  · exact ⟨_, rfl⟩

/-! The stash and the Reel port -/

/-- What goes to the stash changes the stash, the log, the flags of SZ_FAULT_STATUS and what is kept of sets. -/
theorem stashPut_changes (c : Core) (i : StashItem) (w : StashWaiter) :
    ∃ t e f l, (c.stashPut i w).1 = { c with stash := t, evt := e, watch := f, sets := l } := by
  unfold Core.stashPut
  split
  · unfold Core.stashEnter
    simp only []
    obtain ⟨e, f, l, h⟩ := log_changes (Core.mark { c with stash := { c.stash with
        ents := aset c.stash.ents (c.stash.wr % 64) (stashWords i c.gc.count), wr := (c.stash.wr + 1) % 2 ^ 32,
        status := setBit c.stash.status 0 true } } 0x2400028 0) 0x05 i.reason (c.stash.wr % 64) i.ctx i.status.code 0
        (stashWords i c.gc.count).w1 (stashWords i c.gc.count).w3
    exact ⟨_, e, f, l, h⟩
  · exact ⟨_, c.evt, c.watch, _, rfl⟩

/-- Issuing a request changes the Reel port alone. -/
theorem reelIssue_changes (c : Core) (write : Bool) (tier addr : Nat) (data : List Byte) (s : Serves) :
    ∃ r, c.reelIssue write tier addr data s = { c with reel := r } := by
  unfold Core.reelIssue
  simp only []
  split
  · exact ⟨_, rfl⟩
  · exact ⟨_, rfl⟩

theorem reelWrite_changes (c : Core) (addr : Nat) (bs : List Byte) (s : Serves) :
    ∃ r, c.reelWrite addr bs s = { c with reel := r } := by
  unfold Core.reelWrite
  generalize reelPieces (bs.length / 64 + 2) addr bs = l
  induction l generalizing c with
  | nil => exact ⟨c.reel, rfl⟩
  | cons p r ih =>
    obtain ⟨x, hx⟩ := reelIssue_changes c true (tierOf p.1) p.1 p.2 s
    rw [List.foldl_cons, hx]
    exact ih { c with reel := x }

/-! The order of a comparison -/

theorem mem_insertFirst {α : Type} (before : α → α → Bool) (x y : α) (l : List α) :
    y ∈ insertFirst before x l ↔ y = x ∨ y ∈ l := by
  induction l with
  | nil => simp [insertFirst]
  | cons a r ih =>
    unfold insertFirst
    split
    · simp [ih, or_left_comm]
    · simp

/-- Sorting neither adds nor loses an element. -/
theorem mem_sortBy {α : Type} (before : α → α → Bool) (y : α) (l : List α) : y ∈ sortBy before l ↔ y ∈ l := by
  induction l with
  | nil => simp [sortBy]
  | cons a r ih => simp [sortBy, mem_insertFirst, ih]

end Sys2Proof.Machine
end

