-- ==== Sys2Proof/Laws/PerInstr.lean ====
section
/-! SUPPORT. What well-formedness says of each command, one lemma per constructor: every number among its operands is below
the bound of its place (Table 00-3, Table 01-5, Table 17-1). -/

set_option Elab.async false

namespace Sys2Proof.Laws.OperandsFit

/-- The numbers among the operands of a command, each with the bound of its place. -/
def bounds : Instr → List (Nat × Nat)
  | .ctxOpen => []
  | .ctxClose => []
  | .handleFlush => []
  | .nop => []
  | .skeinLoad => []
  | .skeinUnload => []
  | .skeinPatch => []
  | .launch => []
  | .launchAt => []
  | .replay => []
  | .cancel => []
  | .stopAt => []
  | .resume => []
  | .syncSet => []
  | .syncWait => []
  | .syncAlloc => []
  | .syncFree => []
  | .chanOpen => []
  | .chanClose => []
  | .chanReset => []
  | .moeTableLoad => []
  | .moeTableUnload => []
  | .moeStats => []
  | .fabricPlanLoad => []
  | .routeLoad => []
  | .spareMap => []
  | .linkAccept => []
  | .clipAt => []
  | .clipAbort => []
  | .restore => []
  | .loopbackSet => []
  | .selftest => []
  | .fwLoad => []
  | .debugUnlock => []
  | .query => []
  | .deviceReset => []
  | .deviceResetEntry => []
  | .doorbell queue _ _ _ => [(queue, 64)]
  | .fetcherGrant => []
  | .fetchAttempt => []
  | .fetchSliceEnd => []
  | .checkEnd queue => [(queue, 64)]
  | .frontEndChecks queue => [(queue, 64)]
  | .haltReply queue => [(queue, 64)]
  | .replyWrite queue => [(queue, 64)]
  | .rplFree queue _ _ => [(queue, 64)]
  | .ringConfiguration queue _ _ _ => [(queue, 64)]
  | .instanceStart ctx tag => [(ctx, 64), (tag, 2 ^ 32)]
  | .delayListRelease list => [(list, 4)]
  | .spindleSelection spindle => [(spindle, 16)]
  | .recordPresentation port => [(port, 1024)]
  | .rampWindow => []
  | .rampGrant => []
  | .yieldRequest port => [(port, 1024)]
  | .sliceEnd spindle => [(spindle, 16)]
  | .engDone port tag _ => [(port, 1024), (tag, 2 ^ 16)]
  | .engYielded port tag _ => [(port, 1024), (tag, 2 ^ 16)]
  | .engFault port tag code _ => [(port, 1024), (tag, 2 ^ 16), (code, 8)]
  | .engSaved port tag _ => [(port, 1024), (tag, 2 ^ 16)]
  | .taskCompletion => []
  | .deviceSideEnqueue => []
  | .completionEdges => []
  | .signalWordWrite index _ _ => [(index, 4096)]
  | .polledWaitRead ctx skein node => [(ctx, 64), (skein, 1024), (node, 2 ^ 20)]
  | .syncObjectEvaluation => []
  | .pageRefill ctx skein page => [(ctx, 64), (skein, 1024), (page, 2 ^ 13)]
  | .deadline ctx tag node port => [(ctx, 64), (tag, 2 ^ 32), (node, 2 ^ 20), (port, 1024)]
  | .stopCount ctx => [(ctx, 64)]
  | .reelResponse chan tag _ status _ _ => [(chan, 2), (tag, 256), (status, 4)]
  | .stepExchange table => [(table, 64)]
  | .stepDecide table => [(table, 64)]
  | .stepCommit table => [(table, 64)]
  | .stepRouted table => [(table, 64)]
  | .collectiveStart ctx slot => [(ctx, 64), (slot, 64)]
  | .collectiveExchange ctx slot => [(ctx, 64), (slot, 64)]
  | .collectiveWrite ctx slot => [(ctx, 64), (slot, 64)]
  | .collectiveDone ctx slot => [(ctx, 64), (slot, 64)]
  | .plyFrame _ => []
  | .messageSend chan => [(chan, 4096)]
  | .sendSlotRead chan => [(chan, 4096)]
  | .channelRecord _ => []
  | .recordDelivered chan => [(chan, 4096)]
  | .signalApply chan => [(chan, 4096)]
  | .handlerCreate chan => [(chan, 4096)]
  | .openNotice _ => []
  | .closeNotice _ => []
  | .creditNotice _ => []
  | .sendRefusal _ => []
  | .consumedWordRead chan => [(chan, 4096)]
  | .sigaddFrame _ => []
  | .szSmGrant _ _ => []
  | .grantVerified => []
  | .manualRead _ => []
  | .manualSet _ => []
  | .manualAdd _ => []
  | .manualSignal _ => []
  | .linkLockLoss link => [(link, 8)]
  | .phyUpLocked link => [(link, 8)]
  | .phyUpTimeout link => [(link, 8)]
  | .codewordLock link _ => [(link, 8)]
  | .alignTimeout link => [(link, 8)]
  | .identTimeout link => [(link, 8)]
  | .measureTimeout link => [(link, 8)]
  | .failedRetry link => [(link, 8)]
  | .beaconFrame link _ => [(link, 8)]
  | .beaconSend => []
  | .probeFrame link _ => [(link, 8)]
  | .latencyMeasured link => [(link, 8)]
  | .ackFrame link _ => [(link, 8)]
  | .ackTimer link => [(link, 8)]
  | .unacknowledgedTimeout link => [(link, 8)]
  | .psyncFrame _ => []
  | .psyncTimeout link => [(link, 8)]
  | .retrain link _ _ => [(link, 8)]
  | .oos link _ _ => [(link, 8)]
  | .holdover => []
  | .referenceCandidate => []
  | .clipFrame _ => []
  | .clipCount => []
  | .roundAResult => []
  | .instanceCut ctx tag => [(ctx, 64), (tag, 2 ^ 32)]
  | .roundBStart => []
  | .roundBResult => []
  | .clipSaveDone => []
  | .roundCResult => []
  | .continueCount => []
  | .drainLimit => []
  | .restoreApply => []
  | .resumeCount => []
  | .powerOnReset => []
  | .porstNDeassert => []
  | .sysRstN => []
  | .lockLoss => []
  | .lockRegained => []
  | .clkStart => []
  | .drainEnd => []
  | .keyRead lcsCode _ => [(lcsCode, 16)]
  | .memInit => []
  | .driftWindow _ => []
  | .refAbsent => []
  | .powerRequest => []
  | .powerRequestDue ctx tag => [(ctx, 64), (tag, 2 ^ 32)]
  | .powerGrant _ => []
  | .throttleRise => []
  | .throttleFall => []
  | .hedgeSelftestEnd _ => []
  | .healthTestFail => []
  | .tsScanMode => []
  | .watchPeriodEnd => []
  | .stashPtrs _ _ => []
  | .evtPtrs _ _ => []
  | .watchCtrl _ _ => []
  | .rampCtrl _ _ => []
  | .cxPeerSigrange ctx _ _ _ => [(ctx, 64)]
  | .flowrangeDlyCtrl _ _ _ => []
  | .slackDefault _ _ => []
  | .clipCtrlCut _ _ _ => []
  | .plySlot ctx slot word _ _ => [(ctx, 64), (slot, 64), (word, 8)]
  | .testLoopbackRegisters _ _ _ => []
  | .worstDiffRead offset tag _ => [(offset, 0x4000000), (tag, 64)]
  | .registerWrite offset _ _ => [(offset, 0x4000000)]
  | .engineWireTimeout port => [(port, 1024)]
  | .selftestEnd _ => []
  | .engineStart port => [(port, 1024)]
  | .uncorrectableCodeword link _ _ => [(link, 8)]
  | .bistInstrument _ => []

/-- In a well-formed command every number fits its place. -/
def Statement (i : Instr) : Prop := i.wf = true → ∀ x ∈ bounds i, x.1 < x.2

theorem ctxOpen : Statement .ctxOpen := by simp [Statement, bounds]

theorem ctxClose : Statement .ctxClose := by simp [Statement, bounds]

theorem handleFlush : Statement .handleFlush := by simp [Statement, bounds]

theorem nop : Statement .nop := by simp [Statement, bounds]

theorem skeinLoad : Statement .skeinLoad := by simp [Statement, bounds]

theorem skeinUnload : Statement .skeinUnload := by simp [Statement, bounds]

theorem skeinPatch : Statement .skeinPatch := by simp [Statement, bounds]

theorem launch : Statement .launch := by simp [Statement, bounds]

theorem launchAt : Statement .launchAt := by simp [Statement, bounds]

theorem replay : Statement .replay := by simp [Statement, bounds]

theorem cancel : Statement .cancel := by simp [Statement, bounds]

theorem stopAt : Statement .stopAt := by simp [Statement, bounds]

theorem resume : Statement .resume := by simp [Statement, bounds]

theorem syncSet : Statement .syncSet := by simp [Statement, bounds]

theorem syncWait : Statement .syncWait := by simp [Statement, bounds]

theorem syncAlloc : Statement .syncAlloc := by simp [Statement, bounds]

theorem syncFree : Statement .syncFree := by simp [Statement, bounds]

theorem chanOpen : Statement .chanOpen := by simp [Statement, bounds]

theorem chanClose : Statement .chanClose := by simp [Statement, bounds]

theorem chanReset : Statement .chanReset := by simp [Statement, bounds]

theorem moeTableLoad : Statement .moeTableLoad := by simp [Statement, bounds]

theorem moeTableUnload : Statement .moeTableUnload := by simp [Statement, bounds]

theorem moeStats : Statement .moeStats := by simp [Statement, bounds]

theorem fabricPlanLoad : Statement .fabricPlanLoad := by simp [Statement, bounds]

theorem routeLoad : Statement .routeLoad := by simp [Statement, bounds]

theorem spareMap : Statement .spareMap := by simp [Statement, bounds]

theorem linkAccept : Statement .linkAccept := by simp [Statement, bounds]

theorem clipAt : Statement .clipAt := by simp [Statement, bounds]

theorem clipAbort : Statement .clipAbort := by simp [Statement, bounds]

theorem restore : Statement .restore := by simp [Statement, bounds]

theorem loopbackSet : Statement .loopbackSet := by simp [Statement, bounds]

theorem selftest : Statement .selftest := by simp [Statement, bounds]

theorem fwLoad : Statement .fwLoad := by simp [Statement, bounds]

theorem debugUnlock : Statement .debugUnlock := by simp [Statement, bounds]

theorem query : Statement .query := by simp [Statement, bounds]

theorem deviceReset : Statement .deviceReset := by simp [Statement, bounds]

theorem deviceResetEntry : Statement .deviceResetEntry := by simp [Statement, bounds]

theorem doorbell (queue : Nat) (value : W64) (acc : Access) (stores : List Host.Cell) : Statement (.doorbell queue value acc stores) := by
  simp_all [Statement, bounds, Instr.wf]

theorem fetcherGrant : Statement .fetcherGrant := by simp [Statement, bounds]

theorem fetchAttempt : Statement .fetchAttempt := by simp [Statement, bounds]

theorem fetchSliceEnd : Statement .fetchSliceEnd := by simp [Statement, bounds]

theorem checkEnd (queue : Nat) : Statement (.checkEnd queue) := by
  simp_all [Statement, bounds, Instr.wf]

theorem frontEndChecks (queue : Nat) : Statement (.frontEndChecks queue) := by
  simp_all [Statement, bounds, Instr.wf]

theorem haltReply (queue : Nat) : Statement (.haltReply queue) := by
  simp_all [Statement, bounds, Instr.wf]

theorem replyWrite (queue : Nat) : Statement (.replyWrite queue) := by
  simp_all [Statement, bounds, Instr.wf]

theorem rplFree (queue : Nat) (value : W64) (acc : Access) : Statement (.rplFree queue value acc) := by
  simp_all [Statement, bounds, Instr.wf]

theorem ringConfiguration (queue : Nat) (which : RingReg) (value : W64) (acc : Access) : Statement (.ringConfiguration queue which value acc) := by
  simp_all [Statement, bounds, Instr.wf]

theorem instanceStart (ctx : Nat) (tag : Nat) : Statement (.instanceStart ctx tag) := by
  simp_all [Statement, bounds, Instr.wf]

theorem delayListRelease (list : Nat) : Statement (.delayListRelease list) := by
  simp_all [Statement, bounds, Instr.wf]

theorem spindleSelection (spindle : Nat) : Statement (.spindleSelection spindle) := by
  simp_all [Statement, bounds, Instr.wf]

theorem recordPresentation (port : Nat) : Statement (.recordPresentation port) := by
  simp_all [Statement, bounds, Instr.wf]

theorem rampWindow : Statement .rampWindow := by simp [Statement, bounds]

theorem rampGrant : Statement .rampGrant := by simp [Statement, bounds]

theorem yieldRequest (port : Nat) : Statement (.yieldRequest port) := by
  simp_all [Statement, bounds, Instr.wf]

theorem sliceEnd (spindle : Nat) : Statement (.sliceEnd spindle) := by
  simp_all [Statement, bounds, Instr.wf]

theorem engDone (port : Nat) (tag : Nat) (stores : List Host.Cell) : Statement (.engDone port tag stores) := by
  simp_all [Statement, bounds, Instr.wf]

theorem engYielded (port : Nat) (tag : Nat) (stores : List Host.Cell) : Statement (.engYielded port tag stores) := by
  simp_all [Statement, bounds, Instr.wf]

theorem engFault (port : Nat) (tag : Nat) (code : Nat) (stores : List Host.Cell) : Statement (.engFault port tag code stores) := by
  simp_all [Statement, bounds, Instr.wf]

theorem engSaved (port : Nat) (tag : Nat) (stores : List Host.Cell) : Statement (.engSaved port tag stores) := by
  simp_all [Statement, bounds, Instr.wf]

theorem taskCompletion : Statement .taskCompletion := by simp [Statement, bounds]

theorem deviceSideEnqueue : Statement .deviceSideEnqueue := by simp [Statement, bounds]

theorem completionEdges : Statement .completionEdges := by simp [Statement, bounds]

theorem signalWordWrite (index : Nat) (value : W64) (acc : Access) : Statement (.signalWordWrite index value acc) := by
  simp_all [Statement, bounds, Instr.wf]

theorem polledWaitRead (ctx : Nat) (skein : Nat) (node : Nat) : Statement (.polledWaitRead ctx skein node) := by
  simp_all [Statement, bounds, Instr.wf]

theorem syncObjectEvaluation : Statement .syncObjectEvaluation := by simp [Statement, bounds]

theorem pageRefill (ctx : Nat) (skein : Nat) (page : Nat) : Statement (.pageRefill ctx skein page) := by
  simp_all [Statement, bounds, Instr.wf]

theorem deadline (ctx : Nat) (tag : Nat) (node : Nat) (port : Nat) : Statement (.deadline ctx tag node port) := by
  simp_all [Statement, bounds, Instr.wf]

theorem stopCount (ctx : Nat) : Statement (.stopCount ctx) := by
  simp_all [Statement, bounds, Instr.wf]

theorem reelResponse (chan : Nat) (tag : Nat) (write : Bool) (status : Nat) (stores : List Host.Cell) (bad : List (Nat × Nat)) : Statement (.reelResponse chan tag write status stores bad) := by
  simp_all [Statement, bounds, Instr.wf]

theorem stepExchange (table : Nat) : Statement (.stepExchange table) := by
  simp_all [Statement, bounds, Instr.wf]

theorem stepDecide (table : Nat) : Statement (.stepDecide table) := by
  simp_all [Statement, bounds, Instr.wf]

theorem stepCommit (table : Nat) : Statement (.stepCommit table) := by
  simp_all [Statement, bounds, Instr.wf]

theorem stepRouted (table : Nat) : Statement (.stepRouted table) := by
  simp_all [Statement, bounds, Instr.wf]

theorem collectiveStart (ctx : Nat) (slot : Nat) : Statement (.collectiveStart ctx slot) := by
  simp_all [Statement, bounds, Instr.wf]

theorem collectiveExchange (ctx : Nat) (slot : Nat) : Statement (.collectiveExchange ctx slot) := by
  simp_all [Statement, bounds, Instr.wf]

theorem collectiveWrite (ctx : Nat) (slot : Nat) : Statement (.collectiveWrite ctx slot) := by
  simp_all [Statement, bounds, Instr.wf]

theorem collectiveDone (ctx : Nat) (slot : Nat) : Statement (.collectiveDone ctx slot) := by
  simp_all [Statement, bounds, Instr.wf]

theorem plyFrame (arrival : Arrival) : Statement (.plyFrame arrival) := by simp [Statement, bounds]

theorem messageSend (chan : Nat) : Statement (.messageSend chan) := by
  simp_all [Statement, bounds, Instr.wf]

theorem sendSlotRead (chan : Nat) : Statement (.sendSlotRead chan) := by
  simp_all [Statement, bounds, Instr.wf]

theorem channelRecord (arrival : Arrival) : Statement (.channelRecord arrival) := by simp [Statement, bounds]

theorem recordDelivered (chan : Nat) : Statement (.recordDelivered chan) := by
  simp_all [Statement, bounds, Instr.wf]

theorem signalApply (chan : Nat) : Statement (.signalApply chan) := by
  simp_all [Statement, bounds, Instr.wf]

theorem handlerCreate (chan : Nat) : Statement (.handlerCreate chan) := by
  simp_all [Statement, bounds, Instr.wf]

theorem openNotice (arrival : Arrival) : Statement (.openNotice arrival) := by simp [Statement, bounds]

theorem closeNotice (arrival : Arrival) : Statement (.closeNotice arrival) := by simp [Statement, bounds]

theorem creditNotice (arrival : Arrival) : Statement (.creditNotice arrival) := by simp [Statement, bounds]

theorem sendRefusal (arrival : Arrival) : Statement (.sendRefusal arrival) := by simp [Statement, bounds]

theorem consumedWordRead (chan : Nat) : Statement (.consumedWordRead chan) := by
  simp_all [Statement, bounds, Instr.wf]

theorem sigaddFrame (arrival : Arrival) : Statement (.sigaddFrame arrival) := by simp [Statement, bounds]

theorem szSmGrant (value : W64) (acc : Access) : Statement (.szSmGrant value acc) := by simp [Statement, bounds]

theorem grantVerified : Statement .grantVerified := by simp [Statement, bounds]

theorem manualRead (acc : Access) : Statement (.manualRead acc) := by simp [Statement, bounds]

theorem manualSet (acc : Access) : Statement (.manualSet acc) := by simp [Statement, bounds]

theorem manualAdd (acc : Access) : Statement (.manualAdd acc) := by simp [Statement, bounds]

theorem manualSignal (acc : Access) : Statement (.manualSignal acc) := by simp [Statement, bounds]

theorem linkLockLoss (link : Nat) : Statement (.linkLockLoss link) := by
  simp_all [Statement, bounds, Instr.wf]

theorem phyUpLocked (link : Nat) : Statement (.phyUpLocked link) := by
  simp_all [Statement, bounds, Instr.wf]

theorem phyUpTimeout (link : Nat) : Statement (.phyUpTimeout link) := by
  simp_all [Statement, bounds, Instr.wf]

theorem codewordLock (link : Nat) (skew : Nat) : Statement (.codewordLock link skew) := by
  simp_all [Statement, bounds, Instr.wf]

theorem alignTimeout (link : Nat) : Statement (.alignTimeout link) := by
  simp_all [Statement, bounds, Instr.wf]

theorem identTimeout (link : Nat) : Statement (.identTimeout link) := by
  simp_all [Statement, bounds, Instr.wf]

theorem measureTimeout (link : Nat) : Statement (.measureTimeout link) := by
  simp_all [Statement, bounds, Instr.wf]

theorem failedRetry (link : Nat) : Statement (.failedRetry link) := by
  simp_all [Statement, bounds, Instr.wf]

theorem beaconFrame (link : Nat) (frame : Frame) : Statement (.beaconFrame link frame) := by
  simp_all [Statement, bounds, Instr.wf]

theorem beaconSend : Statement .beaconSend := by simp [Statement, bounds]

theorem probeFrame (link : Nat) (frame : Frame) : Statement (.probeFrame link frame) := by
  simp_all [Statement, bounds, Instr.wf]

theorem latencyMeasured (link : Nat) : Statement (.latencyMeasured link) := by
  simp_all [Statement, bounds, Instr.wf]

theorem ackFrame (link : Nat) (frame : Frame) : Statement (.ackFrame link frame) := by
  simp_all [Statement, bounds, Instr.wf]

theorem ackTimer (link : Nat) : Statement (.ackTimer link) := by
  simp_all [Statement, bounds, Instr.wf]

theorem unacknowledgedTimeout (link : Nat) : Statement (.unacknowledgedTimeout link) := by
  simp_all [Statement, bounds, Instr.wf]

theorem psyncFrame (arrival : Arrival) : Statement (.psyncFrame arrival) := by simp [Statement, bounds]

theorem psyncTimeout (link : Nat) : Statement (.psyncTimeout link) := by
  simp_all [Statement, bounds, Instr.wf]

theorem retrain (link : Nat) (value : W64) (acc : Access) : Statement (.retrain link value acc) := by
  simp_all [Statement, bounds, Instr.wf]

theorem oos (link : Nat) (value : W64) (acc : Access) : Statement (.oos link value acc) := by
  simp_all [Statement, bounds, Instr.wf]

theorem holdover : Statement .holdover := by simp [Statement, bounds]

theorem referenceCandidate : Statement .referenceCandidate := by simp [Statement, bounds]

theorem clipFrame (arrival : Arrival) : Statement (.clipFrame arrival) := by simp [Statement, bounds]

theorem clipCount : Statement .clipCount := by simp [Statement, bounds]

theorem roundAResult : Statement .roundAResult := by simp [Statement, bounds]

theorem instanceCut (ctx : Nat) (tag : Nat) : Statement (.instanceCut ctx tag) := by
  simp_all [Statement, bounds, Instr.wf]

theorem roundBStart : Statement .roundBStart := by simp [Statement, bounds]

theorem roundBResult : Statement .roundBResult := by simp [Statement, bounds]

theorem clipSaveDone : Statement .clipSaveDone := by simp [Statement, bounds]

theorem roundCResult : Statement .roundCResult := by simp [Statement, bounds]

theorem continueCount : Statement .continueCount := by simp [Statement, bounds]

theorem drainLimit : Statement .drainLimit := by simp [Statement, bounds]

theorem restoreApply : Statement .restoreApply := by simp [Statement, bounds]

theorem resumeCount : Statement .resumeCount := by simp [Statement, bounds]

theorem powerOnReset : Statement .powerOnReset := by simp [Statement, bounds]

theorem porstNDeassert : Statement .porstNDeassert := by simp [Statement, bounds]

theorem sysRstN : Statement .sysRstN := by simp [Statement, bounds]

theorem lockLoss : Statement .lockLoss := by simp [Statement, bounds]

theorem lockRegained : Statement .lockRegained := by simp [Statement, bounds]

theorem clkStart : Statement .clkStart := by simp [Statement, bounds]

theorem drainEnd : Statement .drainEnd := by simp [Statement, bounds]

theorem keyRead (lcsCode : Nat) (slots : List (Nat × BitVec 32)) : Statement (.keyRead lcsCode slots) := by
  simp_all [Statement, bounds, Instr.wf]

theorem memInit : Statement .memInit := by simp [Statement, bounds]

theorem driftWindow (measured : Nat) : Statement (.driftWindow measured) := by simp [Statement, bounds]

theorem refAbsent : Statement .refAbsent := by simp [Statement, bounds]

theorem powerRequest : Statement .powerRequest := by simp [Statement, bounds]

theorem powerRequestDue (ctx : Nat) (tag : Nat) : Statement (.powerRequestDue ctx tag) := by
  simp_all [Statement, bounds, Instr.wf]

theorem powerGrant (amps : Nat) : Statement (.powerGrant amps) := by simp [Statement, bounds]

theorem throttleRise : Statement .throttleRise := by simp [Statement, bounds]

theorem throttleFall : Statement .throttleFall := by simp [Statement, bounds]

theorem hedgeSelftestEnd (pass : Bool) : Statement (.hedgeSelftestEnd pass) := by simp [Statement, bounds]

theorem healthTestFail : Statement .healthTestFail := by simp [Statement, bounds]

theorem tsScanMode : Statement .tsScanMode := by simp [Statement, bounds]

theorem watchPeriodEnd : Statement .watchPeriodEnd := by simp [Statement, bounds]

theorem stashPtrs (value : W64) (acc : Access) : Statement (.stashPtrs value acc) := by simp [Statement, bounds]

theorem evtPtrs (value : W64) (acc : Access) : Statement (.evtPtrs value acc) := by simp [Statement, bounds]

theorem watchCtrl (value : W64) (acc : Access) : Statement (.watchCtrl value acc) := by simp [Statement, bounds]

theorem rampCtrl (value : W64) (acc : Access) : Statement (.rampCtrl value acc) := by simp [Statement, bounds]

theorem cxPeerSigrange (ctx : Nat) (which : RangeReg) (value : W64) (acc : Access) : Statement (.cxPeerSigrange ctx which value acc) := by
  simp_all [Statement, bounds, Instr.wf]

theorem flowrangeDlyCtrl (which : FlowDlyReg) (value : W64) (acc : Access) : Statement (.flowrangeDlyCtrl which value acc) := by simp [Statement, bounds]

theorem slackDefault (value : W64) (acc : Access) : Statement (.slackDefault value acc) := by simp [Statement, bounds]

theorem clipCtrlCut (which : ClipReg) (value : W64) (acc : Access) : Statement (.clipCtrlCut which value acc) := by simp [Statement, bounds]

theorem plySlot (ctx : Nat) (slot : Nat) (word : Nat) (value : W64) (acc : Access) : Statement (.plySlot ctx slot word value acc) := by
  simp_all [Statement, bounds, Instr.wf]

theorem testLoopbackRegisters (which : TestReg) (value : W64) (acc : Access) : Statement (.testLoopbackRegisters which value acc) := by simp [Statement, bounds]

theorem worstDiffRead (offset : Nat) (tag : Nat) (priv : Bool) : Statement (.worstDiffRead offset tag priv) := by
  simp [Statement, bounds, Instr.wf]

theorem registerWrite (offset : Nat) (value : W64) (acc : Access) : Statement (.registerWrite offset value acc) := by
  simp_all [Statement, bounds, Instr.wf]

theorem engineWireTimeout (port : Nat) : Statement (.engineWireTimeout port) := by
  simp_all [Statement, bounds, Instr.wf]

theorem selftestEnd (outcome : TestOutcome) : Statement (.selftestEnd outcome) := by simp [Statement, bounds]

theorem engineStart (port : Nat) : Statement (.engineStart port) := by
  simp_all [Statement, bounds, Instr.wf]

theorem uncorrectableCodeword (link : Nat) (lost : List Nat) (errors : Nat) : Statement (.uncorrectableCodeword link lost errors) := by
  simp_all [Statement, bounds, Instr.wf]

theorem bistInstrument (outcome : TestOutcome) : Statement (.bistInstrument outcome) := by simp [Statement, bounds]

end Sys2Proof.Laws.OperandsFit
end

