-- ==== Sys2Proof/Tests/Fixture.lean ====
section
/-! SUPPORT. Small states for the tests. -/

namespace Sys2Proof.Tests

open Sys2Proof.Machine

/-- A chip of C1 with an engine on port 0: context 0 is OPEN on Spindle 0, the count is aligned, and nothing else has happened. -/
def core : Core :=
  { Core.reset with cfg := .c1, engPresent := [true], ctxs := [(0, { Ctx.reset with st := .opened, spindleMask := 1 })],
                    gc := { Core.reset.gc with status := 9 } }

/-- The lifecycle part in RUN. -/
def runSys : Sys := { Sys.reset with phase := .run, porst := false, hg := .booted }

/-- A state in RUN. -/
def runs (c : Core) : State := { sys := runSys, core := c, pending := [] }

/-- A state in one of the reset states, with Hedge in a state. -/
def inPhase (ph : Phase) (hg : HgState) : State :=
  { sys := { Sys.reset with phase := ph, porst := false, hg := hg }, core := core, pending := [] }

/-- A privileged access of a whole word. -/
def whole : Access := { be := 0xFF, priv := true }

/-- A packet with an opcode, the EXP flag, a tag of 7, and its words from W1 on. -/
def packet (op : Nat) (exp : Bool) (ws : List W64) : Packet :=
  w64 (7 * 2 ^ 32 + (if exp then 2 ^ 24 else 0) + (ws.length + 1) * 256 + op) :: ws

/-- A queue that can be replied to, at work on a packet offered to the control processor. -/
def busy (p : Packet) : Queue := { Queue.reset with fetch := .idle, cur := .offered p }

/-- A core whose queue n has a packet offered. -/
def offering (c : Core) (n : Nat) (p : Packet) : Core :=
  { c.setQueue n (busy p) with fe := { FrontEnd.reset with offered := [n] } }

/-- A state in RUN whose queue 0 has a packet offered. -/
def asked (c : Core) (p : Packet) : State := runs (offering c 0 p)

/-- Memory that holds words from an address upward. -/
def holding (c : Core) (a : Nat) (ws : List W64) : Core := { c with mem := memPutBytes c.mem a (ws.flatMap wordBytes) }

/-- Context 0 with a handle table of two entries at 0x1000: a region that may be written at 0x10000, and one that may only be
read at 0x20000, each of 64 KiB. -/
def handled (c : Core) : Core :=
  holding (c.setCtx 0 { c.ctx 0 with st := .opened, handleLog2 := 1, htab := 0x1000 }) 0x1000
    [0xC000000000010000, 0x10000, 0x8000000000020000, 0x10000]

/-- An answer is `ok` of a value where it is that value. -/
theorem ok_of {α β : Type} {x : Except α β} {b : β} (h : x.toOption = some b) : x = .ok b := by
  cases x <;> simp_all [Except.toOption]

/-- A loaded skein of context 0 with some records, all of them in the graph store. -/
def skein (id : Nat) (recs : List Rec256) : Skein :=
  { ctx := 0, id := id, nodeCount := recs.length, handles := [], constLen := 0, enqLimit := 0, hasReplay := false, replayPrio := 0,
    replaySteps := 0, replayAt := 0, recs := recs, resident := [0], reserved := 1, noSpill := false, spillAt := 0x30000,
    spillLen := 4160, salt := [], params := [], figure := 0 }

/-- A static task at a node, in a state. -/
def task (node : Nat) (st : TaskSt) : Task :=
  { node := node, dyn := none, kind := .static, arg := 0, tripTop := 0, st := st, ctr := 0, live := true, elided := false,
    armed := false, satisfied := true, readyAt := 0, rank := 0, delay := none, tiles := some 2, sent := [], back := [], held := [],
    issuedAt := none, dlMissed := [], dlTold := false, exempt := false, lastTile := [], fault := none, backAt := [], ripeAt := none }

/-- A started run of context 0 with a tag, of a skein, with some tasks. -/
def aRun (tag skein : Nat) (tasks : List Task) : Run :=
  { ctx := 0, tag := tag, skein := skein, kind := .launch, irq := false, start := 0, started := true, cbuf := none, slackE8 := 0x10,
    slackEclk := 0, halt := false, checksOff := false, timing := false, cancelled := false, deadline := false, firstFault := none,
    stopping := false, dynNext := 0, handleIdx := [], delayRes := [], watchRes := 0, storeRes := 0, figure := 0, counted := true,
    binds := [], passed := [], cancelAt := none, cutAt := none, cut := false, shifts := [], pc := 0, steps := [], wrote := [], tasks := tasks }

/-- A core with a loaded skein and a run of it. -/
def graphed (k : Skein) (rs : List Run) : Core := { core with graph := { core.graph with skeins := [k], runs := rs } }

/-- The task at a node of the run with tag 9 of context 0. -/
def ref (node : Nat) : TaskRef := { ctx := 0, tag := 9, node := node, dyn := none }

/-- A NOP. -/
def nopP : Packet := packet 0x05 false [0]

/-- CTX_CLOSE of context 1. -/
def closeP (exp : Bool) : Packet := packet 0x02 exp [0, 1]

/-- A receive end of context 0 that names a skein. -/
def receive (skein : Nat) : ChanRx :=
  { ctx := 0, srcPos := 0, srcChan := 4, skein := skein, handlers := [0], consAt := 0x10000, ringAt := 0x11000, ringLog2 := 12, wr := 0,
    consumed := 0, seqNext := 0, recs := [], dlvd := 0, nextPoll := 0, polling := false, due := false }

/-- The engine on port 0 at work on a record that serves a task. -/
def atWork (c : Core) (use : RecUse) : Core :=
  { c with disp := { c.disp with ports := [(0, { EngPort.reset with
      en := true, rstN := true, out := some { bits := 1, kind := 4, use := use, last := false, at_ := 0, started := true } })] } }

/-- A send end of context 0 whose bound nodes are those of skein 3. -/
def sender : ChanTx :=
  { ctx := 0, st := .opened, destPos := 0, destChan := 4, skein := 3, slotLog2 := 12, first := 0, last := 0, areaAt := 0x20000,
    areaLen := 0x1000, stallLimit := 0, ringLog2 := 12, epoch := 1, wr := 0, consumed := 0, delivered := 0, sentRecs := 0, reason := 0,
    slots := [], waiting := [], sent := [] }

/-- The plan of a chip that is alone. -/
def alone : Plan :=
  { rev := 1, domain := 5, self := 0, nAxes := 1, dims := [1, 1, 1, 1], spares := [[], [], [], []], refs := [0, 0, 0, 0],
    datelines := [0, 0, 0, 0], ports := [] }

/-- A frame of this chip itself that has arrived, and whose payload is some. -/
def arrived (c : Core) (p : Payload) : Core := { c with fab := { c.fab with inbox := [c.mkFrame 0 0 p] } }

/-- The route of a slice to which context 0 is bound, on a chip that is alone. -/
def aloneRoute : Route :=
  { sliceEn := true, sliceId := 1, ctxMask := 1, lens := [1, 1, 1, 1], starts := [0, 0, 0, 0], table := [], groups := [] }

end Sys2Proof.Tests
end

