-- ==== Sys2Proof/Tests/Witness1.lean ====
section
/-! SUPPORT. States and operands that meet the hypotheses of the statements: reset, Hedge, the front end, contexts, registers, tests, power, skeins and runs. -/

set_option Elab.async false

namespace Sys2Proof.Tests

open Sys2Proof.Machine

/-! The queue of commands, and the idle step -/

theorem witness_StepRunsFrontCommand : { runs core with pending := [.nop, .query] }.pending = .nop :: [.query] := rfl

theorem witness_IdleStepAdvancesTime_before :
    ∀ s ∈ [State.reset, inPhase .boot .ready], s.pending = [] ∧ s.sys.scanRise = none ∧ s.sys.phase ≠ .run := by decide +kernel

theorem witness_ResetStateHolds_outputs :
    State.reset.sys.phase ≠ .run ∧ State.reset.sys.phase ≠ .boot ∧ State.reset.sys.phase ≠ .keyRead
      ∧ (inPhase .boot .ready).sys.phase = .boot := by decide

theorem witness_IdleStepAdvancesTime_boot : State.reset.sys.phase ≠ .boot ∧ (inPhase .boot .ready).sys.phase = .boot := by decide

theorem witness_IdleStepAdvancesTime_between :
    let s := runs { core with now := 4 }
    s.pending = [] ∧ s.sys.scanRise = none ∧ s.sys.phase = .run ∧ (s.core.now + 1) % 3 ≠ 0 ∧ (s.core.now + 1) % 2 ≠ 0 := by decide +kernel

def idling (g : GCount → GCount) : State := runs { core with now := 2, gc := g core.gc }

theorem witness_IdleStepAdvancesTime_counts :
    (idling id).pending = [] ∧ (idling id).sys.scanRise = none ∧ (idling id).sys.phase = .run ∧ ((idling id).core.now + 1) % 3 = 0 ∧ (idling id).core.gc.hold = 0
      ∧ (idling id).core.gc.realign = false := by decide +kernel

theorem witness_IdleStepAdvancesTime_holds : 0 < (idling fun g => { g with hold := 1 }).core.gc.hold := by decide +kernel

theorem witness_IdleStepAdvancesTime_corrects :
    let s := idling fun g => { g with realign := true, offsets := [768, 768] }
    s.core.gc.hold = 0 ∧ s.core.gc.realign = true ∧ 2 < roundOffset s.core.gc.offsets ∧ s.core.gc.lastCorr = none := by
  decide +kernel

theorem runSys_legal : runSys.Legal := by
  constructor <;> simp [runSys, Sys.reset, Sys.hedgeFits]

theorem witness_LegalLifecycleIsKept : (runs core).sys.Legal ∧ ∃ t, step (runs core) = .next t := ⟨runSys_legal, _, rfl⟩

theorem witness_OnlyLifecycleCommandsChangeSys :
    let s : State := { inPhase .clkStart .keys with core := { core with now := 768 } }
    ∃ t, exec .clkStart s = .next t ∧ t.sys ≠ s.sys :=
  ⟨_, rfl, by decide +kernel⟩

theorem witness_MemoryRunWriteThenRead : memWf [(3, 1), (5, 2)] = true := by decide

/-! Reset and boot -/

theorem witness_ResetSequenceAdvances_hold : State.reset.sys.phase = .hold ∧ State.reset.sys.porst = true := by decide

theorem witness_ResetSequenceAdvances_lock :
    let s : State := { inPhase .hold .keys with
      sys := { (inPhase .hold .keys).sys with holdLock := true }, core := { core with now := 48000 } }
    s.sys.phase = .hold ∧ s.sys.holdLock = true ∧ s.sys.since + 1000 * 48 ≤ s.core.now := by decide +kernel

theorem witness_ResetSequenceAdvances_clkStart :
    let s : State := { inPhase .clkStart .keys with core := { core with now := 768 } }
    s.sys.phase = .clkStart ∧ s.sys.since + 16 * 48 ≤ s.core.now := by decide +kernel

theorem witness_ResetSequenceAdvances_drain :
    let s := inPhase .drain .keys
    s.sys.phase = .drain ∧ s.sys.drainOwed = [] := by decide

theorem witness_ResetSequenceAdvances_drain_late :
    let s : State := { inPhase .drain .keys with
      sys := { (inPhase .drain .keys).sys with drainOwed := [(0, 3)] }, core := { core with now := 4 * 65536 } }
    s.sys.phase = .drain ∧ s.sys.since + 4 * 65536 ≤ s.core.now := by decide

theorem witness_ResetSequenceAdvances_memInit :
    let s : State := { inPhase .memInit .keys with core := { core with now := 196608 } }
    s.sys.phase = .memInit ∧ s.sys.since + 65536 * 3 ≤ s.core.now ∧ s.sys.hg ≠ .dead ∧ s.sys.bootFails < 8
      ∧ (inPhase .memInit .dead).sys.hg = .dead ∧ 8 ≤ { s.sys with bootFails := 8 }.bootFails := by decide +kernel

def slots : List (Nat × W32) := usedSlots.map fun k => (k, BitVec.ofNat 32 (k + 1))

theorem witness_KeyReadSamplesLifecycle :
    (inPhase .keyRead .keys).sys.phase = .keyRead ∧ usedSlots.all (fun k => (aget slots k).isSome) = true
      ∧ (inPhase .keyRead .keys).sys.scanned = false
      ∧ { (inPhase .keyRead .keys).sys with scanned := true }.scanned = true := by decide +kernel

theorem witness_WholeDeviceResetEntry : (runs core).sys.porst = false ∧ (runs core).sys.joins (runs core).core.now = false := by
  decide +kernel

theorem witness_WholeDeviceResetEntry_device :
    let s : State := { runs core with sys := { runSys with devResetAt := some 0 } }
    s.sys.porst = false ∧ s.sys.joins s.core.now = false ∧ s.sys.devResetAt ≠ none ∧ s.core.resetRepliesOwed = false := by
  decide +kernel

theorem witness_WholeDeviceResetEntry_late :
    let s : State := { runs { core with now := 4 * 65536 } with sys := { runSys with devResetAt := some 0 } }
    s.sys.porst = false ∧ s.sys.joins s.core.now = false ∧ ∃ d, s.sys.devResetAt = some d ∧ d + 4 * 65536 ≤ s.core.now := by
  refine ⟨?_, ?_, 0, ?_⟩ <;> decide +kernel

theorem witness_DeviceResetStopsTheFrontEnd :
    let s := asked ((core.setCtx 1 { Ctx.reset with st := .opened }).setQueue 1 (busy [])) (packet 0xF0 false [0])
    s.takes 0xF0 0 (packet 0xF0 false [0]) = true ∧ passes (step9 (packet 0xF0 false [0]) []) = true
      ∧ (s.core.ctx 1).st ≠ .closed ∧ (s.core.queue 1).fetch ≠ .off ∧ (s.core.ctx 2).st = .closed := by decide +kernel

/-! Hedge -/

theorem witness_HedgeTestsAndScan_selftest :
    (inPhase .boot .selftest).sys.hg = .selftest ∧ (inPhase .boot .selftest).sys.phase = .boot := by decide

theorem witness_HedgeTestsAndScan_health : (runs core).sys.hg = .ready ∨ (runs core).sys.hg = .booted := by decide

theorem witness_HedgeTestsAndScan_scan :
    ((runs core).sys.phase = .memInit ∨ (runs core).sys.phase = .boot ∨ (runs core).sys.phase = .run)
      ∧ (runs core).sys.lcs = .manufacture := by decide

/-- A chip in DEVELOPMENT that an unlock opened for scan at an SCLK. -/
def unlockedAt (k : Nat) : State :=
  { runs core with sys := { runSys with lcs := .development, unlockScan := true, unlockAt := some k } }

theorem witness_HedgeTestsAndScan_unlocked :
    (unlockedAt 9).sys.phase = .run ∧ (unlockedAt 9).sys.lcs = .development ∧ (unlockedAt 9).sys.unlockScan = true
      ∧ (unlockedAt 9).sys.unlockAt ≠ some ((unlockedAt 9).core.now / 48)
      ∧ (unlockedAt 0).sys.unlockAt = some ((unlockedAt 0).core.now / 48)
      ∧ { runSys with lcs := .locked }.scanOk = false := by decide +kernel

/-- FW_LOAD of an image at 0x4000 offered in BOOT, Hedge in a state, after some failures. -/
def loading (hg : HgState) (fails : Nat) : State :=
  { sys := { (inPhase .boot hg).sys with bootFails := fails }
    core := offering core 0 (packet 0x90 false [0, 0x4000, 0x400]), pending := [] }

theorem witness_FwLoadVerifiesImage_refuses :
    let s := loading .ready 7
    s.sys.phase = .boot ∧ s.core.bootPacket = some (packet 0x90 false [0, 0x4000, 0x400]) ∧ s.sys.hg ≠ .selftest
      ∧ s.sys.lcs ≠ .decommissioned ∧ passes (step9 (packet 0x90 false [0, 0x4000, 0x400]) (physFaults (packet 0x90 false [0, 0x4000, 0x400]) 2 0)) = true
      ∧ (match fwVerify s.sys (s.core.taken 0) (packet 0x90 false [0, 0x4000, 0x400]) with
         | .error v => v != vFaulted 2 heldCode | .ok _ => false) = true
      ∧ 7 ≤ s.sys.bootFails ∧ (loading .ready 6).sys.bootFails < 7 := by
  decide +kernel

/-- FW_LOAD while the line of its image has a write that is not acknowledged. -/
def heldLoad : State :=
  let s := loading .ready 0
  { s with core := { s.core with reel := { out := [ReelReq.mk 1 0 true 0 0x4000 [1] (.testWrite 0 0 0)], wait := [] } } }

theorem witness_FwLoadVerifiesImage_waits :
    let p := packet 0x90 false [0, 0x4000, 0x400]
    let s := heldLoad
    (loading .selftest 0).sys.hg = .selftest ∧ (loading .selftest 0).core.bootPacket = some p ∧ s.sys.phase = .boot
      ∧ s.core.bootPacket = some p ∧ s.sys.lcs ≠ .decommissioned ∧ passes (step9 p (physFaults p 2 0)) = true
      ∧ (match fwVerify s.sys (s.core.taken 0) p with | .error v => v == vFaulted 2 heldCode | .ok _ => false) = true := by
  decide +kernel

/-! Replies, refusals, and the front end -/

theorem witness_FinalReplyCountsAndStands_stands :
    ((asked core nopP).core.queue 0).fetch ≠ .off ∧ (asked core nopP).core.fe.stopped = false := by decide +kernel

theorem witness_FinalReplyCountsAndStands_stopped :
    ({ core with fe := { FrontEnd.reset with stopped := true } } : Core).fe.stopped = true ∧ vOk.status ≠ .resetPending := by decide

theorem witness_FinalReplyCountsAndStands_dropped :
    (core.queue 3).fetch = .off ∧ diff32 core.evt.wr core.evt.rd < 1024 ∧ core.logFresh = true := by decide +kernel

/-- A CLOSED context admits none of the host commands. -/
theorem witness_HostOpcodeRefusedByContextState :
    ∀ op ∈ [0x01, 0x02, 0x04, 0x05, 0x11, 0x12, 0x21, 0x24, 0x27, 0x30, 0x31, 0x32, 0x33, 0x50, 0x52, 0x71, 0x80, 0x81, 0xA0],
      let p := packet op false [0, 0]
      let s := asked (core.setCtx 0 Ctx.reset) p
      s.running = true ∧ s.core.cpFree = true ∧ s.core.nextOffered s.core.fe.offered = some (0, p)
        ∧ s.core.admitted 0 p = false ∧ pkOp p = op := by
  decide +kernel

/-- Queue 1 with a command ring of 4 KiB at 0x8000 and a reply ring of 4 KiB at 0x9000. -/
def ringed : Queue :=
  { Queue.reset with ring := w64 (12 * 2 ^ 54 + 0x8000), reply := w64 (12 * 2 ^ 54 + 0x9000), fetch := .idle }

def withQueue (q : Queue) : State := runs (core.setQueue 1 q)

theorem witness_DoorbellAndRingRegisters_taken :
    let s := withQueue ringed
    let q := s.core.queue 1
    s.served (0x100000 + 0x1000 * 1) whole = true ∧ q.fetch ≠ .off ∧ q.fetch ≠ .halted
      ∧ diff32 (fld 512 0 32) q.tail ≤ q.ringWords - diff32 q.tail q.head := by decide +kernel

theorem witness_DoorbellAndRingRegisters_refused :
    let s := withQueue ringed
    let q := s.core.queue 1
    ¬diff32 (fld 513 0 32) q.tail ≤ q.ringWords - diff32 q.tail q.head := by decide +kernel

theorem witness_DoorbellAndRingRegisters_ring :
    let s := withQueue ringed
    s.served (0x200000 + 0x1000 * 1 + 0) whole = true ∧ s.core.ringsFree 1 = true
      ∧ ringOk (w64 (24 * 2 ^ 54 + 0x1000000)) 24 = true ∧ s.served (0x200000 + 0x1000 * 1 + 8) whole = true
      ∧ ringOk (w64 (20 * 2 ^ 54 + 0x100000)) 20 = true ∧ s.served (0x200000 + 0x1000 * 1 + 16) whole = true
      ∧ inTier (fld 0x8008 48 2) (fld 0x8008 3 45 * 8) 8 = true := by decide +kernel

theorem witness_FetchersTakePackets_grant :
    let s := withQueue { ringed with fetch := .armed }
    s.awake = true ∧ s.core.fe.stopped = false ∧ s.core.fe.holder = none
      ∧ (s.core.queue ((s.core.fe.rot + 1) % 64)).fetch = .armed
      ∧ ∀ j, j < 1 → (s.core.queue ((s.core.fe.rot + j) % 64)).fetch ≠ .armed := by decide +kernel

/-- The fetcher held by queue 1, whose ring holds one packet. -/
def fetching (p : Packet) (tail : Nat) : State :=
  let c := holding (core.setQueue 1 { ringed with fetch := .fetch, tail := tail }) 0x8000 p
  runs { c with fe := { FrontEnd.reset with holder := some 1 } }

theorem witness_FetchersTakePackets_sliceEnd :
    let s : State := { fetching nopP 2 with core := { (fetching nopP 2).core with now := 1024 } }
    s.core.fe.holder.isSome = true ∧ s.core.fe.grantedAt + 64 * fld s.core.fe.ctrl 0 8 ≤ s.core.now := by decide +kernel

theorem witness_FetchersTakePackets_check : ((withQueue { ringed with fetch := .check }).core.queue 1).fetch = .check := by
  decide +kernel

theorem witness_FetchersTakePackets_fetch :
    let s := fetching nopP 2
    let q := { s.core.queue 1 with p := false }
    let full := withQueue { ringed with fetch := .fetch, buf := [List.replicate 258 0] }
    s.awake = true ∧ s.core.fe.stopped = false ∧ s.core.fe.holder = some 1 ∧ s.core.fe.fetch = none
      ∧ sumBy (fun x => 8 * x.length) q.buf + 2040 ≤ 4096 ∧ 2 ≤ diff32 q.tail q.head
      ∧ diff32 ((fetching nopP 1).core.queue 1).tail ((fetching nopP 1).core.queue 1).head < 2
      ∧ 4096 < sumBy (fun x => 8 * x.length) (full.core.queue 1).buf + 2040 := by decide +kernel

/-- The holder of the fetcher at work on a packet whose first line it asked for, of some words in the ring. -/
def attempting (avail : Nat) : Core :=
  let c := (fetching nopP 2).core
  { c with fe := { c.fe with fetch := some { avail := avail, asked := 1, got := [] } } }

/-- A ring line that begins with some words. -/
def ringLineOf (ws : List W64) : List W64 := ws ++ List.replicate (8 - ws.length) 0

theorem witness_FetchersTakePackets_line :
    let c := attempting 2
    let ws := ringLineOf nopP
    c.fe.fetch = some { avail := 2, asked := 1, got := [] } ∧ c.fe.stopped = false ∧ c.fe.holder = some 1
      ∧ aget (aset [] 0 ws) 0 = some ws ∧ pkLen (ws.drop ((c.queue 1).head % 8)) = 2
      ∧ (c.queue 1).ringLines 2 ≤ (aset ([] : AMap (List W64)) 0 ws).length ∧ c.sliceEnded = false
      ∧ ({ c with fe := { c.fe with sliceOver := true } } : Core).sliceEnded = true := by decide +kernel

theorem witness_FetchersTakePackets_reply_lines :
    let short := ringLineOf [w64 (7 * 2 ^ 32 + 256)]
    let long := ringLineOf [w64 (7 * 2 ^ 32 + 20 * 256 + 5)]
    pkLen short < 2 ∧ 2 ≤ pkLen long ∧ pkLen long ≤ 20 ∧ (aset ([] : AMap (List W64)) 0 long).length < (ringed.ringLines (pkLen long))
      ∧ 2 < pkLen long ∧ diff32 core.evt.wr core.evt.rd < 1024 ∧ (attempting 2).logFresh = true := by decide +kernel

def buffered (p : Packet) : State := withQueue { ringed with buf := [p] }

theorem witness_FrontEndChecksAndReplies_offers :
    let p := packet 0x05 false [0]
    let s := buffered p
    s.running = true ∧ s.core.fe.stopped = false ∧ s.core.replyHeld 1 = false ∧ (s.core.queue 1).cur = .none
      ∧ (s.core.queue 1).buf = p :: [] ∧ (frontVerdict 1 p).isSome = true := by decide +kernel

theorem witness_FrontEndChecksAndReplies_passes :
    let p : Packet := [w64 (7 * 2 ^ 32 + 2 ^ 16 + 2 * 256 + 5), 0]
    frontVerdict 1 p = none ∧ fenceMet p ((buffered p).core.queue 1).compl = true
      ∧ (∀ m ∈ (buffered p).core.fe.offered, ((buffered p).core.queue m).passedAt < (buffered p).core.pclk) := by decide +kernel

/-- Two packets that pass in one PCLK: that of queue 3 came first, and that of queue 1 goes before it. -/
theorem witness_FrontEndChecksAndReplies_together :
    let p : Packet := [w64 (7 * 2 ^ 32 + 2 ^ 16 + 2 * 256 + 5), 0]
    let c := (buffered p).core
    let s := runs { c.setQueue 3 { busy p with passedAt := c.pclk } with fe := { c.fe with offered := [3] } }
    s.core.fe.offered = [3] ∧ 1 < 3 ∧ (s.core.queue 3).passedAt = s.core.pclk ∧ (s.core.queue 1).buf = [p] := by decide +kernel

def aReply : Reply := { tag := 7, status := .ok, detail := 0, count := 1, final := true, irq := false, gives := true }

theorem witness_FrontEndChecksAndReplies_halt :
    let s := withQueue { ringed with fetch := .halted, haltWith := some aReply }
    s.awake = true ∧ s.core.fe.stopped = false ∧ (s.core.queue 1).haltWith = some aReply ∧ (s.core.queue 1).cur = .none ∧ (s.core.queue 1).buf = []
      ∧ (s.core.queue 1).fetch = .halted := by decide +kernel

theorem witness_FrontEndChecksAndReplies_write :
    let s := withQueue { ringed with replies := [aReply], cur := .replying }
    s.awake = true ∧ (s.core.queue 1).writing = none ∧ (s.core.queue 1).replies = aReply :: []
      ∧ (s.core.queue 1).hasRoom = true ∧ s.core.afterQueueZero 1 aReply = false := by decide +kernel

theorem witness_FrontEndChecksAndReplies_free :
    let s := withQueue { ringed with rplTail := 3 }
    s.served (0x100010 + 0x1000 * 1) whole = true
      ∧ diff32 (fld 3 0 32) (s.core.queue 1).rplFree ≤ diff32 (s.core.queue 1).rplTail (s.core.queue 1).rplFree := by
  decide +kernel

/-! Contexts -/

/-- CTX_OPEN of context 1 with Spindle 0, no tables and no quotas. -/
def openP : Packet := packet 0x01 false [0, w64 (2 ^ 48 + 1), 0, 0, 0]

theorem witness_ContextCommands_open :
    let s := asked core openP
    let c := s.core.taken 0
    s.takes 0x01 0 openP = true ∧ passes (step9 openP (c.ctxOpenFaults openP)) = true ∧ pf openP 2 0 6 ≠ 0 ∧ c.testing = false
      ∧ (c.ctx (pf openP 2 0 6)).st = .closed ∧ c.maskUsed (pf openP 2 0 6) (pf openP 2 48 16) true = false
      ∧ (pkExp openP && pb openP 6 16 && c.maskUsed (pf openP 2 0 6) (pf openP 2 48 16) false) = false
      ∧ pf openP 5 0 19 + sumBy (fun m => (c.ctx m).syncQuota) (c.openCtxs.filter fun m => m != pf openP 2 0 6) ≤ c.cfg.syncObjects
      ∧ pf openP 5 32 13 + sumBy (fun m => (c.ctx m).chanQuota) (c.openCtxs.filter fun m => m != pf openP 2 0 6) ≤ c.cfg.channels := by
  decide +kernel

theorem witness_ContextCommands_open_zero :
    let p := packet 0x01 false [0, w64 (2 ^ 48), 0, 0, 0]
    let s := asked core p
    s.takes 0x01 0 p = true ∧ passes (step9 p ((s.core.taken 0).ctxOpenFaults p)) = true ∧ pf p 2 0 6 = 0
      ∧ (s.core.taken 0).owns 0 = false := by decide +kernel

theorem witness_ContextCommands_nop :
    (asked core nopP).takes 0x05 0 nopP = true ∧ passes (step9 nopP []) = true := by decide +kernel

theorem witness_ContextCommands_close :
    let s := asked (core.setCtx 1 { Ctx.reset with st := .opened }) (closeP false)
    let c := s.core.taken 0
    s.takes 0x02 0 (closeP false) = true ∧ passes (step9 (closeP false) (range 2 0 (pf (closeP false) 2 0 6 != 0))) = true
      ∧ (c.ctx 1).st ≠ .closed ∧ c.noRuns 1 = true ∧ (c.ctx 1).stop = none ∧ (c.queue 1).cur = .none := by decide +kernel

/-- Context 1, OPEN, with a run. -/
def oneRunning : Core :=
  let c := (graphed (skein 3 [0]) [{ aRun 9 3 [task 0 .running] with ctx := 1 }]).setCtx 1 { Ctx.reset with st := .opened }
  { c with disp := { c.disp with ports := [(0, { EngPort.reset with
      out := some { bits := 0, kind := 4, use := .task { ref 0 with ctx := 1 } 0, last := true, at_ := 0, started := true } })] } }

theorem witness_ContextCommands_close_expert :
    let s := asked oneRunning (closeP true)
    let c := s.core.taken 0
    s.takes 0x02 0 (closeP true) = true ∧ passes (step9 (closeP true) (range 2 0 (pf (closeP true) 2 0 6 != 0))) = true
      ∧ (c.ctx 1).st ≠ .closed ∧ c.noRuns 1 = false ∧ (c.cancelAll 1).noRuns 1 = false
      ∧ c.runsOf 1 = [{ aRun 9 3 [task 0 .running] with ctx := 1 }]
      ∧ c.findRun 1 9 = some { aRun 9 3 [task 0 .running] with ctx := 1 } := by decide +kernel

def flushP : Packet := packet 0x04 false [0, 1]

theorem witness_FlushAndQuery_flush :
    let c0 := handled core
    let s := asked { c0 with graph := { c0.graph with reloc := [{ ctx := 0, idx := 0, gen := 0, region := none }] } } flushP
    let c := s.core.taken 0
    s.takes 0x04 0 flushP = true
      ∧ passes (step9 flushP (range 2 0 (decide (1 ≤ pf flushP 2 0 21) && decide (pf flushP 2 0 21 ≤ 2 ^ 20)))) = true
      ∧ (c.ctx 0).handleLog2 ≠ 0 ∧ pf flushP 2 32 20 + pf flushP 2 0 21 ≤ 2 ^ (c.ctx 0).handleLog2
      ∧ c.flushEntries 0 (pf flushP 2 32 20) (pf flushP 2 0 21) c.graph.reloc
          = .ok [{ ctx := 0, idx := 0, gen := 0, region := some (true, 0x10000, 0x10000) }] := by
  intro c0 s c
  and_intros <;> first | decide +kernel | exact ok_of (by decide +kernel)

def queryP : Packet := packet 0xA0 false [0, 4, 0]

theorem witness_FlushAndQuery_query :
    let s := asked (handled core) queryP
    let c := s.core.taken 0
    s.takes 0xA0 0 queryP = true
      ∧ passes (step9 queryP (range 2 0 (decide (pf queryP 2 0 8 ≤ 5)) ++ range 2 16 (pf queryP 2 0 8 != 3 || decide (pf queryP 2 16 32 < 1024)))) = true
      ∧ c.handleParam 0 queryP 3 0 true 64 = .ok ⟨true, 0x10000, 0x10000⟩
      ∧ passes (c.queryFigures s.sys 0 4 0) = true ∧ memWf c.mem = true
      ∧ c.writeFault 0x10000 64 = none := by
  intro s c
  and_intros <;> first | decide +kernel | exact ok_of (by decide +kernel)

theorem witness_RangeRegistersTaken :
    let s := runs core
    s.core.rangesFree 2 = true ∧ s.served (0x200000 + 0x1000 * 2 + 0x18) whole = true
      ∧ fld (w64 (2 ^ 60 - 2 ^ 36)) 0 36 + fld (w64 (2 ^ 60 - 2 ^ 36)) 36 24 ≤ 2 ^ 36
      ∧ s.served (0x200000 + 0x1000 * 2 + 0x20) whole = true ∧ fld 0x10000FFF 0 12 + fld 0x10FFF 16 13 ≤ 4096
      ∧ (∀ m, m < 64 → m ≠ 2 → overlaps (fld 0x10FFF 0 12) (fld 0x10FFF 16 13) (fld (s.core.ctx m).sigrange 0 12)
          (fld (s.core.ctx m).sigrange 16 13) = false)
      ∧ s.served (0x200028 + 0x1000 * 2) whole = true ∧ fld 0x1FFFF 0 16 + fld 0x1FFFF 16 17 ≤ 65536
      ∧ (∀ m, m < 64 → m ≠ 2 → overlaps (fld 0x1FFFF 0 16) (fld 0x1FFFF 16 17) (fld (s.core.ctx m).flowrange 0 16)
          (fld (s.core.ctx m).flowrange 16 17) = false)
      ∧ s.core.allIdle = true ∧ s.served 0x240018 whole = true ∧ fld 0x5294 0 5 ≤ 20 ∧ fld 0x5294 5 5 ≤ 20
      ∧ fld 0x5294 10 5 ≤ 20 ∧ s.served 0x240030 whole = true := by decide +kernel

/-! Register access -/

theorem witness_RegisterWrites_absent :
    let s := runs core
    s.awake = true ∧ (0x1000000 + 64 * 512) % 8 = 0 ∧ absentReg s.core (0x1000000 + 64 * 512) = true := by decide +kernel

theorem witness_RegisterWrites_isolation :
    let s := runs core
    ¬(0x10000 % 8 = 0 ∧ absentReg s.core 0x10000 = true) ∧ unprivOk 0x10000 = false := by decide +kernel

theorem witness_RegisterWrites_missing :
    let s := inPhase .boot .ready
    (0x2400008 % 8 = 0 ∧ absentReg s.core 0x2400008 = true → False) ∧ readReg s.sys s.core 0x7FFF8 = none
      ∧ s.sys.phase = .boot ∧ bootServed 0x2400008 = false := by decide +kernel

theorem witness_RegisterWrites_rule :
    let s := runs core
    readReg s.sys s.core 0x2400008 ≠ none ∧ ¬(s.sys.phase = .boot ∧ bootServed 0x2400008 = false)
      ∧ ({ be := 0x0F, priv := true } : Access).be ≠ 0xFF ∧ s.served 0x2400008 whole = true ∧ s.core.writeReg 0x2400000 5 whole = none
      ∧ s.served 0x2400000 whole = true ∧ (s.core.writeReg 0x2400008 7 whole).isSome = true := by decide +kernel

theorem witness_RegisterWrites_status :
    let s := runs core
    s.served 0x2400010 whole = true ∧ s.served (0x100018 + 0x1000 * 63) whole = true := by decide +kernel

/-! Test and loop-back -/

def loopP (iface depth inst : Nat) (on : Bool) : Packet :=
  packet 0x80 false [0, w64 (iface + 2 ^ 8 * depth + 2 ^ 16 * inst), if on then 1 else 0]

theorem witness_TestsAndLoopbacks_loop :
    let p := loopP 1 1 0 true
    let s := asked core p
    let c := s.core.taken 0
    s.takes 0x80 0 p = true ∧ c.otherOpen = false ∧ passes (step9 p (c.loopFaults p)) = true ∧ pf p 2 0 8 ≠ 3 ∧ pf p 2 0 8 ≠ 4
      ∧ pb p 3 0 = true ∧ c.depth (pf p 2 0 8) (pf p 2 16 8) = 0 := by decide +kernel

theorem witness_TestsAndLoopbacks_loop_ends :
    let p := loopP 1 1 0 false
    let s := asked { core with tl := { core.tl with echoOn := true } } p
    let c := s.core.taken 0
    s.takes 0x80 0 p = true ∧ c.otherOpen = false ∧ passes (step9 p (c.loopFaults p)) = true ∧ pb p 3 0 = false
      ∧ c.depth (pf p 2 0 8) (pf p 2 16 8) ≠ 0 ∧ c.depth (pf p 2 0 8) (pf p 2 16 8) = pf p 2 8 8 := by decide +kernel

def selfP (sel : Nat) : Packet := packet 0x81 false [0, w64 sel]

theorem witness_TestsAndLoopbacks_selftest :
    ∀ sel ∈ [1, 2, 0x10, 0x11, 0x20],
      let p := selfP sel
      let s := asked core p
      let c := s.core.taken 0
      s.takes 0x81 0 p = true ∧ c.otherOpen = false ∧ ¬(pf p 2 0 8 = 2 ∧ s.sys.lcs = .locked)
        ∧ passes (step9 p (range 2 0 ([1, 2, 0x10, 0x11, 0x20].contains (pf p 2 0 8)))) = true ∧ c.tl.self = none
        ∧ c.owns 0 = false ∧ c.anyLoop = false ∧ c.noRuns 0 = true ∧ (∀ t, t < 64 → (c.table t).tab = none) := by decide +kernel

theorem witness_TestsAndLoopbacks_end :
    let s := runs { core with tl := { core.tl with self := some { sel := 0x20, tag := 7, irq := false, atTime := 0 } } }
    s.running = true ∧ s.core.fe.stopped = false ∧ s.core.tl.self = some { sel := 0x20, tag := 7, irq := false, atTime := 0 }
      ∧ TestOutcome.fails { pass := false, repaired := 0, badGraph := [], badOther := 0, badLanes := 1 } 0x20 = true
      ∧ s.sys.hg = .booted := by decide +kernel

theorem witness_TestsAndLoopbacks_bist : (inPhase .boot .ready).sys.phase = .boot ∧ (inPhase .boot .ready).sys.lcs = .manufacture := by
  decide

theorem witness_TestsAndLoopbacks_registers :
    let s := runs core
    s.served 0x2000010 whole = true ∧ agetD s.core.tl.reelDepth 0 0 = 0 ∧ agetD s.core.tl.reelDepth 1 0 = 0
      ∧ ringOk (w64 (30 * 2 ^ 54 + 2 ^ 30) &&& fields [(58, 54), (49, 48), (47, 12)]) 30 = true
      ∧ s.served 0x2000028 whole = true ∧ (∀ g, g < 16 → agetD s.core.tl.engDepth g 0 = 0) ∧ fld 1 0 16 ≠ 0
      ∧ 3 < s.core.cfg.linkPorts ∧ s.served (0x2000400 + 32 * 3) whole = true ∧ agetD s.core.tl.linkDepth 3 0 = 0
      ∧ fld (w64 (16 * 2 ^ 54 + 2 * 2 ^ 52)) 54 5 ∈ [1, 2, 4, 8, 16] ∧ fld (w64 (16 * 2 ^ 54 + 2 * 2 ^ 52)) 52 2 ≠ 3 := by
  decide +kernel

/-- A port with a wire-test record out, and one that it presented long ago. -/
def wired : State :=
  let r : PortRec := { bits := 0, kind := 0, use := .wire, last := false, at_ := 0, started := false }
  runs { core with
    now := 2 + 2 * 65536, disp := { core.disp with ports := [(0, { EngPort.reset with rstN := true, out := some r })] }
    tl := { core.tl with engDepth := [(0, 1)] } }

theorem witness_TestsAndLoopbacks_wire : ∃ r, wired.running = true ∧ wired.core.wireRec 0 = some r
    ∧ r.at_ + 2 + 2 * 65536 ≤ wired.core.now := by
  refine ⟨_, ?_, rfl, ?_⟩ <;> decide +kernel

/-! Clocks, power and progress -/

theorem witness_DriftAndWatch_window :
    let s := runs { core with now := 3 * (16777216 + 840) }
    s.awake = true ∧ fld s.core.clk.ctrl 16 16 < (((s.core.dclk - s.core.clk.winAt : Nat) : Int) - 16777216).natAbs := by decide +kernel

theorem witness_DriftAndWatch_absent :
    let s := runs { core with now := 3 * 2 ^ 20 }
    s.awake = true ∧ s.core.clk.winAt + 2 ^ 20 ≤ s.core.dclk ∧ (runs core).core.dclk < (runs core).core.clk.winAt + 2 ^ 20 := by
  decide +kernel

theorem witness_DriftAndWatch_reads :
    let s := runs core
    let t := runs { core with clk := { core.clk with setAt := some 0 } }
    s.served 0x10008 whole = true ∧ s.core.clk.setAt ≠ some s.core.pclk ∧ t.served 0x10008 whole = true
      ∧ t.core.clk.setAt = some t.core.pclk ∧ s.served 0x2400008 whole = true ∧ (readReg s.sys s.core 0x2400008).isSome = true
      ∧ s.awake = true ∧ ¬(0x10000 % 8 = 0 ∧ absentReg s.core 0x10000 = true) ∧ unprivOk 0x10000 = false := by decide +kernel

/-- A read accepted at time 0, at a PCLK. -/
def reading (pclk : Nat) : Core :=
  { core with now := 4 * pclk, df := { reads := [{ tag := 9, data := 5, at_ := 0 }], rsp := none } }

theorem witness_DriftAndWatch_answers :
    (reading 6).df.reads = [{ tag := 9, data := 5, at_ := 0 }] ∧ 0 / 4 + 6 ≤ (reading 6).pclk ∧ (reading 5).pclk < 0 / 4 + 6 := by
  decide +kernel

/-- The end of a watch period in which queue 1 had work and made no progress, one period before the limit. -/
theorem witness_DriftAndWatch_period :
    let c := core.setQueue 1 { ringed with buf := [nopP] }
    let s := runs (c.setCtx 1 { Ctx.reset with st := .opened, stallRun := 29 })
    s.running = true ∧ s.core.watch.endAt ≤ s.core.now ∧ s.served 0x2400018 whole = true ∧ s.core.queueHasWork 1 = true
      ∧ (s.core.ctx 1).progressed = false ∧ (s.core.ctx 1).stallTold = false
      ∧ fld s.core.watch.ctrl 16 8 ≤ min ((s.core.ctx 1).stallRun + 1) 255 := by decide +kernel

theorem witness_PowerAndRamp_request :
    let s := runs { core with pwr := { core.pwr with sumSent := 1 } }
    s.running = true ∧ s.core.pwr.reqValid = false ∧ s.core.powerSum ≠ s.core.pwr.sumSent ∧ s.core.pwr.fellAt = none := by
  decide +kernel

theorem witness_PowerAndRamp_sclkEdge :
    let c : Core := { core with now := 48, pwr := { core.pwr with grantNext := some (5, 48), reqValid := true, reqDropAt := some 48 } }
    c.pwr.grantNext = some (5, 48) ∧ 48 ≤ c.now ∧ c.pwr.reqDropAt = some 48 := by decide +kernel

theorem witness_PowerAndRamp_throttle :
    (runs core).sys.porst = false ∧ State.reset.sys.porst = true ∧ State.reset.sys.phase ≠ .run := by decide

theorem witness_PowerAndRamp_due :
    let s := runs (graphed (skein 3 [0]) [aRun 9 3 []])
    s.core.findRun 0 9 = some (aRun 9 3 []) ∧ (aRun 9 3 []).start ≤ s.core.gc.count + s.core.powerLead := by decide +kernel

theorem witness_PowerAndRamp_fall :
    bitAt (runs { core with pwr := { core.pwr with status := setBit core.pwr.status 5 true } }).core.pwr.status 5 = true := by
  decide +kernel

def aStart : StartReq := { window := 0, port := 0, kind := .enable }

/-- A start that waits, in the window of the present time. -/
def ramping (budget : Nat) : State :=
  runs { core with now := 32, disp := { core.disp with ports := [(0, { EngPort.reset with rstN := true })] }
                   pwr := { core.pwr with waits := [aStart], windowAt := some core.rampIndex,
                                          status := setFld core.pwr.status 48 16 budget } }

theorem witness_PowerAndRamp_grant :
    let s := ramping 65535
    s.core.now % 2 = 0 ∧ bitAt s.core.pwr.status 5 = false ∧ s.core.pwr.resumeAt = none
      ∧ s.core.startsUsed < fld s.core.pwr.ramp 0 7 ∧ s.core.pwr.grantAt ≠ some (s.core.now / 2) ∧ s.core.nextStart = some aStart
      ∧ (s.core.running + 1) * fld s.core.pwr.ramp 48 8 ≤ fld s.core.pwr.status 48 16 := by decide +kernel

theorem witness_PowerAndRamp_low :
    let s := ramping 0
    s.core.nextStart = some aStart ∧ fld s.core.pwr.status 48 16 < (s.core.running + 1) * fld s.core.pwr.ramp 48 8
      ∧ aStart.told = false
      ∧ (let u := runs { s.core with pwr := { s.core.pwr with waits := [{ aStart with told := true }] } }
         u.core.nextStart = some { aStart with told := true }) := by decide +kernel

theorem witness_PowerAndRamp_enable :
    ({ core with pwr := { core.pwr with granted := some aStart } } : Core).pwr.granted = some aStart ∧ aStart.kind = .enable := by decide

theorem witness_PowerAndRamp_window : (runs core).core.pwr.windowAt ≠ some (runs core).core.rampIndex := by decide +kernel

theorem witness_PowerAndRamp_register :
    let s := runs core
    let v : W64 := w64 (1024 * 2 ^ 16 + 64)
    s.served 0x10030 whole = true ∧ s.core.otherOpen = false ∧ s.core.noRuns 0 = true ∧ 1 ≤ fld v 16 11 ∧ fld v 16 11 ≤ 1024
      ∧ 1 ≤ fld v 0 7 ∧ fld v 0 7 ≤ 64 ∧ fld v 0 7 ≤ 3 * fld v 16 11 := by decide +kernel

def loggedTo (wr : Nat) : Core := { core with evt := { recs := [], wr := wr, rd := 0 } }

theorem witness_LogAndStash_log :
    diff32 (loggedTo 1023).evt.wr (loggedTo 1023).evt.rd < 1024 ∧ 1024 ≤ diff32 (loggedTo 1024).evt.wr (loggedTo 1024).evt.rd
      ∧ (loggedTo 1023).logFresh = true := by decide +kernel

theorem witness_LogAndStash_order :
    let p : EvtRec := { cls := 3, num := 0, w0 := 0, w1 := 0, w2 := 0, w3 := 0, at_ := 0 }
    let c : Core := { core with evt := { recs := [(0, p)], wr := 1, rd := 0 } }
    aget c.evt.recs ((c.evt.wr + 2 ^ 32 - 1) % 2 ^ 32 % 1024) = some p ∧ p.at_ = c.dclk
      ∧ keysLt (EvtRec.mk 2 0 0 0 0 0 0).key p.key = true ∧ c.evt.wr ≠ c.evt.rd := by decide +kernel

theorem witness_LogAndStash_pointers :
    let s := runs { loggedTo 3 with stash := { core.stash with wr := 2 } }
    s.served 0x2400000 whole = true ∧ diff32 (fld 3 0 32) s.core.evt.rd ≤ diff32 s.core.evt.wr s.core.evt.rd
      ∧ s.served 0x2400020 whole = true ∧ diff32 (fld 2 0 32) s.core.stash.rd ≤ diff32 s.core.stash.wr s.core.stash.rd
      ∧ s.core.stash.waiting = [] := by decide +kernel

def anItem : StashItem := { tag := 9, status := .badParam, reason := 2, source := 7, ctx := 0, target := 5, value := 3 }

/-- A full stash with an item that a link port waits with. -/
def stashed (rd : Nat) : Core :=
  { core with stash := { core.stash with wr := 64, rd := rd, waiting := [(anItem, .port 3)] } }

theorem witness_LogAndStash_waiting :
    let s := runs (stashed 0)
    s.served 0x2400020 whole = true ∧ diff32 (fld 1 0 32) s.core.stash.rd ≤ diff32 s.core.stash.wr s.core.stash.rd
      ∧ s.core.stash.waiting = [(anItem, .port 3)] ∧ diff32 s.core.stash.wr (fld 1 0 32) < 64
      ∧ (stashed 1).stashHeld < 64 ∧ 64 ≤ (stashed 0).stashHeld := by decide +kernel

theorem witness_LogAndStash_stash :
    core.stashHeld < 64 ∧ core.stash.waiting = [] ∧ 64 ≤ ({ core with stash := { core.stash with wr := 64 } } : Core).stashHeld := by
  decide +kernel

/-! Skeins -/

/-- The words of an image with one head and one handle. -/
def image : List W64 := [0x534B4E3400000001, w64 (2 ^ 55), 0, 0, 0, 0, 0, 0] ++ List.replicate 8 0 ++ List.replicate 4 0

def loadP : Packet := packet 0x10 false [0, w64 (5 * 2 ^ 32 + 1), 1]

def toLoad : State := asked (holding (handled core) 0x20000 image) loadP

theorem witness_SkeinLoadAddsSkein :
    let s := toLoad
    let c := s.core.taken 0
    let k := skeinOf 0 5 1 0x20000 0x10000 0x10000 (image.take 8) image
    let m : Image := { skein := k, heads := (scanImage k.recs 1 0).1, stray := (scanImage k.recs 1 0).2 }
    s.takes 0x10 0 loadP = true ∧ pf loadP 3 0 21 = 1 ∧ pf loadP 2 32 10 = 5
      ∧ passes (step9 loadP (range 3 0 (decide (1 ≤ 1) && decide (1 ≤ 2 ^ 20)))) = true
      ∧ c.handleParam 0 loadP 2 0 false 0 = .ok ⟨false, 0x20000, 0x10000⟩
      ∧ c.handleParam 0 loadP 3 32 true (ceilDiv 1 128 * 4160) = .ok ⟨true, 0x10000, 0x10000⟩
      ∧ c.skein 0 5 = none ∧ c.readFor 2 0x20000 8 = .ok (image.take 8) ∧ imageEnd (image.take 8) 1 ≤ 0x10000
      ∧ passes (headerCheck (image.take 8) 1) = true
      ∧ c.readFor 2 0x20000 (8 + 8 * ceilDiv (fld ((image.take 8).getD 1 0) 55 9) 16 + 4 * 1) = .ok image ∧ c.imageCheck 0 m = none
      ∧ ceilDiv (min 1 128) 128 + b2n k.hasReplay ≤ c.pageFree ∧ 1 ≤ c.stateFree ∧ s.sys.hedgeDown = false
      ∧ c.writeFault 0x10000 (4160 * ceilDiv 1 128) = none := by
  intro s c k m
  and_intros <;> first | decide +kernel | exact ok_of (by decide +kernel)

def unloadP : Packet := packet 0x11 false [0, w64 (3 * 2 ^ 32)]

theorem witness_SkeinUnloadPatchAndRefill_unload :
    let s := asked (graphed (skein 3 [0]) []) unloadP
    let c := s.core.taken 0
    s.takes 0x11 0 unloadP = true ∧ passes (step9 unloadP []) = true ∧ (c.skein 0 (pf unloadP 2 32 10)).isSome = true
      ∧ c.skeinIdle 0 (pf unloadP 2 32 10) = true ∧ c.skeinRead 0 (pf unloadP 2 32 10) = false := by decide +kernel

def patchP : Packet := packet 0x12 false [0, w64 (3 * 2 ^ 32), 254, 11, 12]

theorem witness_SkeinUnloadPatchAndRefill_patch :
    let k := { skein 3 [0] with hasReplay := true }
    let s := asked (graphed k []) patchP
    let c := s.core.taken 0
    s.takes 0x12 0 patchP = true
      ∧ passes (step9 patchP (range 3 0 (decide (pf patchP 3 0 8 + (pkLen patchP - 4) ≤ 256)))) = true
      ∧ c.skein 0 (pf patchP 2 32 10) = some k ∧ c.skeinIdle 0 (pf patchP 2 32 10) = true ∧ k.hasReplay = true := by
  decide +kernel

def spilled : Skein := { skein 3 [0] with resident := [], reserved := 0 }

/-- A run of the skein whose page is not resident, its task at node 0 in some state. -/
def spilling (st : TaskSt) : State := runs (graphed spilled [aRun 9 3 [task 0 st]])

theorem witness_SkeinUnloadPatchAndRefill_refill :
    let s := spilling .done
    s.core.skein 0 3 = some spilled ∧ s.core.runOfSkein 0 3 = some (aRun 9 3 [task 0 .done]) ∧ 0 < spilled.pages
      ∧ spilled.resident.contains 0 = false ∧ s.sys.hedgeDown = false ∧ passes (s.core.readBytes (spilled.spillAt + 4160 * 0) 4160) = true
      ∧ s.core.pageNeeder spilled 0 = none ∧ s.core.pagesUsed + 1 + s.core.graph.badPages ≤ s.core.cfg.storePages
      ∧ (spilling .waiting).core.pageNeeder spilled 0 = some (ref 0)
      ∧ (spilling .waiting).core.runOfSkein 0 3 = some (aRun 9 3 [task 0 .waiting]) := by
  decide +kernel

/-- A page of the spill whose IV is that of page 0 and whose tag is all zero. -/
def pageBytes : List Byte := List.replicate 4096 0 ++ pageIv 0 ++ List.replicate 52 0

/-- It authenticates where the tag function answers zeros, and does not where it answers ones: premises on that function. -/
theorem witness_SkeinUnloadPatchAndRefill_authentic :
    ((∀ k iv a t, Config.gcmTag k iv a t = List.replicate 16 0) → spilled.pageAuthentic .zero 0 pageBytes = true)
      ∧ ((∀ k iv a t, Config.gcmTag k iv a t = List.replicate 16 1) → spilled.pageAuthentic .zero 0 pageBytes = false) := by
  constructor <;> intro h <;> simp only [Skein.pageAuthentic, h] <;> decide +kernel

theorem witness_UnloadRefusedWhileReceiveEndNames :
    let s := asked ((graphed (skein 3 [0]) []).setChan 2 { Chan.reset with rx := some (receive 3) }) unloadP
    let c := s.core.taken 0
    s.takes 0x11 0 unloadP = true ∧ passes (step9 unloadP []) = true ∧ (c.skein 0 (pf unloadP 2 32 10)).isSome = true
      ∧ (c.chan 2).rx = some (receive 3) ∧ (receive 3).skein = pf unloadP 2 32 10 := by decide +kernel

/-! Runs -/

def launchP : Packet := packet 0x20 false [0, w64 (3 * 2 ^ 32 + 0xFFFFFFFF)]

def launchAtP : Packet := packet 0x21 false [0, w64 (3 * 2 ^ 32 + 0xFFFFFFFF), 16384]

theorem witness_LaunchAndReplay_launch :
    ∀ x ∈ [(0x20, launchP), (0x21, launchAtP)],
      let s := asked (graphed (skein 3 [0]) []) x.2
      let c := s.core.taken 0
      let k := skein 3 [0]
      pf x.2 2 0 32 = noHandle ∧ passes (c.launchNamed 0 x.2) = true ∧ passes (constCheck k none) = true
        ∧ passes (c.resolveList 0 (pkBase x.2) (k.handles.zipIdx.map fun x => (x.2, x.1))) = true
        ∧ (∀ i, i ∈ c.cutNodes 0 k.id → k.isHead i = true)
        ∧ (c.slotsOf 0 k.id).findSome? (c.slotCheck 0 k (c.launchRegion 0 [])) = none ∧ passes (c.launchRoom 0 k []) = true
        ∧ s.takes x.1 0 x.2 = true ∧ passes (step9 x.2 []) = true ∧ bitAt c.gc.status 0 = true := by decide +kernel

theorem witness_LaunchAndReplay_launchAt : core.gc.count + 16384 ≤ (pw launchAtP 3).toNat := by decide +kernel

def replayP : Packet := packet 0x22 false [0, w64 (3 * 2 ^ 32)]

def replayed : Skein := { skein 3 [0] with hasReplay := true, replaySteps := 1, replayAt := 0x20000 }

theorem witness_LaunchAndReplay_replay :
    let s := asked (graphed replayed []) replayP
    let c := s.core.taken 0
    s.takes 0x22 0 replayP = true ∧ passes (step9 replayP []) = true ∧ c.launchNamed 0 replayP = .ok replayed
      ∧ replayed.hasReplay = true ∧ c.resolveList 0 0 (replayed.handles.zipIdx.map fun x => (x.2, x.1)) = .ok []
      ∧ c.unfinished 0 < 64 ∧ (c.newReloc 0 []).length ≤ c.relocFree
      ∧ c.readFor 2 replayed.replayAt (4 * (replayed.replaySteps + 1)) = .ok [0, 0, 0, 0, 0, 0, 0, 0] := by
  intro s c
  and_intros <;> first | decide +kernel | exact ok_of (by decide +kernel)

theorem witness_LaunchAndReplay_start :
    let r : Run := { aRun 9 3 [task 0 .waiting] with started := false }
    let s := runs (graphed (skein 3 [0]) [r])
    s.running = true ∧ s.core.findRun 0 9 = some r ∧ r.started = false ∧ r.cut = false ∧ r.start ≤ s.core.gc.count := by
  decide +kernel

def cancelP : Packet := packet 0x24 false [0, 9]

theorem witness_CancelStopAndResume_cancel :
    let r := aRun 9 3 [task 0 .waiting]
    let s := asked (graphed (skein 3 [0]) [r]) cancelP
    let c := s.core.taken 0
    s.takes 0x24 0 cancelP = true ∧ passes (step9 cancelP []) = true ∧ c.findRun 0 (pf cancelP 2 0 32) = some r
      ∧ ((c.setRun { r with cancelled := true, cancelAt := some c.dclk }).stopRun 0 9).findRun 0 9 = none := by decide +kernel

theorem witness_CancelStopAndResume_cancel_waits :
    let r := aRun 9 3 [task 0 .running]
    let s := asked (atWork (graphed (skein 3 [0]) [r]) (.task (ref 0) 0)) cancelP
    let c := s.core.taken 0
    s.takes 0x24 0 cancelP = true ∧ ((c.setRun { r with cancelled := true, cancelAt := some c.dclk }).stopRun 0 9).findRun 0 9 ≠ none := by decide +kernel

def stopP (node : Bool) (count : Nat) : Packet := packet 0x26 false [0, w64 (3 * 2 ^ 32 + b2n node), w64 count]

theorem witness_CancelStopAndResume_stop :
    let s := asked core (stopP false 1)
    let c := s.core.taken 0
    s.takes 0x26 0 (stopP false 1) = true ∧ (c.ctx 0).stop = none ∧ pb (stopP false 1) 2 0 = false
      ∧ passes (step9 (stopP false 1) []) = true ∧ c.gc.count < (pw (stopP false 1) 3).toNat := by decide +kernel

theorem witness_CancelStopAndResume_stop_past :
    let s := asked core (stopP false 0)
    s.takes 0x26 0 (stopP false 0) = true ∧ (pw (stopP false 0) 3).toNat ≤ s.core.gc.count ∧ ((s.core.taken 0).ctx 0).st = .opened := by
  decide +kernel

theorem witness_CancelStopAndResume_stop_node :
    let s := asked (graphed (skein 3 [0]) []) (stopP true 0)
    let p := stopP true 0
    s.takes 0x26 0 p = true ∧ pb p 2 0 = true ∧ passes (step9 p (reservedIn p 3 (fields [(19, 0)]))) = true
      ∧ (s.core.taken 0).skein 0 (pf p 2 32 10) = some (skein 3 [0]) ∧ pf p 3 0 20 < (skein 3 [0]).nodeCount := by decide +kernel

theorem witness_CancelStopAndResume_count :
    let a : StopArm := { point := .atCount 0, tag := 7, irq := false }
    let s := runs (core.setCtx 0 { core.ctx 0 with stop := some a })
    s.running = true ∧ s.core.fe.stopped = false ∧ (s.core.ctx 0).stop = some a ∧ 0 ≤ s.core.gc.count ∧ (s.core.ctx 0).st = .opened := by decide +kernel

theorem witness_CancelStopAndResume_resume :
    let p := packet 0x27 false [0]
    let s := asked (core.setCtx 0 { core.ctx 0 with st := .stopped }) p
    s.takes 0x27 0 p = true ∧ passes (step9 p []) = true ∧ ((s.core.taken 0).ctx 0).stop = none
      ∧ ((s.core.taken 0).ctx 0).st = .stopped := by decide +kernel

/-- RESUME of an OPEN context whose stop is armed at a later count. -/
theorem witness_CancelStopAndResume_disarms :
    let p := packet 0x27 false [0]
    let s := asked (core.setCtx 0 { core.ctx 0 with stop := some { point := .atCount 5, tag := 7, irq := false } }) p
    let c := s.core.taken 0
    s.takes 0x27 0 p = true ∧ passes (step9 p []) = true ∧ (c.ctx 0).st = .opened ∧ (c.ctx 0).stop.isSome = true
      ∧ c.stopHere 0 = false := by decide +kernel

/-- RESUME of an OPEN context whose stop count has come in this DCLK. -/
theorem witness_CancelStopAndResume_stops_first :
    let p := packet 0x27 false [0]
    let s := asked (core.setCtx 0 { core.ctx 0 with stop := some { point := .atCount 0, tag := 7, irq := false } }) p
    let c := s.core.taken 0
    s.takes 0x27 0 p = true ∧ passes (step9 p []) = true ∧ (c.ctx 0).st = .opened ∧ (c.ctx 0).stop.isSome = true
      ∧ c.stopHere 0 = true := by decide +kernel

theorem witness_CancelStopAndResume_detail :
    (aRun 9 3 []).firstFault = none ∧ ({ aRun 9 3 [] with firstFault := some (4, 6) } : Run).firstFault = some (4, 6) := by decide

end Sys2Proof.Tests
end

