-- ==== Sys2Proof/Tests/Witness2.lean ====
section
/-! SUPPORT. States and operands that meet the hypotheses of the statements: completions, dispatch, engines, synchronisation objects, the manual window and channels. -/

set_option Elab.async false

namespace Sys2Proof.Tests

open Sys2Proof.Machine

/-! Completions -/

/-- A completion of the task at a node of run 9. -/
def comp (node : Nat) (stage : CompStage) : Comp :=
  { d := 0, task := ref node, skein := 3, stage := stage, since := 0, elided := false, exited := false, applied := 0, matched := false }

/-- A skein of some records, a run of it whose first task is running, and a completion of that task. -/
def completing (recs : List Rec256) (stage : CompStage) : State :=
  let c := graphed (skein 3 recs) [aRun 9 3 [task 0 .running]]
  runs { c with graph := { c.graph with comps := [comp 0 stage] } }

/-- A record of four words. -/
def record (a b c d : Nat) : Rec256 := recOf [w64 a, w64 b, w64 c, w64 d]

theorem witness_TaskCompletionSteps_taken :
    let s := completing [0] .due
    let r := aRun 9 3 [task 0 .running]
    let k := comp 0 .due
    s.running = true ∧ s.core.nextComp (fun x => x == .due || x == .action) = some k
      ∧ s.core.taskOf k.task = some (r, task 0 .running) ∧ s.core.skein r.ctx r.skein = some (skein 3 [0]) ∧ r.stopping = false
      ∧ s.core.stepsFor r (task 0 .running) = [] ∧ s.core.collsFor r (task 0 .running) = []
      ∧ r.sendsFor (task 0 .running) = [] ∧ s.core.clipTarget r.ctx = none := by decide +kernel

theorem witness_TaskCompletionSteps_deferred :
    let r : Run := { aRun 9 3 [task 0 .running] with binds := [{ chan := 5, first := 0, last := 0 }] }
    let c := (graphed (skein 3 [0]) [r]).setChan 5 { Chan.reset with tx := some sender }
    let s := runs { c with graph := { c.graph with comps := [comp 0 .due] } }
    s.core.nextComp (fun x => x == .due || x == .action) = some (comp 0 .due) ∧ s.core.taskOf (ref 0) = some (r, task 0 .running)
      ∧ r.stopping = false ∧ (∀ n, n ∈ r.sendsFor (task 0 .running) → s.core.sendOpen r.ctx n = true)
      ∧ ¬(r.sendsFor (task 0 .running) = []) := by decide +kernel

theorem witness_TaskCompletionSteps_no_action :
    let s := completing [0] .action
    s.core.nextComp (fun x => x == .due || x == .action) = some (comp 0 .action)
      ∧ hHasAction (s.core.headOf (aRun 9 3 [task 0 .running]) (task 0 .running)) = false := by decide +kernel

/-- A head with an action that adds 5 to signal word 17. -/
def adding : List Rec256 := [record 0 32 0 0, record (3 * 2 ^ 60 + 17 * 2 ^ 8 + 5) 0 5 0]

theorem witness_TaskCompletionSteps_action :
    let s := completing adding .action
    s.core.nextComp (fun x => x == .due || x == .action) = some (comp 0 .action)
      ∧ hHasAction (s.core.headOf (aRun 9 3 [task 0 .running]) (task 0 .running)) = true
      ∧ rf ((skein 3 adding).actionRec 0) 0 60 4 = 3 := by decide +kernel

theorem witness_EnqueueEdgesAndSignals_enqueue :
    let k := { skein 3 [record 0 16 0 0, record 6 0 0 0] with handles := [0] }
    let r : Run := { aRun 9 3 [task 0 .running] with handleIdx := [0] }
    let c := graphed k [r]
    let s := runs { c with graph := { c.graph with
      comps := [comp 0 .enq], reloc := [{ ctx := 0, idx := 0, gen := 0, region := some (true, 0x20000, 0x1000) }] } }
    s.core.nextComp (fun x => x == .enq) = some (comp 0 .enq) ∧ s.core.taskOf (ref 0) = some (r, task 0 .running)
      ∧ s.core.skein 0 3 = some k ∧ s.core.enqArea r k (k.enqRec 0) = .ok [] := by
  intro k r c s
  and_intros <;> first | decide +kernel | exact ok_of (by decide +kernel)

theorem witness_EnqueueEdgesAndSignals_edges :
    let s := completing [0] .edges
    s.core.nextEdges = some (comp 0 .edges, aRun 9 3 [task 0 .running], [])
      ∧ (s.core.edgeRun (comp 0 .edges) (aRun 9 3 [task 0 .running]) []).nextEdges = none := by decide +kernel

/-- A head with one successor, node 1. -/
def chained : Skein := skein 3 [record (2 ^ 45 + 2 ^ 28) 0 0 0, 0, record 12 0 0 0]

theorem witness_EnqueueEdgesAndSignals_last :
    let r := aRun 9 3 [task 0 .running, task 1 .waiting]
    let c0 := graphed chained [r]
    let c : Core := { c0 with graph := { c0.graph with comps := [comp 0 .edges] } }
    c.nextEdges = some (comp 0 .edges, r, [(1, false)]) ∧ 0 < c.edgeBudget
      ∧ (c.edgeRun (comp 0 .edges) r [(1, false)]).nextEdges = none ∧ (runs core).core.nextEdges = none := by decide +kernel

theorem witness_EnqueueEdgesAndSignals_signal :
    (runs core).served (0x400000 + 8 * 4095) whole = true ∧ (runs core).core.graph.sigAdds = [] := by decide +kernel

theorem witness_EnqueueEdgesAndSignals_polled :
    let r := aRun 9 3 [task 0 .waiting]
    let w : WatchEnt := { task := ref 0, addr := 0x20000, next := 0 }
    let c := graphed (skein 3 [0]) [r]
    let s := runs { c with graph := { c.graph with watches := [w] } }
    s.core.runOfSkein 0 3 = some r
      ∧ s.core.graph.watches.find? (fun x => x.task == { ctx := 0, tag := r.tag, node := 0, dyn := none }) = some w
      ∧ w.next ≤ s.core.now ∧ (s.core.reelServing fun x => x == .polled w.task) = false := by decide +kernel

/-! Dispatch -/

theorem witness_DelayListsAndPresentation_release :
    let t : Task := { task 0 .waiting with delay := some (0, 0) }
    let s := runs (graphed (skein 3 [0]) [aRun 9 3 [t]])
    aget s.core.graph.dlyAt 0 ≠ some s.core.dclk ∧ ref 0 ∈ s.core.delayDue 0 := by decide +kernel

/-- A record selected two DCLK ago for a port, of a run that is stopping or is not. -/
def presenting (issued stopping : Bool) (use : RecUse) : State :=
  let c := graphed (skein 3 [0]) [{ aRun 9 3 [task 0 .running] with stopping := stopping }]
  runs { c with now := 6, disp := { c.disp with ports := [(0, { EngPort.reset with
    issued := issued, doneAt := some 4, sel := some { bits := 1, kind := 4, use := use, last := false, at_ := 0, started := false } })] } }

theorem witness_DelayListsAndPresentation_present :
    ∀ use ∈ [.save, .task (ref 0) 0], ∀ b ∈ [true, false], ∀ d ∈ [true, false],
      let s := presenting b d use
      let r : PortRec := { bits := 1, kind := 4, use := use, last := false, at_ := 0, started := false }
      (s.core.port 0).sel = some r ∧ (s.core.port 0).waiting = false ∧ r.at_ + 2 ≤ s.core.dclk ∧ s.core.startGranted 0 = false
        ∧ s.core.isStart 0 s.core.nextEclk = !b ∧ s.core.recStopping r = (d && use != .save) := by decide +kernel

theorem witness_DelayListsAndPresentation_engineStart :
    let rec_ : PortRec := { bits := 1, kind := 4, use := .task (ref 0) 0, last := false, at_ := 0, started := false }
    let c := graphed (skein 3 [0]) [aRun 9 3 [task 0 .issued]]
    let s := runs { c with disp := { c.disp with ports := [(0, { EngPort.reset with out := some rec_ })] } }
    (s.core.port 0).out = some rec_ ∧ rec_.started = false ∧ rec_.at_ ≤ s.core.now
      ∧ s.core.taskOf (ref 0) = some (aRun 9 3 [task 0 .issued], task 0 .issued) := by decide +kernel

/-- An enabled port whose engine has latched the context of a task that is RUNNING, with its tiles still to come. -/
def dispatching : State :=
  let c := graphed (skein 3 [0]) [aRun 9 3 [task 0 .running]]
  runs { c with disp := { c.disp with ports := [(0, { EngPort.reset with en := true, rstN := true, setup := some (ref 0), bind := some (ref 0) })] } }

theorem witness_SpindleSelectsFirst :
    let s := dispatching
    let c := ((List.range 64).foldl (fun d j => d.selectOther (64 * 0 + j))
      (s.core.setSpindle 0 { s.core.spindle 0 with selAt := some s.core.dclk })).fixClaims
    0 < s.core.cfg.spindles ∧ (s.core.spindle 0).selAt ≠ some s.core.dclk ∧ c.candidates 0 ≠ []
      ∧ (c.candidates 0).all (fun y => y.due == .tile 0 false false) = true
      ∧ passes (c.tileOperands (aRun 9 3 [task 0 .running]) (task 0 .running) (skein 3 [0]) 0 0) = true := by decide +kernel

theorem witness_SpindleSelectsFirst_none : ((runs core).core.candidates 0) = [] := by decide +kernel

/-- A running tile of a task of level 1 that may yield, and a READY task of level 0 for the same port. -/
def yielding : State :=
  let r := aRun 9 3 [task 0 .running, task 1 .ready]
  let c := graphed (skein 3 [record (2 ^ 8 + 8) 0 0 0, 0]) [r]
  runs (atWork c (.task (ref 0) 0))

theorem witness_YieldSliceAndDeadline_yield :
    let s := yielding
    (s.core.port 0).yield = none ∧ s.core.engLoop 0 = 0 ∧ 0 < hPrio (record (2 ^ 8 + 8) 0 0 0)
      ∧ hYieldOk (record (2 ^ 8 + 8) 0 0 0) = true ∧ s.core.levelZeroWaits 0 0 = true ∧ (s.core.taskOf (ref 0)).isSome = true := by
  decide +kernel

theorem witness_YieldSliceAndDeadline_slice :
    let c := (graphed (skein 3 [0]) [aRun 9 3 [task 0 .ready]]).setCtx 1 { Ctx.reset with st := .opened, spindleMask := 1 }
    let s := runs c
    2 ≤ (s.core.slicers 0).length ∧ (s.core.spindle 0).holder = none
      ∧ ((List.range 64).map fun j => (((s.core.spindle 0).holder.getD (s.core.spindle 0).prev) + 1 + j) % 64).find?
          (fun m => (s.core.slicers 0).contains m && s.core.hasReady m 0) = some 0 := by decide +kernel

/-- With no ready work the Spindle has no next holder. -/
theorem witness_YieldSliceAndDeadline_nobody :
    let s := runs ((graphed (skein 3 [0]) [aRun 9 3 [task 0 .running]]).setCtx 1 { Ctx.reset with st := .opened, spindleMask := 1 })
    2 ≤ (s.core.slicers 0).length ∧ (s.core.spindle 0).holder = none
      ∧ ((List.range 64).map fun j => (((s.core.spindle 0).holder.getD (s.core.spindle 0).prev) + 1 + j) % 64).find?
          (fun m => (s.core.slicers 0).contains m && s.core.hasReady m 0) = none := by decide +kernel

theorem witness_YieldSliceAndDeadline_deadline :
    let h := record (2 ^ 7) 0 0 (2 ^ 32)
    let k := skein 3 [h]
    let r := aRun 9 3 [task 0 .running]
    let s := runs { graphed k [r] with now := 1000 }
    let t := task 0 .running
    let tiles := s.core.checkedTiles r t k h
    let d := s.core.dlOf r t k h 0
    s.core.taskOf (ref 0) = some (r, t) ∧ s.core.skein 0 r.skein = some k ∧ s.core.headOf r t = h ∧ t.kind = .static
      ∧ hFixed h = true ∧ r.checksOff = false ∧ r.stopping = false ∧ t.exempt = false ∧ t.st.final = false ∧ t.elided = false
      ∧ r.uncheckedAt t = false ∧ 0 < dlWork h tiles 0 ∧ dlBack t h tiles 0 d = false ∧ (hPorts h).contains 0 = true
      ∧ t.dlMissed.contains 0 = false ∧ t.dlTold = false ∧ r.halt = false ∧ 2 * (d + 1) ≤ 3 * s.core.dclk := by decide +kernel

/-! Engines -/

/-- A tile of the task at node 0 out at port 0. -/
def tiled : Core := atWork (graphed (skein 3 [0]) [aRun 9 3 [task 0 .running]]) (.task (ref 0) 0)

theorem witness_EngineReturns_done :
    let s := runs tiled
    0 < s.core.cfg.enginePorts ∧ s.core.engLoop 0 = 0 ∧ (s.core.port 0).out.isSome = true ∧ 1 = (1 : BitVec 256).toNat % 2 ^ 16
      ∧ s.core.taskOf (ref 0) = some (aRun 9 3 [task 0 .running], task 0 .running)
      ∧ hMode (s.core.headOf (aRun 9 3 [task 0 .running]) (task 0 .running)) ≠ 2
      ∧ ({ task 0 .running with back := aset (task 0 .running).back 0 (agetD (task 0 .running).back 0 0 + 1) }).allBack 0 = false := by
  decide +kernel

theorem witness_EngineReturns_yielded :
    let c := tiled.setPort 0 { tiled.port 0 with yield := some 0 }
    let s := runs { c with now := 4 }
    (s.core.port 0).sel = none ∧ (s.core.port 0).yield = some 0 ∧ ceilDiv (3 * (0 + 1)) 2 ≤ s.core.now / 2
      ∧ (task 0 .running).tiles ≠ some 0
      ∧ (s.core.disp.ports.map Prod.fst).Nodup := by decide +kernel

theorem witness_EngineReturns_yielded_alone :
    ∀ f, f ≠ 0 → ((runs tiled).core.port f).busyFor (ref 0) = false := by
  intro f h
  have : (runs tiled).core.port f = EngPort.reset := by
    show (if 0 = f then some _ else none).getD EngPort.reset = _
    rw [if_neg (Ne.symm h)]; rfl
  rw [this]
  decide +kernel

theorem witness_EngineReturns_saved :
    (runs (atWork core .save)).core.port 0 = { EngPort.reset with
      en := true, rstN := true, out := some { bits := 1, kind := 4, use := .save, last := false, at_ := 0, started := true } } := by
  decide +kernel

theorem witness_EngineReturns_none : 127 < (runs core).core.cfg.enginePorts ∧ ((runs core).core.port 127).out = none := by
  decide +kernel

/-! Synchronisation objects -/

def obj (token : Bool) : SyncObj :=
  { phys := 6, ctx := 0, vid := 2, token := token, value := 5, waiters := [], upds := [], arms := [] }

/-- Context 0 with an object table of four entries at 0x3000, in which object 2 is mapped. -/
def mapped (o : SyncObj) : Core :=
  let c := core.setCtx 0 { core.ctx 0 with syncLog2 := 2, stab := 0x3000, syncQuota := 4, sigrange := 0x10000 }
  { holding c 0x3010 [w64 (2 ^ 63 + b2n o.token * 2 ^ 62 + o.phys)] with sync := { c.sync with objs := [o] } }

def setP : Packet := packet 0x30 false [0, 2, 9]

theorem witness_SyncCommands_set :
    let s := asked (mapped (obj false)) setP
    let c := s.core.taken 0
    s.takes 0x30 0 setP = true ∧ passes (step9 setP (range 2 32 (pf setP 2 32 2 != 3))) = true
      ∧ c.syncLookup 0 (pf setP 2 0 24) = .ok (some (obj false))
      ∧ (syncOpOf (pf setP 2 32 2)).fits (obj false).token false = true := by
  intro s c
  and_intros <;> first | decide +kernel | exact ok_of (by decide +kernel)

def waitP (exp : Bool) (w : Nat) : Packet := packet 0x31 exp [0, w64 w, 9]

theorem witness_SyncCommands_wait_signal :
    let p := waitP true 0
    let s := asked (mapped (obj false)) p
    s.takes 0x31 0 p = true ∧ pkExp p = true
      ∧ passes (step9 p (range 2 0 ((s.core.taken 0).sigIn 0 (pf p 2 0 12)))) = true := by decide +kernel

theorem witness_SyncCommands_wait_object :
    let p := waitP false 2
    let s := asked (mapped (obj true)) p
    let c := s.core.taken 0
    s.takes 0x31 0 p = true ∧ pkExp p = false ∧ passes (step9 p []) = true
      ∧ c.syncLookup 0 (pf p 2 0 24) = .ok (some (obj true)) := by
  intro p s c
  and_intros <;> first | decide +kernel | exact ok_of (by decide +kernel)

def allocP : Packet := packet 0x32 false [0, 0, 2]

theorem witness_SyncCommands_alloc :
    let s := asked (mapped (obj false)) allocP
    let c := s.core.taken 0
    s.takes 0x32 0 allocP = true
      ∧ passes (step9 allocP (range 3 0 (decide (1 ≤ pf allocP 3 0 19) && decide (pf allocP 3 0 19 ≤ 262144)))) = true
      ∧ (c.ctx 0).syncLog2 ≠ 0 ∧ pf allocP 2 0 24 + pf allocP 3 0 19 ≤ 2 ^ (c.ctx 0).syncLog2
      ∧ c.syncLookup 0 0 = .ok none ∧ c.syncLookup 0 1 = .ok none
      ∧ (c.objsOf 0).length + 2 ≤ (c.ctx 0).syncQuota ∧ c.sync.objs.length + 2 ≤ c.cfg.syncObjects
      ∧ c.writeFault (c.syncEntryAddr 0 (pf allocP 2 0 24)) (8 * 2) = none := by
  intro s c
  and_intros <;> first | decide +kernel | exact ok_of (by decide +kernel)

def freeP : Packet := packet 0x33 false [0, 2, 1]

theorem witness_SyncCommands_free :
    let s := asked (mapped (obj true)) freeP
    let c := s.core.taken 0
    s.takes 0x33 0 freeP = true
      ∧ passes (step9 freeP (range 3 0 (decide (1 ≤ pf freeP 3 0 19) && decide (pf freeP 3 0 19 ≤ 262144)))) = true
      ∧ [obj true].length = pf freeP 3 0 19 ∧ c.syncLookup 0 (pf freeP 2 0 24 + 0) = .ok (some (obj true))
      ∧ [obj true].any c.hasWaiter = false ∧ c.writeFault (c.syncEntryAddr 0 (pf freeP 2 0 24)) (8 * 1) = none := by
  intro s c
  and_intros <;> first | decide +kernel | exact ok_of (by decide +kernel)

theorem witness_SyncEvaluation_updates :
    let s := runs (mapped { obj false with upds := [{ rank := 1, op := .add, val := 3 }] })
    s.running = true ∧ (s.core.sync.objs.map (·.phys)).Nodup ∧ s.core.sync.evalAt ≠ some s.core.dclk
      ∧ (∀ o, o ∈ s.core.sync.objs → o.out = [] ∧ o.counted = false)
      ∧ (runs { core with sync := { core.sync with evalAt := some 0 } }).core.sync.evalAt = some core.dclk := by
  decide +kernel

def aWaiter : SyncWaiter := { who := .queue 0, skein := 0, equal := false, threshold := 5 }

/-- A queue in SYNC_WAIT, whose waiter is not withdrawn, on a token and on a counter. -/
theorem witness_SyncEvaluation_waiters :
    let c := (asked core (waitP false 2)).core.setQueue 0 { busy [] with cur := .syncWait (waitP false 2) 2 }
    c.waiterGone { obj true with waiters := [aWaiter] } aWaiter = false ∧ aWaiter.who = .queue 0
      ∧ (c.queue 0).cur = .syncWait (waitP false 2) 2 ∧ (obj true).token = true ∧ (obj false).token = false := by decide +kernel

/-- A window whose grant is in force for context 0, with object 2 as its target. -/
def granted (o : SyncObj) : State :=
  let c := mapped o
  runs { c with sync := { c.sync with win := { c.sync.win with status := w64 (2 ^ 32 + 4), target := w64 (2 * 2 ^ 8) } } }

theorem witness_ManualOperations :
    ∀ b ∈ [true, false],
      let s := granted (obj b)
      s.served 0x800028 whole = true ∧ bitAt s.core.sync.win.status 2 = true ∧ bitAt s.core.sync.win.status 3 = false
        ∧ fld s.core.sync.win.target 0 6 = fld s.core.sync.win.status 24 6
        ∧ (s.core.syncLookup 0 (fld s.core.sync.win.target 8 24)).toOption = some (some (obj b)) ∧ (obj b).ctx = 0
        ∧ (obj b).vid = fld s.core.sync.win.target 8 24
        ∧ SyncOp.set.fits (obj b).token true = true ∧ SyncOp.add.fits (obj b).token true = !b
        ∧ SyncOp.signal.fits (obj b).token true = b := by decide +kernel

theorem witness_TokensAreVerified_window :
    (runs core).served 0x800008 whole = true ∧ bitAt (runs core).core.sync.win.status 3 = false
      ∧ (runs { core with sync := { core.sync with win := { core.sync.win with grantAddr := some 0x4000 } } }).core.sync.win.grantAddr
          = some 0x4000 := by decide +kernel

def unlockP : Packet := packet 0x91 false [0, 0x4000, 288]

/-- DEBUG_UNLOCK in MANUFACTURE whose token is all zero: it is read, and is not a token. -/
theorem witness_TokensAreVerified_unlock :
    let s := asked core unlockP
    s.takes 0x91 0 unlockP = true
      ∧ (match unlockOutcome s.sys s.core unlockP with | .ok x => !passes x.2 | .error _ => false) = true := by decide +kernel

/-! Message channels -/

/-- Context 0 with handles and room for channel ends, on a chip that is alone. -/
def channelled : Core :=
  let c := handled (core.setCtx 0 { core.ctx 0 with chanQuota := 2 })
  { c with fab := { c.fab with plan := some alone } }

def openRxP : Packet := packet 0x40 false [0, w64 (511 + 2 ^ 16), w64 (12 * 2 ^ 32), 1]

/-- The receive record of a route: from channel 4 of position 0, with no handler. -/
def rxRoute : List W64 := [w64 (4 * 2 ^ 32 + 2), 0, 0xFFFFFFFFFFFFFFF, 0xFFFFFFFFFFFFFFF, 0xFFFFFFFFFFFFFFF, 0xFFFFFFFFFFFFFFF,
  0xFFFFFFFFFFFFFFF, 0]

theorem witness_ChanCommands_open_receive :
    let p := openRxP
    let s := asked (holding channelled 0x20000 rxRoute) p
    let c := s.core.taken 0
    s.takes 0x40 0 p = true
      ∧ passes (step9 p (limit 2 0 (decide (pf p 2 0 12 < c.cfg.channels))
          ++ range 3 32 (decide (12 ≤ pf p 3 32 5) && decide (pf p 3 32 5 ≤ 20)))) = true
      ∧ c.handleParam 0 p 4 0 false 64 = .ok ⟨false, 0x20000, 0x10000⟩ ∧ c.readFor 4 0x20000 8 = .ok rxRoute
      ∧ c.chanEnds 0 < (c.ctx 0).chanQuota ∧ pb p 2 16 = true
      ∧ c.handleParam 0 p 3 0 true (2 ^ pf p 3 32 5) = .ok ⟨true, 0x10000, 0x10000⟩
      ∧ c.routeHandle 0 p (fld (rxRoute.getD 1 0) 32 32) true (fld (rxRoute.getD 1 0) 3 29 * 8 + 8) = .ok ⟨true, 0x10000, 0x10000⟩
      ∧ (c.chan 511).rx = none ∧ c.recvRouteOk 0 rxRoute = true := by
  intro p s c
  and_intros <;> first | decide +kernel | exact ok_of (by decide +kernel)

def openTxP : Packet := packet 0x40 false [0, 3, 0, 1]

/-- The send record of a route: to channel 4 of position 0, slots of 4 KiB for node 0 of skein 3, in the region of handle 1. -/
def txRoute : List W64 := [w64 (4 * 2 ^ 32 + 3 * 2 ^ 22 + 12 * 2 ^ 16 + 1), 0, w64 (2 ^ 32), 0, 0, 0, 0, 0]

theorem witness_ChanCommands_open_send :
    let p := openTxP
    let s := asked (holding channelled 0x20000 txRoute) p
    let c := s.core.taken 0
    s.takes 0x40 0 p = true
      ∧ passes (step9 p (limit 2 0 (decide (pf p 2 0 12 < c.cfg.channels)) ++ range 3 32 (pf p 3 32 5 == 0))) = true
      ∧ c.readFor 4 0x20000 8 = .ok txRoute ∧ pb p 2 16 = false
      ∧ c.routeHandle 0 p (fld (txRoute.getD 2 0) 32 32) false
          ((fld (txRoute.getD 1 0) 24 20 + 1 - fld (txRoute.getD 1 0) 44 20) * 2 ^ fld (txRoute.getD 0 0) 16 5) = .ok ⟨false, 0x20000, 0x10000⟩
      ∧ (c.chan 3).tx = none ∧ c.sendRouteOk 0 txRoute = true := by
  intro p s c
  and_intros <;> first | decide +kernel | exact ok_of (by decide +kernel)

theorem witness_ChanCommands_close :
    ∀ x ∈ [(0x41, w64 (2 + 2 ^ 16)), (0x42, w64 (2 + 2 ^ 16)), (0x41, 2)],
      let p := packet x.1 false [0, x.2]
      let s := asked (core.setChan 2 { Chan.reset with rx := some (receive 3), tx := some sender }) p
      let c := s.core.taken 0
      s.takes x.1 0 p = true ∧ passes (step9 p []) = true ∧ pf p 2 0 12 = 2 ∧ (c.chan 2).rx = some (receive 3)
        ∧ (c.chan 2).tx = some sender ∧ (receive 3).ctx = 0 ∧ sender.ctx = 0 ∧ (c.chan 2).closing = none
        ∧ sender.slots = [] ∧ sender.waiting = [] ∧ sender.sent = [] := by decide +kernel

def msg (kind : Nat) : MsgRec :=
  { kind := kind, handler := 1, fenceEn := false, fenceChan := 0, len := 64, fence := 0, sig := 5, value := 3, user := 0, payload := [] }

def waitingRec : TxRec := { task := ref 0, index := 0, tried := false, stalled := false, msg := msg 1 }

def withTx (t : ChanTx) : State := runs ((graphed (skein 3 [0]) [aRun 9 3 [task 0 .running]]).setChan 2 { Chan.reset with tx := some t })

theorem witness_MessagesAreSent_slot :
    let t := { sender with slots := [(0, ref 0)] }
    let s := runs { (withTx t).core with now := 3 }
    s.running = true ∧ (s.core.chan 2).tx = some t ∧ t.slots = (0, ref 0) :: [] ∧ 0 < s.core.dclk
      ∧ s.core.sendsBelow 2 (ref 0) = false ∧ s.core.slotRead t 0 = .ok []
      ∧ passes (s.core.slotRead { t with areaLen := 0 } 0) = false := by
  intro t s
  refine ⟨?_, ?_, ?_, ?_, ?_, ?_, ?_⟩ <;> first | decide +kernel | exact ok_of (by decide +kernel)

theorem witness_MessagesAreSent_slot_fault :
    ∀ t : ChanTx, (withTx sender).core.slotRead { t with areaLen := 0 } 0 = .error (.badHandle, 3) := fun _ => rfl

theorem witness_MessagesAreSent_send :
    let t := { sender with waiting := [waitingRec] }
    t.st = .opened ∧ t.ringLog2 ≠ 0 ∧ t.waiting = waitingRec :: []
      ∧ (t.waiting.any fun x => x.task == waitingRec.task && decide (2 ^ t.ringLog2 < msgSize x.msg)) = false
      ∧ padFor (2 ^ t.ringLog2) t.wr (msgSize waitingRec.msg) + msgSize waitingRec.msg ≤ 2 ^ t.ringLog2 - diff64 t.wr t.consumed := by
  decide +kernel

theorem witness_MessagesAreSent_stalls :
    let t : ChanTx := { sender with waiting := [{ waitingRec with tried := true }], st := .noReader }
    ((withTx t).core.chan 2).tx = some t ∧ t.st = .noReader ∧ t.waiting = [{ waitingRec with tried := true }]
      ∧ { waitingRec with tried := true }.stalled = false ∧ waitingRec.tried = false := by decide +kernel

def chanMsg (b : ChanBody) : ChanMsg := { toChan := 2, fromPos := 0, fromChan := 4, body := b }

theorem witness_RecordsReceivedAndServed_record :
    let m := chanMsg (.record 1 0 (msg 1) 0)
    let c0 := core.setChan 2 { Chan.reset with rx := some (receive 3), epoch := 1 }
    let s := runs (arrived c0 (.chan m))
    let x := s.core.chanFrame (fun b => match b with | .record _ _ _ _ => true | _ => false) .here
    s.running = true ∧ Arrival.here.wf = true ∧ x.2 = some m ∧ (x.1.chan 2).rx = some (receive 3) ∧ x.1.restoring 0 = false
      ∧ 1 = (x.1.chan 2).epoch ∧ m.fromPos = (receive 3).srcPos ∧ m.fromChan = (receive 3).srcChan
      ∧ msgSize (msg 1) ≤ 2 ^ (receive 3).ringLog2 := by decide +kernel

theorem witness_RecordsReceivedAndServed_closed :
    let m := chanMsg (.record 1 0 (msg 1) 0)
    let x := (arrived core (.chan m)).chanFrame (fun b => match b with | .record _ _ _ _ => true | _ => false) .here
    x.2 = some m ∧ (x.1.chan 2).rx = none ∧ (x.1.chan 2).closing = none := by decide +kernel

def rxRec (kind : Nat) (stage : RxStage) : RxRec :=
  { pad := 0, offset := 0, seq := 0, stage := stage, heldIt := false, metAt := some 0, msg := msg kind }

/-- A receive end that closes, with and without a record under way. -/
theorem witness_ChanCommands_closing :
    ∀ l ∈ [[], [rxRec 1 .payload]],
      let k : ChanEnd := { rx := { receive 3 with recs := l }, epoch := 1, reason := 1, late := [] }
      let c := core.setChan 2 { Chan.reset with closing := some k }
      (c.chan 2).closing = some k ∧ k.late = [] ∧ (c.chan 2).discarded < 2 ^ 32 := by decide +kernel

def withRx (r : ChanRx) : Core := (graphed (skein 3 [8]) [aRun 9 3 []]).setChan 2 { Chan.reset with rx := some r }

theorem witness_RecordsReceivedAndServed_delivered :
    ∀ k ∈ [1, 2],
      let r := { receive 3 with recs := [rxRec k .written] }
      let s := runs (withRx r)
      2 < 4096 ∧ (s.core.chan 2).rx = some r ∧ (rxRec k .written).stage = .written ∧ (rxRec k .written).msg.kind = k := by
  decide +kernel

theorem witness_RecordsReceivedAndServed_signal :
    let r := { receive 3 with recs := [rxRec 2 .handler] }
    let c := withRx r
    let s := runs { c.setCtx 0 { c.ctx 0 with sigrange := w64 (2 ^ 16 + 5) } with now := 3 }
    (s.core.chan 2).rx = some r ∧ (rxRec 2 .handler).metAt = some 0 ∧ 0 < s.core.dclk ∧ s.core.signalBad 0 (msg 2) = none
      ∧ (∀ w, w ∈ s.core.stash.waiting → w.2 ≠ .chan 2) := by decide +kernel

theorem witness_RecordsReceivedAndServed_bad :
    (runs (withRx { receive 3 with recs := [rxRec 2 .handler] })).core.signalBad 0 (msg 2) ≠ none
      ∧ (rxRec 2 .handler).stage = .handler ∧ (rxRec 2 .handler).msg.kind = 2 := by decide +kernel

theorem witness_RecordsReceivedAndServed_handler :
    let r := { receive 3 with recs := [rxRec 1 .handler] }
    let c := withRx r
    let s := runs { c with graph := { c.graph with skeins := [{ skein 3 [8] with enqLimit := 1 }] } }
    (s.core.chan 2).rx = some r ∧ r.handlerOf (msg 1) = some 0 ∧ s.core.handlerRun r = some (aRun 9 3 []) := by decide +kernel

theorem witness_RecordsReceivedAndServed_consumed :
    let r := { receive 3 with polling := true, wr := 64 }
    let s := runs (withRx r)
    (s.core.chan 2).rx = some r ∧ r.nextPoll ≤ s.core.now ∧ (r.due = true ∨ r.consumed ≠ r.wr)
      ∧ (s.core.reelServing fun x => x == .consumed 2) = false := by decide +kernel

/-- A send end without a reader, and one with a reader that has a record out, with a notice of some kind that has arrived. -/
def noticed (t : ChanTx) (b : ChanBody) : Core := arrived (core.setChan 2 { Chan.reset with tx := some t }) (.chan (chanMsg b))

theorem witness_NoticesAndRingAdds_notices :
    ∀ t ∈ [{ sender with st := TxSt.noReader, sent := [(1, waitingRec)] }, { sender with sent := [(1, waitingRec)] }],
    ∀ b ∈ [ChanBody.openNotice 1 12, .openNotice 2 12, .closeNotice 1, .credit 1 64 0, .credit 2 64 0, .credit 1 64 1, .refusal 1 3],
      let m := chanMsg b
      let x := (noticed t b).chanFrame
        (match b with
         | .openNotice _ _ => fun b => match b with | .openNotice _ _ => true | _ => false
         | .closeNotice _ => fun b => match b with | .closeNotice _ => true | _ => false
         | .credit _ _ _ => fun b => match b with | .credit _ _ _ => true | _ => false
         | _ => fun b => match b with | .refusal _ _ => true | _ => false) .here
      x.2 = some m ∧ (x.1.chan 2).tx = some t ∧ x.1.restoring t.ctx = false ∧ m.fromPos = t.destPos ∧ m.fromChan = t.destChan
        ∧ t.sent.find? (fun y => y.1 == 1) = some (1, waitingRec) ∧ 0 = t.delivered ∧ 1 = t.epoch := by decide +kernel

theorem witness_NoticesAndRingAdds_add :
    ∀ b ∈ [true, false],
      let c0 := core.setCtx 0 { core.ctx 0 with sigrange := w64 (2 ^ 16 + 4095) }
      let c1 := arrived { c0 with fab := { c0.fab with plan := some alone, route := if b then some aloneRoute else none } } (.sigadd 4095 3)
      let x := c1.arrive (fun p => match p with | .sigadd _ _ => true | _ => false) .here
      x.2.map (·.payload) = some (.sigadd 4095 3) ∧ (∀ k, k < 64 → ¬(x.1.restoring k = true ∧ x.1.sigIn k 4095 = true))
        ∧ x.1.bound 0 = b ∧ x.1.sigIn 0 4095 = true ∧ (∀ k, k < 64 → b = false → ¬(x.1.bound k = true ∧ x.1.sigIn k 4095 = true)) := by
  decide +kernel

end Sys2Proof.Tests
end

