-- ==== Sys2Proof/Tests/Witness3.lean ====
section
/-! SUPPORT. States and operands that meet the hypotheses of the statements: Carder, Ply, the fabric, clips, the Reel port and what the cryptographic functions accept. -/

set_option Elab.async false

namespace Sys2Proof.Tests

open Sys2Proof.Machine

/-! Carder -/

def moeP : Packet := packet 0x50 false [0, w64 (2 ^ 32), w64 (2 ^ 16 + 1), 0]

/-- A table image of one expert and one token, with live map 2. -/
def moeImage : List W64 :=
  [w64 (0x43445234 * 2 ^ 32 + 1), w64 (3 * 2 ^ 54 + 2 ^ 17 + 1), w64 (7 * 2 ^ 16), w64 (2 ^ 31 + 2 * 2 ^ 26), w64 (2 ^ 32),
   0xFFFFFFFFFFFFFFFF, 0xFFFFFFFF00000000, 0]

def moeTab : MoeTable :=
  { tableOf 0 moeP moeImage [0, 0] with scoreAt := 0x20000, dispAt := 0x10000, confAt := none, seqAt := none, statsAt := none }

theorem witness_ExpertTableCommands_load :
    let s := asked (holding (handled core) 0x20000 moeImage) moeP
    let c := s.core.taken 0
    s.takes 0x50 0 moeP = true ∧ passes (step9 moeP (moeFaults moeP)) = true
      ∧ c.handleParam 0 moeP 2 32 false (64 + 16 * pf moeP 3 0 14) = .ok ⟨false, 0x20000, 0x10000⟩
      ∧ c.readFor 2 0x20000 8 = .ok moeImage ∧ c.readFor 2 (0x20000 + 64) (2 * pf moeP 3 0 14) = .ok [0, 0]
      ∧ c.moeRegions 0 moeP moeImage (tableOf 0 moeP moeImage [0, 0]) = .ok moeTab
      ∧ (c.table (pf moeP 2 0 6)).tab = none ∧ imageBad moeTab moeImage [0, 0] = false ∧ moeTab.mapEn = true
      ∧ aget c.moe.maps moeTab.mapId = none := by
  intro s c
  and_intros <;> first | decide +kernel | exact ok_of (by decide +kernel)

def tabled (m : Moe) : Core := { handled core with moe := { tables := [(0, m)], maps := [(2, { ctx := 0, nLocal := 1, bits := [true] })] } }

theorem witness_ExpertTableCommands_unload :
    let p := packet 0x51 false [0, 0]
    let s := asked (tabled { Moe.reset with tab := some moeTab }) p
    let c := s.core.taken 0
    s.takes 0x51 0 p = true ∧ passes (step9 p []) = true ∧ (c.table (pf p 2 0 6)).tab = some moeTab ∧ moeTab.ctx = 0
      ∧ c.skeinIdle 0 moeTab.routeSkein = true := by decide +kernel

def aBlock : StepBlock :=
  { gen := 0, selections := 1, nan := 0, exited := 0, pooled := 0, dropped := 0,
    experts := [{ routed := 1, overCap := 0, dropped := 0, accepted := 1 }], slots := [] }

theorem witness_ExpertTableCommands_stats :
    let p := packet 0x52 false [0, 0, 0]
    let m : Moe := { Moe.reset with tab := some moeTab, hist := [aBlock] }
    let s := asked (tabled m) p
    let c := s.core.taken 0
    let bytes := natBytes 8 (m.hist.length * 2 ^ 32 + aBlock.gen % 2 ^ 32) ++ natBytes 56 0 ++ m.hist.flatMap StepBlock.bytes
    s.takes 0x52 0 p = true ∧ passes (step9 p []) = true ∧ c.handleParam 0 p 3 0 true 0 = .ok ⟨true, 0x10000, 0x10000⟩
      ∧ (c.table (pf p 2 0 6)).tab = some moeTab ∧ passes (extentCheck 3 ⟨true, 0x10000, 0x10000⟩ (64 + 8 * moeTab.blockSize)) = true
      ∧ c.writeFault 0x10000 bytes.length = none ∧ memWf c.mem = true := by
  intro p m s c bytes
  and_intros <;> first | decide +kernel | exact ok_of (by decide +kernel)

theorem witness_RoutingSelectsAndGrants : ([(0, 5), (1, 7), (2, 7)].map (Prod.fst : Nat × Int → Nat)).Nodup ∧ 3 < [2, 2].foldl (· + ·) 0 := by
  decide

def stepWork : StepWork := { StepWork.fresh (ref 0) 0 with vec := [1], block := some aBlock, live := [true] }

/-- The table of Ply group 7 at a state of its step, the chip being alone in the group. -/
def stepping (st : StepSt) : State :=
  let c := tabled { Moe.reset with tab := some moeTab, st := st, work := some stepWork }
  let g : GroupEnt := { group := 7, ctx := 0, nLeaves := 1, first := 0, count := 1 }
  runs { c with now := 3, fab := { c.fab with plan := some alone, route := some { aloneRoute with groups := [g] } } }

theorem witness_RoutingStepAdvances :
    let s := stepping .loc
    let w1 := (s.core.localPass moeTab stepWork).toOption.getD stepWork
    let c1 := s.core.setTable 0 { s.core.table 0 with work := some w1 }
    s.running = true ∧ (s.core.table 0).tab = some moeTab ∧ (s.core.table 0).work = some stepWork ∧ (s.core.table 0).st = .loc
      ∧ passes (s.core.localPass moeTab stepWork) = true ∧ c1.collFirst (.inr 0) = true
      ∧ (c1.groupFor moeTab.plyGroup moeTab.ctx).isSome = true
      ∧ ({ c1 with fab := .reset } : Core).groupFor moeTab.plyGroup moeTab.ctx = none := by decide +kernel

/-- A step of table 1 that waits behind the one of table 0. -/
theorem witness_RoutingStepAdvances_waits :
    let c := (stepping .loc).core
    let m : Moe := { c.table 0 with work := some { stepWork with ready := true } }
    let s := runs ((c.setTable 0 m).setTable 1 m)
    (s.core.table 1).st = .loc ∧ (if (s.core.table 1).work.any (·.ready) then true else false) = true
      ∧ (s.core.setTable 1 { s.core.table 1 with work := some { stepWork with ready := true } }).collFirst (.inr 1) = false := by
  decide +kernel

theorem witness_RoutingStepAdvances_decide :
    let s0 := stepping .exchange
    let s := runs ((stepping .loc).core.stepExchange 0)
    let g : GroupEnt := { group := 7, ctx := 0, nLeaves := 1, first := 0, count := 1 }
    (s.core.table 0).st = .exchange ∧ s.core.groupFor moeTab.plyGroup moeTab.ctx = some g
      ∧ moeAnswered moeTab g (s.core.heldFor (s.core.moeKey 0 moeTab) (moeParams moeTab g)) = true
      ∧ moeAnswered moeTab g (s0.core.heldFor (s0.core.moeKey 0 moeTab) (moeParams moeTab g)) = false := by decide +kernel

theorem witness_RoutingStepAdvances_writes :
    let s := runs { (stepping .decide).core with now := 0 }
    (s.core.table 0).st = .decide ∧ stepWork.sinceAt = s.core.dclk ∧ stepWork.block = some aBlock ∧ moeTab.statsAt = none := by
  decide +kernel

theorem witness_RoutingStepAdvances_commit :
    ((stepping .decide).core.reelServing fun x => x == .stepWrite 0) = false ∧ stepWork.sinceAt < (stepping .commit).core.dclk
      ∧ stepWork.block = some aBlock ∧ moeTab.mapEn = true ∧ (aget (stepping .commit).core.moe.maps moeTab.mapId).isSome = true
      ∧ ((stepping .commit).core.table 0).granted = [] ∧ { moeTab with mapEn := false }.mapEn = false := by
  decide +kernel

/-! Ply -/

/-- The words of a slot that adds one INT32 element over group 7, at the handle of index 0, with its trigger at node 0 of skein 3. -/
def slotWords : List (Nat × W64) :=
  [(0, w64 (2 ^ 63 + 2 ^ 56 + 5 * 2 ^ 48 + 5 * 2 ^ 44 + 3 * 2 ^ 32)), (1, w64 (7 * 2 ^ 48)), (2, w64 (2 ^ 32)), (4, w64 (2 ^ 24))]

def collWork : CollWork := CollWork.fresh (ref 0) 0

/-- The run of slot 0 of context 0 at a state, the chip being alone in group 7. -/
def collecting (st : CollSt) : Core :=
  let r : Run := { aRun 9 3 [task 0 .running] with handleIdx := [0] }
  let c := graphed (skein 3 [0]) [r]
  let g : GroupEnt := { group := 7, ctx := 0, nLeaves := 1, first := 0, count := 1 }
  { c with
    graph := { c.graph with reloc := [{ ctx := 0, idx := 0, gen := 0, region := some (true, 0x10000, 0x10000) }] }
    ply := [(0, { PlyPage.reset with slots := [(0, slotWords)], runs := [(0, { st := st, gen := 0, work := some { collWork with len := 1 } })] })]
    fab := { c.fab with plan := some alone, route := some { aloneRoute with groups := [g] } } }

theorem witness_CollectiveRuns_start :
    let s := runs (collecting .idle)
    s.running = true ∧ (s.core.collParts 0 0).isSome = true ∧ s.core.collFirst (.inl (0, 0)) = true ∧ (s.core.slot 0 0).bindEn = false
      ∧ (let c : Core := { s.core with ply := [(0, { s.core.plyPage 0 with
           slots := [(0, slotWords), (1, slotWords)], runs := (0, s.core.collRun 0 0) :: [(1, s.core.collRun 0 0)] })] }
         (c.collParts 0 1).isSome = true ∧ c.collFirst (.inl (0, 1)) = false) := by decide +kernel

/-- The collective with its binding enabled, to expert 0 of table 0, which is loaded with its step at a state. -/
def bindingTo (st : StepSt) : Core :=
  let c := collecting .idle
  { c with
    now := 3
    moe := { tables := [(0, { Moe.reset with tab := some moeTab, st := st, work := some stepWork })], maps := [] }
    ply := [(0, { c.plyPage 0 with slots := [(0, aset slotWords 1 (w64 (7 * 2 ^ 48 + 2 ^ 31)))] })] }

theorem witness_CollectiveRuns_binds :
    ∀ x ∈ [(StepSt.idle, false), (.routed, true)],
      let c := bindingTo x.1
      (c.slot 0 0).bindEn = true ∧ (c.collParts 0 0).isSome = true ∧ c.collFirst (.inl (0, 0)) = true
        ∧ (match c.collParts 0 0 with
           | some (sl, _, r, _) => c.bindOk sl.table sl.expert r
           | none => !x.2) = x.2 := by decide +kernel

theorem witness_CollectiveRuns_exchange :
    (match (collecting .loc).collParts 0 0 with
     | some (sl, g, r, w) => passes ((collecting .loc).collData r sl g w)
     | none => false) = true ∧ ((collecting .loc).collRun 0 0).st = .loc := by decide +kernel

/-- A source in a line that is known to be bad. -/
theorem witness_CollectiveRuns_fails :
    let c : Core := { collecting .loc with badLines := [(0x400, 1)] }
    (match c.collParts 0 0 with
     | some (sl, g, r, w) =>
       (match c.collData r sl g w with
        | .error e => e != (.faulted, heldCode)
        | .ok _ => false)
     | none => false) = true := by decide +kernel

theorem witness_CollectiveRuns_write :
    let c := (collecting .loc).collExchange 0 0
    (c.collRun 0 0).st = .exchange
      ∧ (match c.collParts 0 0 with
         | some (sl, g, r, w) =>
           collReady sl g (c.heldFor (c.plyKey 0 0) (plyParams sl g)) && passes (c.collRegions r sl g) && !sl.presEn
             && (collOut sl g w.own (c.heldFor (c.plyKey 0 0) (plyParams sl g))).writes.any fun y => !y.2.isEmpty
         | none => false) = true := by decide +kernel

theorem witness_CollectiveRuns_done :
    ((collecting .write).collRun 0 0).st = .write ∧ collWork.status = false
      ∧ ((collecting .write).reelServing fun y => y == .collWrite 0 0) = false
      ∧ ((collecting .write).ply.map Prod.fst).Nodup := by decide +kernel

def contribution (gen : Nat) : PlyMsg :=
  { key := { group := 7, isTable := false, slot := 0, gen := gen }
    params := plyParams ((collecting .idle).slot 0 0) { group := 7, ctx := 0, nLeaves := 1, first := 0, count := 1 }
    data := .frag 0 0 0 false false [] }

theorem witness_ContributionsAndSlots_frame :
    ∀ gen ∈ [0, 1],
      let x := (arrived (collecting .exchange) (.ply (contribution gen))).arrive (fun p => match p with | .ply _ => true | _ => false) .here
      x.2.map (·.payload) = some (.ply (contribution gen))
        ∧ (x.1.groupEnt 7).map (·.ctx) = some 0 ∧ bitAt (x.1.slotWord 0 0 0) 63 = true ∧ (x.1.slot 0 0).group = 7
        ∧ (x.1.collRun 0 0).gen = 0 ∧ (x.1.collRun 0 0).st = .exchange
        ∧ ((arrived (collecting .idle) (.ply (contribution gen))).collRun 0 0).st = .idle
        ∧ (x.1.groupEnt 7).map (fun e => plyParams (x.1.slot 0 0) e) = some (contribution gen).params := by decide +kernel

/-- A contribution to the exchange of table 0, whose step is in LOCAL or in EXCHANGE. -/
theorem witness_ContributionsAndSlots_table :
    ∀ st ∈ [StepSt.loc, .exchange],
      let c0 := (stepping st).core
      let g : GroupEnt := { group := 7, ctx := 0, nLeaves := 1, first := 0, count := 1 }
      let m : PlyMsg := { key := c0.moeKey 0 moeTab, params := moeParams moeTab g, data := .frag 0 0 0 false false [] }
      let x := (arrived c0 (.ply m)).arrive (fun p => match p with | .ply _ => true | _ => false) .here
      x.2.map (·.payload) = some (.ply m) ∧ m.key.isTable = true ∧ x.1.groupEnt 7 = some g
        ∧ (x.1.table 0).tab = some moeTab ∧ moeTab.ctx = g.ctx ∧ moeTab.plyGroup = m.key.group ∧ m.key.gen = (x.1.table 0).gen := by
  decide +kernel

theorem witness_ContributionsAndSlots_kinds :
    let d : List PlyData := [.root 0 false false [], .leaf 0 true 0 [] [], .frag 0 0 0 false false []]
    let m : PlyMsg := { contribution 0 with params := { (contribution 0).params with nLeaves := 2 } }
    d.length = 3 ∧ plyTop m = false ∧ (core.holdPly { msg := m, src := some 1, since := 0 }).nodeOver m = none
      ∧ ((core.heldFor m.key m.params).any fun x => x.isNode 0 0 0) = false := by decide +kernel

theorem witness_ContributionsAndSlots_slot :
    (runs core).served (0x1C00000 + 0x10000 * 63 + 64 * 63 + 8 * 7) whole = true ∧ (runs core).core.noRuns 63 = true := by
  decide +kernel

/-! The fabric -/

/-- The plan image of position 0 of a ring of two: its port 0 leads to port 1 of the other, and its port 1 to port 0. -/
def planImage : List W64 :=
  [w64 (0x504C4E34 * 2 ^ 32 + 1), w64 (5 * 2 ^ 48 + 2 + 2 ^ 7 + 2 ^ 14 + 2 ^ 21), 0, 0, 0, 0, 0, 0] ++ List.replicate 8 0
    ++ [w64 (2 ^ 63 + 2 ^ 57 + 16 * 2 ^ 52), 0, w64 (2 ^ 63 + 2 ^ 60 + 16 * 2 ^ 52), 0] ++ List.replicate 12 0

def ring : Plan := planOf planImage

def planP : Packet := packet 0x60 false [0, 0x4000, 256]

theorem witness_FabricCommands_plan :
    let s := asked (holding core 0x4000 planImage) planP
    let c := s.core.taken 0
    s.takes 0x60 0 planP = true ∧ c.otherOpen = false ∧ passes (step9 planP (physFaults planP 2 0)) = true ∧ 256 ≤ pf planP 3 0 32
      ∧ c.readFor 2 (physAddr planP 2) 32 = .ok planImage ∧ passes (c.planCheck planImage (planOf planImage)) = true := by
  intro s c
  and_intros <;> first | decide +kernel | exact ok_of (by decide +kernel)

/-- A core on the ring of two. -/
def ringed2 : Core := { core with fab := { core.fab with plan := some ring } }

def routeP : Packet := packet 0x61 false [0, 0x4000, 128]

def routeWords : List W64 := [w64 (0x524F5434 * 2 ^ 32 + 1), 0, 0, 0, 0, 0, 0, 0]

theorem witness_FabricCommands_route :
    let s := asked (holding ringed2 0x4000 routeWords) routeP
    let c := s.core.taken 0
    s.takes 0x61 0 routeP = true ∧ passes (step9 routeP (physFaults routeP 2 0)) = true ∧ c.fab.plan = some ring ∧ c.allIdle = true
      ∧ 64 ≤ pf routeP 3 0 32 ∧ c.readFor 2 (physAddr routeP 2) 8 = .ok routeWords ∧ fld (routeWords.getD 1 0) 0 11 ≤ 1024
      ∧ lines64 (64 + ring.product) + 16 * fld (routeWords.getD 1 0) 0 11 ≤ pf routeP 3 0 32
      ∧ c.readBytes (physAddr routeP 2 + 64) ring.product = .ok [0, 0]
      ∧ c.readBytes (physAddr routeP 2 + lines64 (64 + ring.product)) (16 * fld (routeWords.getD 1 0) 0 11) = .ok []
      ∧ passes (c.routeCheck ring routeWords [0, 0] (chunks 16 0 []) (routeOf routeWords [0, 0] (chunks 16 0 []))) = true := by
  intro s c
  and_intros <;> first | decide +kernel | exact ok_of (by decide +kernel)

/-- The ring with a spare position 1. -/
def spared : Plan := { ring with spares := [[1], [], [], []] }

def spareP : Packet := packet 0x62 false [0, w64 (2 ^ 16)]

theorem witness_FabricCommands_spare :
    let s := asked { core with fab := { core.fab with plan := some spared } } spareP
    let c := s.core.taken 0
    s.takes 0x62 0 spareP = true ∧ passes (step9 spareP []) = true ∧ c.fab.plan = some spared ∧ c.allIdle = true
      ∧ pf spareP 2 0 16 < spared.logCount ∧ pf spareP 2 16 16 < spared.product ∧ spared.isSpare (pf spareP 2 16 16) = true
      ∧ (∀ m, m ∈ c.fab.spareMap → m.2 = pf spareP 2 16 16 → m.1 = pf spareP 2 0 16) := by decide +kernel

def linked (l : Link) : Core := ringed2.setLink 3 l

theorem witness_FabricCommands_accept :
    ∀ b ∈ [0, 256],
      let p := packet 0x63 false [0, w64 (3 + b)]
      let s := asked (linked { Link.reset with st := .held }) p
      s.takes 0x63 0 p = true ∧ passes (step9 p []) = true ∧ pf p 2 0 3 < (s.core.taken 0).cfg.linkPorts
        ∧ ((s.core.taken 0).link (pf p 2 0 3)).st = .held ∧ pb p 2 8 = decide (b = 256) := by decide +kernel

/-- A port in a state, with a present time long after it entered it. -/
def trained (st : LinkSt) (now : Nat) : State := runs { linked { Link.reset with st := st } with now := now }

theorem witness_PortsTrain :
    3 < (runs core).core.cfg.linkPorts
      ∧ ((trained .active 0).core.link 3).st = .active ∧ ((trained .phyUp 0).core.link 3).st = .phyUp
      ∧ ((trained .align 0).core.link 3).looped = false
      ∧ (((trained .phyUp (2 ^ 20 * 48)).core.link 3).since + 2 ^ 20 * 48 ≤ (trained .phyUp (2 ^ 20 * 48)).core.now)
      ∧ ((trained .align (2 ^ 16 * 4)).core.link 3).locked = false ∧ ((trained .ident (2 ^ 20 * 3)).core.link 3).beacon = none
      ∧ (((trained .failed (2 ^ 24 * 48)).core.link 3).since + 2 ^ 24 * 48 ≤ (trained .failed (2 ^ 24 * 48)).core.now) := by
  decide +kernel

theorem witness_PortsTrain_unacknowledged :
    let s := runs { linked { Link.reset with st := .active, unackAt := some 0, ackSince := some 0 } with now := 2 ^ 16 * 4 }
    (s.core.link 3).unackAt = some 0 ∧ (s.core.link 3).st = .active ∧ 0 + 2 ^ 16 * 4 ≤ s.core.now ∧ (s.core.link 3).ackSince = some 0
      ∧ 0 + 1024 * 4 ≤ s.core.now := by decide +kernel

theorem witness_PortsTrain_control :
    let s := runs (ringed2.setLink 0 { Link.reset with oos := true })
    s.served (0x1400128 + 0x40 * 0) whole = true ∧ (s.core.link 0).oos = true ∧ s.core.fab.plan = some ring
      ∧ (ring.portAt 0).isSome = true ∧ bitAt 0 0 = false ∧ bitAt 2 1 = true ∧ bitAt 1 0 = true ∧ bitAt 1 1 = false := by
  decide +kernel

def aBeacon (self port : Nat) : Beacon :=
  { count := 4096, phase := 0, refIdx := 0, hops := 127, aligned := true, taken := true, port := port, kind := 0, self := self,
    domainId := 5, planRev := 1 }

/-- A frame from a neighbour, with a payload. -/
def from_ (p : Payload) : Frame := sealed { core.mkFrame 0 0 p with src := 1 }

/-- The CRC that a sender writes agrees, whatever the payload. -/
theorem crcOk_sealed (f : Frame) : crcOk (sealed f) = true := by
  have h : frameCrc (sealed f) = frameCrc f := rfl
  simp [crcOk, h]
  rfl

theorem witness_BeaconsProbesAndTime_expected :
    let s := runs (ringed2.setLink 0 { Link.reset with st := .ident })
    (from_ (.beacon (aBeacon 1 1))).wf = true ∧ crcOk (from_ (.beacon (aBeacon 1 1))) = true
      ∧ (from_ (.beacon (aBeacon 1 1))).ackValid = false ∧ (s.core.link 0).st = .ident ∧ s.core.fab.plan = some ring
      ∧ (aBeacon 1 1).domainId = ring.domain ∧ (aBeacon 1 1).planRev = ring.rev ∧ s.core.expected 0 = some (1, 1)
      ∧ s.core.expected 0 ≠ some (1, 0) ∧ (s.core.link 0).accepted ≠ some (1, 0) ∧ s.core.otherPort 0 (1, 0) = some 1
      ∧ s.core.otherPort 0 (0, 0) = none := by decide +kernel

theorem witness_BeaconsProbesAndTime_ident_alone :
    ∀ q, q ≠ 0 → ((runs (ringed2.setLink 0 { Link.reset with st := .ident })).core.link q).st ≠ .ident := by
  intro q h
  have : (runs (ringed2.setLink 0 { Link.reset with st := .ident })).core.link q = Link.reset := by
    show (if 0 = q then some _ else none).getD Link.reset = _
    rw [if_neg (Ne.symm h)]; rfl
  rw [this]; decide

theorem witness_BeaconsProbesAndTime_parent :
    let c := ringed2.setLink 0 { Link.reset with st := .active }
    let s := runs { c with gc := { c.gc with status := 0, realign := false } }
    (s.core.link 0).st = .active ∧ (s.core.link 0).looped = false ∧ (aBeacon 1 1).aligned = true ∧ (aBeacon 1 1).hops < 128
      ∧ s.core.fab.isRef = false ∧ bitAt s.core.gc.status 0 = false ∧ s.core.gc.realign = false := by decide +kernel

theorem witness_BeaconsProbesAndTime_held :
    (1, 0) ≠ (1, 1) ∧ (let s := runs (ringed2.setLink 0 { Link.reset with st := .ident })
      (s.core.link 0).accepted ≠ some (0, 0) ∧ s.core.expected 0 ≠ some (0, 0) ∧ s.core.otherPort 0 (0, 0) = none) := by decide +kernel

/-- The only ACTIVE port of the ring. -/
theorem witness_BeaconsProbesAndTime_only :
    ∀ q, q ≠ 0 → ((ringed2.setLink 0 { Link.reset with st := .active }).link q).st ≠ .active := by
  intro q h
  have : (ringed2.setLink 0 { Link.reset with st := .active }).link q = Link.reset := by
    show (if 0 = q then some _ else none).getD Link.reset = _
    rw [if_neg (Ne.symm h)]; rfl
  rw [this]; decide

theorem witness_BeaconsProbesAndTime_probes :
    let s := runs (ringed2.setLink 0 { Link.reset with st := .measure, probeNext := 1, probes := [] })
    crcOk (from_ (.probe (.fresh 0))) = true ∧ crcOk (from_ (.probe (.returned 0 2 3 1 4))) = true
      ∧ (s.core.link 0).st = .measure ∧ s.core.selfLooped 0 = false ∧ 0 < (s.core.link 0).probeNext
      ∧ (s.core.link 0).probes.length < 1024 ∧ (from_ (.probe (.fresh 0))).wf = true
      ∧ (from_ (.probe (.returned 0 2 3 1 4))).wf = true :=
  ⟨crcOk_sealed _, crcOk_sealed _, by decide +kernel, by decide +kernel, by decide +kernel, by decide +kernel, by decide +kernel,
    by decide +kernel⟩

theorem witness_BeaconsProbesAndTime_measured :
    let s := runs (ringed2.setLink 0 { Link.reset with st := .measure, probeNext := 1024, probes := [4] })
    (s.core.link 0).st = .measure ∧ (s.core.link 0).probeNext = 1024 ∧ (s.core.link 0).probes ≠ [] := by decide +kernel

theorem witness_BeaconsProbesAndTime_measureTick :
    let c := ringed2.setLink 0 { Link.reset with st := .ident, taken := true, farTaken := true }
    (c.link 0).st = .ident ∧ (c.link 0).taken = true ∧ (c.link 0).farTaken = true
      ∧ ((ringed2.setLink 0 { Link.reset with st := .ident, taken := true }).link 0).farTaken = false := by decide +kernel

theorem witness_BeaconsProbesAndTime_time :
    let r1 : Plan := { ring with refs := [1, 0, 1, 1] }
    let s := runs { core with now := 2 ^ 20 * 3, fab := { core.fab with plan := some r1 } }
    s.core.fab.beaconAt ≠ some (s.core.gc.count / 4096) ∧ s.core.fab.plan = some r1 ∧ r1.present ≠ [] ∧ 1 < r1.product
      ∧ max s.core.gc.lastBeacon s.core.fab.planAt + 2 ^ 20 * 3 ≤ s.core.now ∧ s.core.candidate_ = some 1
      ∧ s.core.fab.isRef = false ∧ s.core.fab.refQuiet + 2 ^ 20 * 3 ≤ s.core.now := by decide +kernel

theorem witness_FramesAcknowledged_ack :
    let f := { from_ .ack with ackValid := true, ackVl := 1, ackSeq := 5 }
    let s := runs (ringed2.setLink 0 { Link.reset with st := .active })
    0 < s.core.cfg.linkPorts ∧ f.wf = true ∧ f.payload = .ack ∧ (s.core.link 0).st = .active ∧ crcOk f = true ∧ f.ackValid = true
      ∧ f.nak = false ∧ (s.core.link 0).looped = false ∧ ((s.core.link 0).ackLane 1).gap = false := by decide +kernel

theorem witness_FramesAcknowledged_lanes :
    ∀ v, (((runs (ringed2.setLink 0 { Link.reset with st := .active })).core.link 0).lane v).waiting = [] := by
  intro v
  match v with
  | 0 => decide +kernel
  | 1 => decide +kernel
  | 2 => decide +kernel
  | _ + 3 => rfl

theorem witness_FramesAcknowledged_codeword :
    let s := runs (ringed2.setLink 0 { Link.reset with st := .active })
    (s.core.link 0).st ≠ .parked ∧ (s.core.link 0).st = .active ∧ ((s.core.link 0).ackLane 3).gap = false
      ∧ (Instr.uncorrectableCodeword 0 [] 15).wf = true ∧ (Instr.uncorrectableCodeword 0 [3] 16).wf = true := by decide +kernel

theorem witness_FramesAcknowledged_psync :
    let c := arrived { core with fab := { core.fab with plan := some alone } } (.psync 4 2)
    let x := c.arrive payPsync .here
    x.2.map (·.payload) = some (.psync 4 2) ∧ x.1.cfg.linkPorts = c.cfg.linkPorts := by decide +kernel

theorem witness_FramesAcknowledged_timeout :
    let s := runs (ringed2.setLink 0 { Link.reset with psyncAt := some 0 })
    (s.core.link 0).psyncAt = some 0 ∧ 0 ≤ s.core.now := by decide +kernel

/-! Clips -/

/-- Context 0 with handles, bound to the slice of a chip that is alone. -/
def bound : Core :=
  let c := handled core
  { c with fab := { c.fab with plan := some alone, route := some aloneRoute } }

def clipP : Packet := packet 0x70 false [0, 16384, 1, 0]

/-- A clip registers value that leaves room for one line of each engine. -/
def small (c : Core) : Core := { c with clip := { c.clip with ctrl := w64 (64 * 2 ^ 32 + 16 * 2 ^ 16 + 1) } }

theorem witness_ClipCommands_at :
    let s := asked (small bound) clipP
    let c := s.core.taken 0
    s.takes 0x70 0 clipP = true ∧ bitAt c.gc.status 0 = true ∧ c.clipPending = false ∧ passes (step9 clipP []) = true
      ∧ c.gc.count + 16384 ≤ (pw clipP 2).toNat
      ∧ c.handleParam 0 clipP 4 0 true (c.blobBound (pw clipP 3)) = .ok ⟨true, 0x10000, 0x10000⟩
      ∧ (∀ n, n < 64 → bitAt (pw clipP 3) n = true → (c.ctx n).st ≠ .closed) := by
  intro s c
  and_intros <;> first | decide +kernel | exact ok_of (by decide +kernel)

/-- A clip of context 0 at count 10, in a phase. -/
def clip (ph : ClipPhase) : ClipRun :=
  { phase := ph, count := 10, mask := 1, blobAt := 0x10000, blobLen := 0x10000, limit := 64, tag := 7, irq := false, round := 1,
    roundAt := 0, owed := false, heard := [], sentUp := true, result := none, targets := [], cutCtxs := [], localCut := 0, ports := [], savedPorts := [],
    iv := [], engOff := 4, nSec := 0, text := [], areas := [], tx := 0, rx := 0, reason := 0, saveEnd := 0, sliceOk := true, contAt := 20 }

def clipping (c : Core) (q : ClipRun) (count : Nat) : Core :=
  { c with clip := { c.clip with run := some q }, gc := { c.gc with count := count } }

theorem witness_ClipCommands_abort :
    let p := packet 0x71 false [0]
    let s := asked (clipping bound (clip .armed) 0) p
    let c := s.core.taken 0
    s.takes 0x71 0 p = true ∧ passes (step9 p []) = true ∧ c.clip.run = some (clip .armed) ∧ c.gc.count < (clip .armed).count := by
  decide +kernel

theorem witness_ClipCommands_registers :
    let s := runs core
    let v : W64 := w64 (2 ^ 32 + 16 * 2 ^ 16 + 1)
    s.served 0x240038 whole = true ∧ s.core.clipPending = false ∧ 16 ≤ fld v 16 16 ∧ fld v 0 16 ≠ 0 ∧ fld v 32 32 ≠ 0
      ∧ s.served (0x200100 + 0x1000 * 63 + 8 * 31) whole = true ∧ s.core.noRuns 63 = true := by decide +kernel

theorem witness_ClipAgreesAndCuts_count :
    let s := runs (clipping bound (clip .armed) 10)
    s.core.clip.run = some (clip .armed) ∧ (clip .armed).count ≤ s.core.gc.count ∧ s.core.clipAdmits (clip .armed) = true
      ∧ (runs (clipping core (clip .armed) 10)).core.clipAdmits (clip .armed) = false := by decide +kernel

def aResult : ClipMsg :=
  { clipCount := 10, round := 1, up := false, fromIdx := 0, ords := List.replicate 64 0, flag := true, tx := 3, rx := 3, count := 12 }

/-- Context 0 of a clip, with a run that is at its cut and another that has not passed its own. -/
def cutting (q : ClipRun) : Core :=
  let c := { (graphed (skein 3 [0]) [{ aRun 9 3 [] with cut := true }, aRun 10 4 [task 0 .running]]) with fab := bound.fab }
  clipping c q 10

theorem witness_ClipAgreesAndCuts_result :
    let q := { clip .agree with result := some aResult }
    let s := runs (cutting q)
    s.core.clip.run = some q ∧ q.result = some aResult ∧ bitAt q.mask 0 = true ∧ q.cutCtxs.contains 0 = false
      ∧ s.core.ctxCut 0 = false := by decide +kernel

theorem witness_ClipAgreesAndCuts_instance :
    let q := { clip .cutting with mask := 3 }
    let c := cutting q
    let s := runs { c.setCtx 1 { Ctx.reset with st := .opened } with graph := { c.graph with
      runs := [{ aRun 9 3 [] with cut := true }, { aRun 10 4 [task 0 .running] with ctx := 1 }] } }
    s.core.clip.run = some q ∧ s.core.findRun 0 9 = some { aRun 9 3 [] with cut := true } ∧ bitAt q.mask 0 = true
      ∧ s.core.runCut { aRun 9 3 [] with cut := true } = true ∧ bitAt q.mask 1 = true ∧ q.cutCtxs.contains 1 = false
      ∧ s.core.ctxCut 1 = false := by decide +kernel

/-- The same context with every run at its cut. -/
theorem witness_ClipAgreesAndCuts_all :
    let q := { clip .agree with result := some aResult }
    let c := clipping { (graphed (skein 3 [0]) [{ aRun 9 3 [] with cut := true }]) with fab := bound.fab } q 10
    c.clip.run = some q ∧ c.ctxCut 0 = true ∧ (∀ n, n < 64 → bitAt q.mask n = true → n = 0) := by decide +kernel

/-- A chip that is alone owes its contribution to round A. -/
theorem witness_ClipAgreesAndCuts_owed :
    let q := { clip .agree with owed := true }
    let c := clipping bound q 10
    c.clip.run = some q ∧ q.owed = true ∧ q.heard = [] ∧ c.clipIdx = 0 ∧ c.clipKids = [] := by decide +kernel

theorem witness_ClipAgreesAndCuts_limit :
    let s := runs (clipping bound (clip .drain) (10 + 64 * 1024))
    s.core.clip.run = some (clip .drain) ∧ (clip .drain).count + (clip .drain).limit * 1024 ≤ s.core.gc.count := by decide +kernel

theorem witness_ClipSavesAndContinues_again :
    let q := { clip .drain with result := some { aResult with rx := 2 } }
    let s := runs { clipping bound q 10 with now := 4096 * 3 }
    s.core.clip.run = some q ∧ ClipRun.drained { aResult with rx := 2 } = false ∧ q.roundAt + 4096 * 3 ≤ s.core.now := by
  decide +kernel

/-- The sections have a layout of their own, so that they fit the blob is a premise on what they are encoded as. -/
theorem witness_ClipSavesAndContinues_saves (h : ∀ x, Config.encodeSections x = []) :
    let q := { clip .drain with result := some aResult }
    let s := runs (small (clipping bound q 10))
    s.core.clip.run = some q ∧ ClipRun.drained aResult = true ∧ q.owed = false ∧ s.sys.hedgeDown = false
      ∧ s.core.objsFolded q.mask = true ∧ memWf s.core.mem = true
      ∧ ∀ k iv x, (gcmText k iv (padLines (Config.encodeSections x))).length = 0 ∧ s.core.writeFault q.blobAt (256 + 0) = none
          ∧ 64 * (4 + 0 / 64 + s.core.saveLines * q.savedPorts.length) ≤ q.blobLen ∧ 0 % 64 = 0 := by
  intro q s
  refine ⟨by decide +kernel, by decide +kernel, by decide +kernel, by decide +kernel, by decide +kernel, by decide +kernel,
    fun k iv x => ⟨?_, by decide +kernel⟩⟩
  rw [h]; rfl

/-- The lifecycle part in RUN with Hedge in ERROR. -/
def downSys : Sys := { runSys with hg := .error }

theorem witness_ClipSavesAndContinues_down :
    downSys.hedgeDown = true ∧ ({ runs core with sys := downSys } : State).running = true := by decide

/-- A contribution to round B that is owed, with a receive end that is quiet and with one that is not. -/
theorem witness_ClipSavesAndContinues_owed :
    let q := { clip .drain with owed := true }
    let c := clipping bound q 10
    c.clip.run = some q ∧ q.owed = true ∧ c.endsQuiet q.mask = true
      ∧ (c.setChan 2 { Chan.reset with rx := some { receive 3 with
           recs := [RxRec.mk 0 0 0 .header false none (MsgRec.mk 1 0 false 0 64 0 0 0 0 [])] } }).endsQuiet q.mask = false := by
  decide +kernel

/-- The engine on port 0 saves its state for a clip. -/
theorem witness_EngineReturns_saves :
    let s := runs (clipping (atWork core .save) (clip .save) 10)
    s.running = true ∧ s.core.engLoop 0 = 0 ∧ (s.core.port 0).out.isSome = true ∧ s.core.clip.run = some (clip .save) := by
  decide +kernel

theorem witness_ClipSavesAndContinues_done :
    let s := runs (small (clipping bound (clip .save) 10))
    s.core.clip.run = some (clip .save) ∧ (clip .save).ports = []
      ∧ s.core.readBytes ((clip .save).blobAt + 64 * (clip .save).engOff) (64 * s.core.saveLines * (clip .save).savedPorts.length) = .ok [] := by
  intro s
  and_intros <;> first | decide +kernel | exact ok_of (by decide +kernel)

theorem witness_ClipSavesAndContinues_confirm :
    let q := { clip .confirm with result := some aResult }
    let s := runs (clipping bound q 12)
    s.core.clip.run = some q ∧ q.result = some aResult ∧ q.reason = 0 ∧ s.core.writeFault q.blobAt 256 = none
      ∧ ({ q with reason := 3 } : ClipRun).reason ≠ 0 := by decide +kernel

theorem witness_ClipSavesAndContinues_continue :
    ∀ b ∈ [true, false],
      let q := { clip .cont with sliceOk := b }
      let s := runs (clipping bound q 20)
      s.core.clip.run = some q ∧ q.contAt ≤ s.core.gc.count ∧ q.reason = 0 := by decide +kernel

theorem witness_ClipSavesAndContinues_frame :
    ∀ r ∈ [none, some (clip .agree)],
      let c0 := arrived { bound with clip := { bound.clip with run := r } } (.clip aResult)
      let x := c0.arrive (fun p => match p with | .clip _ => true | _ => false) .here
      x.2.map (·.payload) = some (.clip aResult) ∧ x.1.clip.run = r ∧ aResult.clipCount = (clip .agree).count ∧ aResult.up = false
        ∧ aResult.round = (clip .agree).round ∧ (clip .agree).sentUp = true ∧ (clip .agree).result = none := by decide +kernel

/-- The slice of both chips of the ring, this chip being the root of its tree, with a contribution of the other. -/
theorem witness_ClipSavesAndContinues_child :
    let q := { clip .agree with sentUp := false }
    let m : ClipMsg := { aResult with up := true, fromIdx := 1 }
    let c0 := { ringed2 with clip := { ringed2.clip with run := some q } }
    let c1 : Core := { c0 with fab := { c0.fab with route := some { aloneRoute with lens := [2, 1, 1, 1] } } }
    let x := (arrived c1 (.clip m)).arrive (fun p => match p with | .clip _ => true | _ => false) .here
    x.2.map (·.payload) = some (.clip m) ∧ x.1.clip.run = some q ∧ x.1.clipKids.contains m.fromIdx = true ∧ m.round = q.round := by
  decide +kernel

def restoreP : Packet := packet 0x72 false [0, 0, 1, 100]

/-- A blob of context 0 without sections or areas, of a chip that is alone. -/
def blobWords : List W64 :=
  [w64 (0x434C5034 * 2 ^ 32 + 4), w64 (4 * 2 ^ 20 + 2 ^ 24 + 2 ^ 16), 0, 0, 1, 0, 0, 0, 0, 0, 0, 0, w64 (4 * 2 ^ 32), 0, 0, 0]

def noSections : ClipSave := { ctxs := [], tx := 0, rx := 0, localCut := 0 }

/-- RESTORE of a blob that the tag function and the layout of the sections accept: a premise on both. -/
theorem witness_RestoreAppliesBlob (h1 : ∀ k iv a t, Config.gcmTag k iv a t = []) (h2 : ∀ t, Config.decodeSections t = some noSections) :
    let s := asked (holding bound 0x10000 blobWords) restoreP
    let c := s.core.taken 0
    let hb := memBytes c.mem 0x10000 256
    let iv := (hb.drop 64).take 12
    s.takes 0x72 0 restoreP = true ∧ c.clipPending = false ∧ passes (step9 restoreP []) = true
      ∧ c.handleParam 0 restoreP 2 0 false 0 = .ok ⟨true, 0x10000, 0x10000⟩
      ∧ (∀ n, n < 64 → bitAt (pw restoreP 3) n = true → (c.ctx n).st = .opened ∧ c.noRuns n = true)
      ∧ c.readWords 0x10000 32 = .ok (blobWords ++ List.replicate 16 0)
      ∧ maskPorts (((blobWords ++ List.replicate 16 0).drop 16).flatMap wordBytes) = []
      ∧ c.blobForm (blobWords ++ List.replicate 16 0) (pw restoreP 3) 0 0x10000 = true ∧ c.readBytes 0x10000 256 = .ok hb
      ∧ c.readBytes (0x10000 + 256) (64 * (4 - 4)) = .ok [] ∧ c.readBytes (0x10000 + 64 * 4) 0 = .ok [] ∧ s.sys.hedgeDown = false
      ∧ blobTag s.sys (hb.take 80 ++ natBytes 16 0 ++ hb.drop 96) [] [] iv = (hb.drop 80).take 16
      ∧ Config.decodeSections (gcmText s.sys.keys.devKey iv []) = some noSections ∧ noSections.ctxs.all c.saveFits = true
      ∧ c.objsRoom noSections = true ∧ decide (256 ≤ 0x10000) = true := by
  intro s c hb iv
  and_intros
  case _ => decide +kernel
  case _ => decide +kernel
  case _ => decide +kernel
  case _ => exact ok_of (by decide +kernel)
  case _ => decide +kernel
  case _ => exact ok_of (by decide +kernel)
  case _ => decide +kernel
  case _ => decide +kernel
  case _ => exact ok_of (by decide +kernel)
  case _ => exact ok_of (by decide +kernel)
  case _ => exact ok_of (by decide +kernel)
  case _ => decide +kernel
  case _ => unfold blobTag; rw [h1]; decide +kernel
  case _ => exact h2 _
  case _ => decide +kernel
  case _ => decide +kernel
  case _ => decide +kernel

/-- The opposite premise on the tag function. -/
theorem witness_RestoreAppliesBlob_fails (h1 : ∀ k iv a t, Config.gcmTag k iv a t = [1]) :
    let s := asked (holding bound 0x10000 blobWords) restoreP
    let hb := memBytes (s.core.taken 0).mem 0x10000 256
    blobTag s.sys (hb.take 80 ++ natBytes 16 0 ++ hb.drop 96) [] [] ((hb.drop 64).take 12) ≠ (hb.drop 80).take 16 := by
  intro s hb
  unfold blobTag; rw [h1]; decide +kernel

def restoring (applied : Bool) (resume : Nat) : RestoreRun :=
  { mask := 1, blobAt := 0x10000, count := 10, resume := resume, tag := 7, irq := false, ports := [], applied := applied, save := noSections }

theorem witness_RestoreAppliesBlob_apply :
    ∀ x ∈ [(false, 10), (false, 9), (true, 10)],
      let q := restoring x.1 x.2
      let s := runs { bound with clip := { bound.clip with restore := some q }, gc := { bound.gc with count := 10 } }
      s.core.clip.restore = some q ∧ q.ports = [] ∧ q.applied = x.1 ∧ (q.save.ctxs.map (·.num)).Nodup
        ∧ (x.2 = 10 ↔ s.core.gc.count ≤ q.resume) := by decide +kernel

/-- RESTORE of context 0 with an object, whose table entry lies in a line that is known to be bad. -/
theorem witness_RestoreAppliesBlob_faults :
    let o : SyncObj := { phys := 0, ctx := 0, vid := 2, token := false, value := 5, waiters := [], upds := [], arms := [] }
    let c0 := bound.setCtx 0 { bound.ctx 0 with syncLog2 := 2, stab := 0x3000 }
    let q := { restoring false 10 with save := { noSections with ctxs := [{ c0.ctxSave 0 with objs := [o] }] } }
    let s := runs { c0 with clip := { c0.clip with restore := some q }, badLines := [(0xC0, 1)] }
    s.core.clip.restore = some q ∧ s.core.restoreFaults q = [1] ∧ [1].contains heldCode = false
      ∧ ({ s.core with badLines := [] } : Core).restoreFaults q = [] ∧ (q.save.ctxs.map (·.num)).Nodup := by decide +kernel

/-! The Reel port -/

def aWrite : ReelReq :=
  { chan := 0, tag := 3, write := true, tier := 0, addr := 0x5000, data := [1, 2], serves := .reply 0
      { tag := 7, status := .ok, detail := 0, count := 1, final := true, irq := false, gives := true } }

theorem witness_ReelResponsesAnswered :
    let s := runs { core with reel := { out := [aWrite], wait := [] } }
    s.sys.porst = false ∧ (Instr.reelResponse 1 255 true 3 [] []).wf = true ∧ (s.core.store []).reelOwner 0 3 true = some aWrite
      ∧ (s.core.store []).reelOwner 1 255 true = none ∧ s.sys.drainOwed.contains (1, 255) = false
      ∧ s.sys.drainLate.contains (1, 255) = false := by decide +kernel

theorem witness_ReelResponsesAnswered_drain :
    let s0 := inPhase .drain .keys
    let s : State := { s0 with sys := { s0.sys with drainOwed := [(0, 3)] } }
    (s.core.store []).reelOwner 0 3 true = none ∧ s.sys.drainOwed.contains (0, 3) = true
      ∧ (let t : State := { s0 with sys := { s0.sys with drainLate := [(0, 3)] } }
         t.sys.drainOwed.contains (0, 3) = false ∧ t.sys.drainLate.contains (0, 3) = true) := by decide +kernel

theorem witness_ReelResponsesAnswered_memory :
    memWf core.mem = true ∧ (∀ n a i, aWrite.serves ≠ .testWrite n a i) ∧ aWrite.tier ≠ 2 ∧ aWrite.write = true
      ∧ ({ aWrite with tier := 2 } : ReelReq).tier = 2 := by
  refine ⟨by decide +kernel, fun _ _ _ h => by simp [aWrite] at h, by decide, by decide, by decide⟩

/-! Where the cryptographic functions accept: premises on what they answer -/

/-- A boot image of 64 KiB of zeros, for every configuration, whose digests and signature are zeros. -/
def bootImage : List W64 := [w64 (0x46574934 * 2 ^ 32 + 65536), w64 (4 * 2 ^ 56), 0x1E]

def bootP : Packet := packet 0x90 false [0, 0x4000, 66048]

def booting : State :=
  { sys := { (inPhase .boot .ready).sys with keys := { fwKey := List.replicate 12 0, devKey := [], dbgKey := List.replicate 12 0, floor := 0 } }
    core := offering (holding core 0x4000 bootImage) 0 bootP, pending := [] }

theorem witness_FwLoadVerifiesImage_admits (h1 : ∀ b, Config.sha384 b = List.replicate 12 0) (h2 : ∀ k d g, Config.ecdsaVerify k d g = true) :
    booting.sys.phase = .boot ∧ booting.core.bootPacket = some bootP ∧ booting.sys.hg ≠ .selftest ∧ booting.sys.lcs ≠ .decommissioned
      ∧ passes (step9 bootP (physFaults bootP 2 0)) = true ∧ passes (fwVerify booting.sys (booting.core.taken 0) bootP) = true := by
  refine ⟨by decide, by decide +kernel, by decide, by decide, by decide +kernel, ?_⟩
  unfold fwVerify imageVerdict sigOk
  simp only [h1, h2]
  decide +kernel

end Sys2Proof.Tests
end

