-- ==== Sys2Proof/Tests/Slice0.lean ====
section
/-! SUPPORT. Tests: ill-formed commands that the check refuses, one for each kind of check, and worked examples and tables of
the spec with the results that the spec states. -/

set_option Elab.async false

namespace Sys2Proof.Tests

open Sys2Proof.Machine

/-! Commands that are not well-formed -/

theorem test_wf_queue : (Instr.checkEnd 64).wf = false ∧ (Instr.checkEnd 63).wf = true := by decide

theorem test_wf_context : (Instr.stopCount 64).wf = false ∧ (Instr.stopCount 63).wf = true := by decide

theorem test_wf_tag : (Instr.instanceStart 0 (2 ^ 32)).wf = false ∧ (Instr.instanceStart 0 (2 ^ 32 - 1)).wf = true := by decide

theorem test_wf_engine_port : (Instr.engineStart 1024).wf = false ∧ (Instr.engineStart 1023).wf = true := by decide

theorem test_wf_issue_tag : (Instr.engDone 0 (2 ^ 16) []).wf = false ∧ (Instr.engDone 0 (2 ^ 16 - 1) []).wf = true := by decide

theorem test_wf_completion_code : (Instr.engFault 0 0 8 []).wf = false ∧ (Instr.engFault 0 0 7 []).wf = true := by decide

theorem test_wf_stores : (Instr.engSaved 0 0 [(2 ^ 47, 1)]).wf = false ∧ (Instr.engSaved 0 0 [(2 ^ 47 - 1, 1)]).wf = true := by decide

theorem test_wf_spindle : (Instr.spindleSelection 16).wf = false ∧ (Instr.spindleSelection 15).wf = true := by decide

theorem test_wf_delay_list : (Instr.delayListRelease 4).wf = false ∧ (Instr.delayListRelease 3).wf = true := by decide

theorem test_wf_signal_word :
    (Instr.signalWordWrite 4096 0 whole).wf = false ∧ (Instr.signalWordWrite 4095 0 whole).wf = true := by decide

theorem test_wf_skein_and_node :
    (Instr.polledWaitRead 0 1024 0).wf = false ∧ (Instr.polledWaitRead 0 0 (2 ^ 20)).wf = false
      ∧ (Instr.polledWaitRead 63 1023 (2 ^ 20 - 1)).wf = true := by decide

theorem test_wf_page : (Instr.pageRefill 0 0 (2 ^ 13)).wf = false ∧ (Instr.pageRefill 0 0 (2 ^ 13 - 1)).wf = true := by decide

theorem test_wf_reel :
    (Instr.reelResponse 2 0 true 0 [] []).wf = false ∧ (Instr.reelResponse 0 256 true 0 [] []).wf = false
      ∧ (Instr.reelResponse 0 0 true 4 [] []).wf = false ∧ (Instr.reelResponse 1 255 true 3 [] []).wf = true := by decide

theorem test_wf_table : (Instr.stepCommit 64).wf = false ∧ (Instr.stepCommit 63).wf = true := by decide

theorem test_wf_slot : (Instr.collectiveStart 0 64).wf = false ∧ (Instr.plySlot 0 0 8 0 whole).wf = false := by decide

theorem test_wf_channel : (Instr.messageSend 4096).wf = false ∧ (Instr.messageSend 4095).wf = true := by decide

theorem test_wf_link : (Instr.phyUpLocked 8).wf = false ∧ (Instr.phyUpLocked 7).wf = true := by decide

theorem test_wf_frame :
    (Instr.ackFrame 0 { from_ .ack with seq := 4096 }).wf = false ∧ (Instr.ackFrame 0 { from_ .ack with vl := 4 }).wf = false
      ∧ (Instr.clipFrame (.link 8 (from_ (.clip aResult)))).wf = false ∧ (Instr.ackFrame 0 (from_ .ack)).wf = true := by decide

theorem test_wf_payload :
    (Payload.sigadd 4096 0).wf = false ∧ (Payload.psync 4096 0).wf = false ∧ (Payload.reserved 16).wf = false
      ∧ (Payload.reserved 6).wf = true ∧ (Payload.beacon { aBeacon 1 1 with phase := 256 }).wf = false := by decide

theorem test_wf_which :
    (Instr.flowrangeDlyCtrl (.flowrange 64) 0 whole).wf = false ∧ (Instr.clipCtrlCut (.cut 0 32) 0 whole).wf = false
      ∧ (Instr.testLoopbackRegisters (.tlLink 8) 0 whole).wf = false := by decide

theorem test_wf_lifecycle_code : (Instr.keyRead 16 []).wf = false ∧ (Instr.keyRead 15 []).wf = true := by decide

theorem test_wf_offset : (Instr.registerWrite 0x4000000 0 whole).wf = false ∧ (Instr.registerWrite 0x3FFFFF8 0 whole).wf = true := by
  decide

/-! Table 16-3: the known-answer vectors of canonical FP32 addition, in the pairs of the tree -/

/-- A node over two present FP32 values. -/
def both (a b : Nat) : Nat := (fpAdd a b).1

/-- The tree over 2^24, 1, 1, 1. -/
theorem test_canonical_sum : both (both 0x4B800000 0x3F800000) (both 0x3F800000 0x3F800000) = 0x4B800001 := by decide +kernel

/-- The tree over 2^100, 1, -2^100, +0. -/
theorem test_canonical_sum_cancels : both (both 0x71800000 0x3F800000) (both 0xF1800000 0) = 0 := by decide +kernel

/-- The two leaves of an exact sum of FP32 elements, joined. -/
def exactly (ws : List Nat) : Partial :=
  ws.foldl (fun p w => (joinParts 0 true 0 p (exactTerm (fp32.decode w) 0)).1) Partial.none_

theorem test_exact_sum : fp32.encode (exactValue (exactly [0x4B800000, 0x3F800000, 0x3F800000, 0x3F800000])) = (0x4B800002, false) := by
  decide +kernel

theorem test_exact_sum_cancels : fp32.encode (exactValue (exactly [0x71800000, 0x3F800000, 0xF1800000, 0])) = (0x3F800000, false) := by
  decide +kernel

/-! Chapter 07: the selection example, and the pool of a step -/

/-- The table of the example: 16 experts in 4 groups of which 2 count, k 3, renormalised. -/
def grouped : MoeTable := { moeTab with experts := 16, groups := 4, topGroups := 2, k := 3, renorm := true, grouped := true }

/-- The scores of the example, widened from BF16. -/
def scores : List Nat :=
  [0x3F00, 0x3E80, 0x7FC0, 0x3E00, 0x3F40, 0x3EC0, 0x3EC0, 0x3D80, 0x3F00, 0x3EC0, 0x3E80, 0, 0x3F40, 0xBF00, 0x3E80, 0x3E80].map
    (· * 65536)

theorem test_selection : grouped.selectToken scores = ([(4, 0x3ECCCCCD), (12, 0x3ECCCCCD), (5, 0x3E4CCCCD)], 1, false) := by
  decide +kernel

/-- The floor that the example takes of one expert's part of the pool. -/
theorem test_grant_floor : (grants 196608 [2560, 201000 - 2560]).getD 0 0 = 2505 ∧ 196608 * 2560 / 201000 = 2504 := by decide +kernel

/-! Chapters 02, 03, 04, 05, 06, 09: worked examples -/

/-- 16,777,132 DCLK in a window are a drift of -84, within the default limit. -/
theorem test_drift_window :
    (match exec (.driftWindow 16777132) (runs { core with now := 3 * 16777132 }) with
     | .next t => fld t.core.clk.drift 32 32 == twos 32 (-84) && !bitAt t.core.clk.status 2
     | _ => false) = true := by decide +kernel

/-- The ring of queue 12 of the example. -/
def ringOfTwelve : Core :=
  core.setQueue 12 { Queue.reset with fetch := .idle, ring := w64 (16 * 2 ^ 54), tail := 0x11F00, head := 0x10100 }

theorem test_doorbell_refused :
    let q := (ringOfTwelve.doorbell 12 0x12180).queue 12
    q.tail = 0x11F00 ∧ fld q.status 40 8 = 0x10 := by decide +kernel

theorem test_doorbell_taken :
    let q := (ringOfTwelve.doorbell 12 0x12100).queue 12
    q.tail = 0x12100 ∧ q.fetch = .armed := by decide +kernel

/-- The fields of the LAUNCH packet of the example. -/
def launchExample : Packet := [0x00000A3105050420, 0x1000, 0x0000000700000040, 0x0000000008000803]

theorem test_launch_fields :
    pkOp launchExample = 0x20 ∧ pkTag launchExample = 0xA31 ∧ pkExp launchExample = true ∧ pkIrq launchExample = true
      ∧ pf launchExample 2 32 10 = 7 ∧ pf launchExample 3 16 32 = 0x800 ∧ pf launchExample 3 8 8 = 8 := by decide

/-- The head of node 0x00210 of the example. -/
def headExample : Rec256 := record 0x0030000050002328 0x1004F020001A0660 0 0

theorem test_head_fields :
    hEdgeFirst headExample = 0x300 ∧ hEdgeCount headExample = 5 ∧ hDepInit headExample = 2 ∧ hPrio headExample = 3
      ∧ hMode headExample = 1 ∧ hYieldOk headExample = true ∧ hFixed headExample = false ∧ hPortBase headExample = 64
      ∧ hPortLast headExample = 79 ∧ hProgHidx headExample = 2 ∧ hProgOff headExample = 0x1A0 ∧ hNNest headExample = 2
      ∧ hNConst headExample = 1 ∧ hHasWait headExample = true ∧ hHasAction headExample = true := by decide +kernel

/-- The skein of the example's NEST records, behind a head with no WAIT. -/
def nested : Skein :=
  { skein 3 [record 0 (2 * 2 ^ 8) 0 0, record 0x00000000003001D1 0x0000000100000000 0x0000000002000020 0, record 1 0 0 0] with handles := [0] }

/-- Tile (5, 2) of the example carries its operand A at its base and 0x1_6800. -/
theorem test_tile_operand :
    nested.trips 0 = [8, 4]
      ∧ (let r : Run := { aRun 9 3 [task 0 .running] with handleIdx := [0] }
         let c := graphed nested [r]
         (({ c with graph := { c.graph with reloc := [{ ctx := 0, idx := 0, gen := 0, region := some (true, 0x40000, 0x40000) }] } } : Core).nestOperand
           r 0x0000000100000000 0x0000000002000020 (tileIdx (nested.trips 0) 21)).toOption.map (·.addr)) = some (0x40000 + 0x16800) := by
  decide +kernel

/-- The shares of 37 tiles over eight ports in PAD mode. -/
theorem test_pad_shares :
    (List.range 8).map (fun j => shareOf (record 32 (128 * 2 ^ 54 + 135 * 2 ^ 44) 0 0) 37 (128 + j)) = [5, 5, 5, 5, 5, 4, 4, 4] := by
  decide +kernel

/-- The release of the delay-list example: list 1 with k = 11 takes 1,005,000 to 1,005,568. -/
theorem test_delay_release :
    let c := { core with graph := { core.graph with dlyCtrl := w64 (2 ^ 32 + 11) } }
    c.releaseOf { aRun 9 3 [] with start := 1000000 } (task 0 .waiting) (record 0 0 (5000 * 2 ^ 8) 0) = some (1, 1005568) := by decide +kernel

/-- The pad before a record of 3,072 bytes at offset 63,488 of a ring of 64 KiB. -/
theorem test_message_pad : padFor 65536 129024 3072 = 2048 ∧ 129024 + 2048 + 3072 = 134144 := by decide

/-! Tokens that Hedge accepts: premises on what the cryptographic functions answer -/

/-- A token of a kind, with its third word, for every lifecycle state. -/
def token (kind w2 : Nat) : List W64 := [w64 (0x544B4E34 * 2 ^ 32 + kind), 0, w64 w2, 7]

theorem witness_TokensAreVerified_unlock_accepts (h1 : ∀ b, Config.sha384 b = List.replicate 12 1)
    (h2 : ∀ k d g, Config.ecdsaVerify k d g = true) :
    let c := holding core 0x4000 (token 1 3)
    let s0 := asked { c with hedge := { c.hedge with nonce := 0 } } unlockP
    let s := { s0 with sys := { s0.sys with keys := { s0.sys.keys with dbgKey := List.replicate 12 1 } } }
    s.takes 0x91 0 unlockP = true
      ∧ (match unlockOutcome s.sys s.core unlockP with | .ok x => passes x.2 | .error _ => false) = true := by
  refine ⟨by decide +kernel, ?_⟩
  unfold unlockOutcome tokenVerdict sigOk
  simp only [h1, h2]
  decide +kernel

theorem witness_TokensAreVerified_grant_accepts (h1 : ∀ b, Config.sha384 b = List.replicate 12 1)
    (h2 : ∀ k d g, Config.ecdsaVerify k d g = true) :
    let c := holding core 0x4000 (token 2 (3 * 2 ^ 16 + 5))
    let s0 := runs { c with sync := { c.sync with win := { c.sync.win with nonce := 0, grantAddr := some 0x4000 } } }
    let s := { s0 with sys := { s0.sys with keys := { s0.sys.keys with dbgKey := List.replicate 12 1 } } }
    s.running = true ∧ s.core.sync.win.grantAddr = some 0x4000 ∧ (grantOutcome s.sys s.core 0x4000).any (fun r => passes r.2) = true := by
  refine ⟨by decide +kernel, by decide +kernel, ?_⟩
  unfold grantOutcome tokenVerdict sigOk
  simp only [h1, h2]
  decide +kernel

/-- R392: a bank found bad twice withdraws its 16 pages once. -/
theorem test_bad_bank_withdrawn_once :
    ({ core.graph with badBanks := core.withdrawn [3, 3] } : Graph).badPages = 16 := by decide +kernel

end Sys2Proof.Tests
end

section
/-! PROOFS. Words and their fields: every bit of a word with a field replaced, of a mask and of a written register (R20, R21), and
what a field reads after an update of the same field or of one that lies apart. -/

namespace Sys2Proof.Machine

theorem bitAt_eq_testBit (w : W64) (i : Nat) : bitAt w i = w.toNat.testBit i := rfl

theorem bitAt_zero (i : Nat) : bitAt 0 i = false := BitVec.getLsbD_zero

theorem bitAt_of_ge (w : W64) {i : Nat} (h : 64 ≤ i) : bitAt w i = false := BitVec.getLsbD_of_ge w i h

theorem bitAt_or (v w : W64) (i : Nat) : bitAt (v ||| w) i = (bitAt v i || bitAt w i) := BitVec.getLsbD_or

theorem bitAt_and (v w : W64) (i : Nat) : bitAt (v &&& w) i = (bitAt v i && bitAt w i) := BitVec.getLsbD_and

theorem bitAt_not (w : W64) (i : Nat) : bitAt (~~~w) i = (decide (i < 64) && !bitAt w i) := BitVec.getLsbD_not

theorem testBit_fld (w : W64) (lo len i : Nat) : (fld w lo len).testBit i = (decide (i < len) && bitAt w (lo + i)) := by
  rw [fld, Nat.testBit_mod_two_pow, Nat.testBit_div_two_pow, Nat.add_comm i lo, bitAt_eq_testBit]

theorem fld_lt (w : W64) (lo len : Nat) : fld w lo len < 2 ^ len := Nat.mod_lt _ (Nat.two_pow_pos len)

/-- A field is determined by its bits. -/
theorem fld_congr {v w : W64} {lo len : Nat} (h : ∀ i, lo ≤ i → i < lo + len → bitAt v i = bitAt w i) :
    fld v lo len = fld w lo len := by
  apply Nat.eq_of_testBit_eq
  intro i
  rw [testBit_fld, testBit_fld]
  by_cases hi : i < len
  · rw [h (lo + i) (by omega) (by omega)]
  · simp [hi]

theorem bitAt_ofNat_shifted (n lo i : Nat) :
    bitAt (BitVec.ofNat 64 (n * 2 ^ lo)) i = (decide (i < 64) && (decide (lo ≤ i) && n.testBit (i - lo))) := by
  rw [bitAt, BitVec.getLsbD_ofNat, Nat.testBit_mul_two_pow]

theorem bitAt_fldMask (lo len i : Nat) :
    bitAt (fldMask lo len) i = (decide (i < 64) && (decide (lo ≤ i) && decide (i < lo + len))) := by
  rw [fldMask, bitAt_ofNat_shifted, Nat.testBit_two_pow_sub_one]
  by_cases h : lo ≤ i
  · simp [h, Nat.sub_lt_iff_lt_add h, Nat.add_comm]
  · simp [h]

/-- A bit of a word with a field replaced is a bit of the new value inside the field, and the old bit outside it. -/
theorem bitAt_setFld (w : W64) (lo len v : Nat) {i : Nat} (hi : i < 64) :
    bitAt (setFld w lo len v) i = if lo ≤ i ∧ i < lo + len then v.testBit (i - lo) else bitAt w i := by
  rw [setFld, bitAt_or, bitAt_and, bitAt_not, bitAt_fldMask, bitAt_ofNat_shifted, Nat.testBit_mod_two_pow]
  by_cases h : lo ≤ i ∧ i < lo + len
  · have : i - lo < len := by omega
    simp [hi, h, this]
  · rw [if_neg h]
    by_cases hl : lo ≤ i
    · have h1 : ¬i < lo + len := by omega
      have h2 : ¬i - lo < len := by omega
      simp [hi, h1, h2]
    · simp [hi, hl]

theorem bitAt_setFld_outside (w : W64) {lo len i : Nat} (v : Nat) (h : i < lo ∨ lo + len ≤ i) :
    bitAt (setFld w lo len v) i = bitAt w i := by
  by_cases hi : i < 64
  · rw [bitAt_setFld w lo len v hi, if_neg (by omega)]
  · rw [bitAt_of_ge _ (by omega), bitAt_of_ge _ (by omega)]

theorem bitAt_setBit_self (w : W64) {i : Nat} (b : Bool) (hi : i < 64) : bitAt (setBit w i b) i = b := by
  rw [setBit, bitAt_setFld _ _ _ _ hi, if_pos (by omega), Nat.sub_self]
  cases b <;> rfl

theorem bitAt_setBit_other (w : W64) {i j : Nat} (b : Bool) (h : j ≠ i) : bitAt (setBit w i b) j = bitAt w j :=
  bitAt_setFld_outside w _ (by omega)

theorem fld_setFld_self (w : W64) {lo len : Nat} (v : Nat) (h : lo + len ≤ 64) : fld (setFld w lo len v) lo len = v % 2 ^ len := by
  apply Nat.eq_of_testBit_eq
  intro i
  rw [testBit_fld, Nat.testBit_mod_two_pow]
  by_cases hi : i < len
  · rw [bitAt_setFld _ _ _ _ (by omega), if_pos (by omega), Nat.add_sub_cancel_left]
  · simp [hi]

theorem fld_setFld_apart (w : W64) {lo len lo' len' : Nat} (v : Nat) (h : lo' + len' ≤ lo ∨ lo + len ≤ lo') :
    fld (setFld w lo len v) lo' len' = fld w lo' len' :=
  fld_congr fun _ _ _ => bitAt_setFld_outside w v (by omega)

theorem fld_setBit_apart (w : W64) {i lo len : Nat} (b : Bool) (h : lo + len ≤ i ∨ i < lo) :
    fld (setBit w i b) lo len = fld w lo len :=
  fld_setFld_apart w _ (by omega)

theorem fld_satAdd_self (w : W64) {lo len : Nat} (n : Nat) (h : lo + len ≤ 64) :
    fld (satAdd w lo len n) lo len = min (fld w lo len + n) (2 ^ len - 1) := by
  rw [satAdd, fld_setFld_self _ _ h, Nat.mod_eq_of_lt]
  have := Nat.two_pow_pos len
  omega

theorem fld_satAdd_apart (w : W64) {lo len lo' len' : Nat} (n : Nat) (h : lo' + len' ≤ lo ∨ lo + len ≤ lo') :
    fld (satAdd w lo len n) lo' len' = fld w lo' len' :=
  fld_setFld_apart w _ h

theorem bitAt_satAdd_outside (w : W64) {lo len i : Nat} (n : Nat) (h : i < lo ∨ lo + len ≤ i) :
    bitAt (satAdd w lo len n) i = bitAt w i :=
  bitAt_setFld_outside w _ h

/-- A bit of a mask of fields, each given by its highest and its lowest bit. -/
theorem bitAt_fields (l : List (Nat × Nat)) (i : Nat) :
    bitAt (fields l) i = (decide (i < 64) && l.any fun x => decide (x.2 ≤ i) && decide (i < x.2 + (x.1 - x.2 + 1))) := by
  have fold : ∀ a : W64, bitAt (l.foldl (fun a x => a ||| fldMask x.2 (x.1 - x.2 + 1)) a) i
      = (bitAt a i || (decide (i < 64) && l.any fun x => decide (x.2 ≤ i) && decide (i < x.2 + (x.1 - x.2 + 1)))) := by
    induction l with
    | nil => simp
    | cons x r ih =>
      intro a
      rw [List.foldl_cons, ih, bitAt_or, bitAt_fldMask, List.any_cons, Bool.or_assoc, ← Bool.and_or_distrib_left]
  rw [fields, fold, bitAt_zero, Bool.false_or]

/-- A register after a write (R20, R21): a read-write bit takes the value, another stays, and a bit that the write clears is 0. -/
theorem bitAt_writeFields (rw w1c old v : W64) (i : Nat) :
    bitAt (writeFields rw w1c old v) i = ((if bitAt rw i then bitAt v i else bitAt old i) && !(bitAt v i && bitAt w1c i)) := by
  by_cases hi : i < 64
  · rw [writeFields, bitAt_and, bitAt_or, bitAt_and, bitAt_and, bitAt_not, bitAt_not, bitAt_and]
    cases bitAt rw i <;> simp [hi]
  · simp [bitAt_of_ge _ (Nat.le_of_not_lt hi)]

/-- A write-one-to-clear bit is cleared where no set takes effect in the same PCLK (R20, R327). -/
theorem bitAt_clearable (c : Core) (off : Nat) (w1c : W64) (i : Nat) :
    bitAt (c.clearable off w1c) i = (bitAt w1c i && !bitAt (c.marked off) i) := by
  rw [Core.clearable, bitAt_and, bitAt_not]
  by_cases hi : i < 64
  · simp [hi]
  · simp [bitAt_of_ge _ (Nat.le_of_not_lt hi)]

end Sys2Proof.Machine
end

section
/-! PROOFS. The state after power-on reset (O4): a legal lifecycle state, and the outputs before RUN (Table 02-6). -/

namespace Sys2Proof.Machine

theorem reset_legal : State.reset.sys.Legal where
  porstHolds _ := ⟨rfl, rfl, rfl⟩
  holdHasCause _ := .inl rfl
  lockHolds h := nomatch h
  hedge := ⟨rfl, rfl, rfl, rfl, rfl, rfl, rfl, rfl⟩
  decommissioned h := nomatch h
  scanned h := nomatch h
  owedInDrain h := absurd rfl h
  pendingReset h := absurd rfl h
  countFits := Nat.zero_le _
  failsFit := Nat.zero_le _

/-- Before RUN the outputs toward the engines, the links and the power manager are those of Table 02-6. -/
theorem outputs_before_run {s : State} (h : s.sys.phase ≠ .run) :
    rstActive s = true ∧ pwReqValid s = false ∧ (∀ e, engRstN s e = false ∧ engEn s e = false)
      ∧ (∀ p, lkPark s p = true ∧ lkTxLaneEn s p = 0 ∧ lkRate s p = 0) := by
  have hpark : ∀ p, lkPark s p = true := fun p => by simp [lkPark, h]
  refine ⟨by simp [rstActive, h], by simp [pwReqValid, h], fun e => ⟨by simp [engRstN, h], by simp [engEn, h]⟩,
    fun p => ⟨hpark p, if_pos (hpark p), if_pos (.inl h)⟩⟩

theorem serving_eq_false {y : Sys} (hr : y.phase ≠ .run) (hb : y.phase ≠ .boot) : y.serving = false := by
  simp [Sys.serving, hr, hb]

theorem serving_boot {y : Sys} (hb : y.phase = .boot) : y.serving = true := by
  simp [Sys.serving, hb]

/-- Settles O4: every value of the reset state as it is defined, and the outputs by the state of reset they depend on. -/
theorem resetStateHolds : Obligations.ResetStateHolds := by
  unfold Obligations.ResetStateHolds
  refine ⟨⟨rfl, rfl, rfl, rfl, rfl, rfl, by decide, rfl, rfl, rfl, fun _ => rfl, fun _ => rfl, rfl, rfl, rfl, rfl, reset_memWf⟩,
    reset_legal, fun s hr => ?_⟩
  obtain ⟨hrst, hpw, heng, hlk⟩ := outputs_before_run hr
  refine ⟨hrst, hpw, heng, hlk, fun hb => ?_, fun hb => ⟨serving_boot hb, serving_boot hb⟩, fun hk => ?_⟩
  · have hs := serving_eq_false hr hb
    exact ⟨hs, by simp [dfRspValid, hs], hs⟩
  · simp [kyRd, keyAsked, hk]

end Sys2Proof.Machine
end

section
/-! PROOFS. Register writes (O24): the checks of an access in their order, and what a write does to each kind of field. -/

namespace Sys2Proof.Machine

/-! The checks of a write, in their order (R397) -/

section Checks
variable {y : Sys} {c : Core} {off : Nat} {acc : Access} (v : W64) (f : Core → Option Core)

theorem regAccess_absent (h : off % 8 = 0 ∧ absentReg c off = true) : regAccess y c off v acc f = c := by
  rw [regAccess, if_pos h]

theorem regAccess_isolation (h : ¬(off % 8 = 0 ∧ absentReg c off = true)) (hp : acc.priv = false ∧ unprivOk off = false) :
    regAccess y c off v acc f = c.logAccess 4 off acc.priv true v := by
  rw [regAccess, if_neg h, if_pos (by rw [hp.1, hp.2]; rfl)]

theorem not_isolated (hp : acc.priv = true ∨ unprivOk off = true) : ¬(!acc.priv && !unprivOk off) = true := by
  rcases hp with hp | hp <;> simp [hp]

theorem regAccess_missing (h : ¬(off % 8 = 0 ∧ absentReg c off = true)) (hp : acc.priv = true ∨ unprivOk off = true)
    (hm : readReg y c off = none ∨ (y.phase = .boot ∧ bootServed off = false)) :
    regAccess y c off v acc f = c.logAccess 1 off acc.priv true v := by
  rw [regAccess, if_neg h, if_neg (not_isolated hp), if_pos (by rcases hm with hm | hm <;> simp [hm])]

theorem regAccess_partial (h : ¬(off % 8 = 0 ∧ absentReg c off = true)) (hp : acc.priv = true ∨ unprivOk off = true)
    (hr : readReg y c off ≠ none) (hb : ¬(y.phase = .boot ∧ bootServed off = false)) (he : acc.be ≠ 0xFF) :
    regAccess y c off v acc f = c.logAccess 2 off acc.priv true v := by
  have hs : ¬((readReg y c off).isNone || (y.phase == .boot && !bootServed off)) = true := by
    simpa [hr] using hb
  rw [regAccess, if_neg h, if_neg (not_isolated hp), if_neg hs, if_pos he]

end Checks

theorem exec_registerWrite {off : Nat} (v : W64) (acc : Access) (s : State) (h : off < 0x4000000) :
    exec (.registerWrite off v acc) s = onWrite s off v acc fun _ c => c.writeReg off v acc := if_pos h

/-- A register write of an awake block is the access that R397 checks. -/
theorem exec_registerWrite_awake {off : Nat} {s : State} (v : W64) (acc : Access) (h : off < 0x4000000) (ha : s.awake = true) :
    exec (.registerWrite off v acc) s
      = .next (s.withCore (regAccess s.sys s.core off v acc fun c => c.writeReg off v acc)) := by
  rw [exec_registerWrite v acc s h, onWrite, onBootRun_awake ha]

/-- A register write that passes the checks and that the register's rule takes. -/
theorem exec_registerWrite_taken {off : Nat} {s : State} {v : W64} {acc : Access} {d : Core} (h : off < 0x4000000)
    (hs : s.served off acc = true) (hd : s.core.writeReg off v acc = some d) :
    exec (.registerWrite off v acc) s = .next (s.withCore d) := by
  rw [exec_registerWrite v acc s h, onWrite_served v _ hs, hd, Option.getD_some]

/-- A register write that passes the checks and that the register's rule ignores. -/
theorem exec_registerWrite_ignored {off : Nat} {s : State} {v : W64} {acc : Access} (h : off < 0x4000000)
    (hs : s.served off acc = true) (hn : s.core.writeReg off v acc = none) :
    exec (.registerWrite off v acc) s = .next (s.withCore (s.core.logAccess 3 off acc.priv true v)) := by
  rw [exec_registerWrite v acc s h, onWrite_served v _ hs, hn, Option.getD_none]

/-! The registers on which the kinds of field are shown -/

theorem writeReg_faultStatus (c : Core) (v : W64) (acc : Access) :
    c.writeReg 0x2400008 v acc = some { c with watch := { c.watch with
      fault := writeFields (fields [(10, 8)]) (c.clearable 0x2400008 (fields [(2, 0)])) c.watch.fault v } } := by
  simp [Core.writeReg, Core.writeLog]

theorem writeReg_stall (c : Core) (v : W64) (acc : Access) :
    c.writeReg 0x2400010 v acc = some { c with watch := { c.watch with
      stall := writeFields 0 (c.clearable 0x2400010 (fields [(63, 0)])) c.watch.stall v } } := by
  simp [Core.writeReg, Core.writeLog]

theorem writeReg_queueStatus (c : Core) {n : Nat} (v : W64) (acc : Access) (hn : n < 64) :
    c.writeReg (0x100018 + 0x1000 * n) v acc = some (c.setQueue n { c.queue n with
      status := writeFields (fields [(6, 4)]) (c.clearable (0x100018 + 0x1000 * n) (fields [(2, 0)])) (c.queue n).status v }) := by
  have hpage : (0x100018 + 0x1000 * n - 0x100000) / 0x1000 = n := by omega
  have hword : (0x100018 + 0x1000 * n) % 0x1000 = 0x18 := by omega
  have hoff : 0x100000 + 0x1000 * n + 0x18 = 0x100018 + 0x1000 * n := by omega
  rw [Core.writeReg, if_neg (by omega), if_pos (by omega), hpage, hword]
  simp [Core.writeQueue, hoff]

/-! A bit of each kind after a write: cleared by a 1 unless its set takes effect now, taken from the value, or kept -/

section Kinds
variable {rw w1c : W64} {i : Nat} (c : Core) (off : Nat) (old v : W64)

theorem bitAt_writeFields_clears (hrw : bitAt rw i = false) (hw : bitAt w1c i = true) :
    bitAt (writeFields rw (c.clearable off w1c) old v) i = (bitAt old i && !(bitAt v i && !bitAt (c.marked off) i)) := by
  simp [bitAt_writeFields, bitAt_clearable, hrw, hw]

theorem bitAt_writeFields_takes (hrw : bitAt rw i = true) (hw : bitAt w1c i = false) :
    bitAt (writeFields rw (c.clearable off w1c) old v) i = bitAt v i := by
  simp [bitAt_writeFields, bitAt_clearable, hrw, hw]

theorem bitAt_writeFields_keeps (hrw : bitAt rw i = false) (hw : bitAt w1c i = false) :
    bitAt (writeFields rw (c.clearable off w1c) old v) i = bitAt old i := by
  simp [bitAt_writeFields, bitAt_clearable, hrw, hw]

end Kinds

theorem bitAt_fields_in {hi lo i : Nat} (h64 : i < 64) (hlo : lo ≤ i) (hhi : i ≤ hi) : bitAt (fields [(hi, lo)]) i = true := by
  have : i < lo + (hi - lo + 1) := by omega
  simp [bitAt_fields, *]

theorem bitAt_fields_out {hi lo i : Nat} (hr : lo ≤ hi) (h : i < lo ∨ hi < i) : bitAt (fields [(hi, lo)]) i = false := by
  have : lo ≤ i → ¬i < lo + (hi - lo + 1) := by omega
  simpa [bitAt_fields] using fun _ h => Nat.le_of_not_lt (this h)

/-! The obligation -/

/-- Writes of the window are decided by the checks of R397, in their order. -/
theorem registerWrite_checks (s : State) (off : Nat) (v : W64) (acc : Access) (ha : s.awake = true) (ho : off < 0x4000000) :
    (off % 8 = 0 ∧ absentReg s.core off = true → exec (.registerWrite off v acc) s = .next s)
    ∧ (¬(off % 8 = 0 ∧ absentReg s.core off = true) →
      ((acc.priv = false ∧ unprivOk off = false →
        exec (.registerWrite off v acc) s = .next (s.withCore (s.core.logAccess 4 off acc.priv true v)))
      ∧ ((acc.priv = true ∨ unprivOk off = true) →
        (readReg s.sys s.core off = none ∨ (s.sys.phase = .boot ∧ bootServed off = false) →
          exec (.registerWrite off v acc) s = .next (s.withCore (s.core.logAccess 1 off acc.priv true v)))
        ∧ (readReg s.sys s.core off ≠ none → ¬(s.sys.phase = .boot ∧ bootServed off = false) → acc.be ≠ 0xFF →
          exec (.registerWrite off v acc) s = .next (s.withCore (s.core.logAccess 2 off acc.priv true v)))
        ∧ (s.served off acc = true → s.core.writeReg off v acc = none →
          exec (.registerWrite off v acc) s = .next (s.withCore (s.core.logAccess 3 off acc.priv true v)))
        ∧ (s.served off acc = true → ∀ d, s.core.writeReg off v acc = some d →
          exec (.registerWrite off v acc) s = .next (s.withCore d))))) := by
  have he := exec_registerWrite_awake v acc ho ha
  refine ⟨fun habs => ?_, fun hpres => ⟨fun hp => ?_, fun hp => ⟨fun hm => ?_, fun hr hb hbe => ?_, ?_, ?_⟩⟩⟩
  · rw [he, regAccess_absent v _ habs]; rfl
  · rw [he, regAccess_isolation v _ hpres hp]
  · rw [he, regAccess_missing v _ hpres hp hm]
  · rw [he, regAccess_partial v _ hpres hp hr hb hbe]
  · exact exec_registerWrite_ignored ho
  · exact fun hs d => exec_registerWrite_taken ho hs

/-- Settles O24: the checks by the branches of R397, the fields by what a bit of each kind is after a write. -/
theorem registerWrites : Obligations.RegisterWrites := by
  unfold Obligations.RegisterWrites
  refine ⟨registerWrite_checks, fun s v acc i => ⟨fun hs => ?_, fun hs => ?_, fun n hn hs => ?_⟩⟩
  · refine ⟨_, exec_registerWrite_taken (by decide) hs (writeReg_faultStatus ..), fun h => ?_, fun h1 h2 => ?_, fun h => ?_,
      rfl, rfl, rfl⟩
    · exact bitAt_writeFields_clears _ _ _ _ (bitAt_fields_out (by omega) (by omega))
        (bitAt_fields_in (by omega) (by omega) (by omega))
    · exact bitAt_writeFields_takes _ _ _ _ (bitAt_fields_in (by omega) h1 (by omega)) (bitAt_fields_out (by omega) (by omega))
    · exact bitAt_writeFields_keeps _ _ _ _ (bitAt_fields_out (by omega) (by omega)) (bitAt_fields_out (by omega) (by omega))
  · refine ⟨_, exec_registerWrite_taken (by decide) hs (writeReg_stall ..), fun h => ?_, rfl, rfl, rfl⟩
    exact bitAt_writeFields_clears _ _ _ _ (bitAt_zero i) (bitAt_fields_in h (by omega) (by omega))
  · have hq : ∀ q, (s.core.setQueue n q).queue n = q := Core.queue_setQueue s.core n
    refine ⟨_, exec_registerWrite_taken (by omega) hs (writeReg_queueStatus s.core v acc hn), fun h => ?_, fun h1 h2 => ?_,
      fun h => ?_, fun m hm => Core.queue_setQueue_other _ _ _ _ hm, rfl, rfl⟩ <;>
      rw [State.withCore_core, hq]
    · exact bitAt_writeFields_clears _ _ _ _ (bitAt_fields_out (by omega) (by omega))
        (bitAt_fields_in (by omega) (by omega) (by omega))
    · exact bitAt_writeFields_takes _ _ _ _ (bitAt_fields_in (by omega) h1 (by omega)) (bitAt_fields_out (by omega) (by omega))
    · exact bitAt_writeFields_keeps _ _ _ _ (bitAt_fields_out (by omega) (by omega)) (bitAt_fields_out (by omega) (by omega))

end Sys2Proof.Machine
end

section
/-! PROOFS. Clock monitoring, reads of the window, and the watch for progress (O26). -/

namespace Sys2Proof.Machine

/-! Records: what one leaves of the registers that are watched -/

/-- A record changes the log and, where the log is full, SZ_FAULT_STATUS and what is kept of its sets. -/
theorem logRaw_changes_fault (c : Core) (cls : Nat) (w0 w1 w3 : W64) :
    ∃ e f l, c.logRaw cls w0 w1 w3 = { c with evt := e, watch := { c.watch with fault := f }, sets := l } := by
  unfold Core.logRaw
  split
  · exact ⟨_, c.watch.fault, c.sets, rfl⟩
  · exact ⟨c.evt, _, _, rfl⟩

theorem logStall_changes (c : Core) (n reason : Nat) :
    ∃ e f l, c.logStall n reason = { c with evt := e, watch := { c.watch with fault := f }, sets := l } :=
  logRaw_changes_fault ..

theorem logClock_changes (c : Core) (reason : Nat) :
    ∃ e f l, c.logClock reason = { c with evt := e, watch := { c.watch with fault := f }, sets := l } :=
  logRaw_changes_fault ..

/-! Drift (R54) -/

theorem fld_setFld_twos (w : W64) {lo len : Nat} (i : Int) (h : lo + len ≤ 64) :
    fld (setFld w lo len (twos len i)) lo len = twos len i := by
  rw [fld_setFld_self _ _ h, Nat.mod_eq_of_lt]
  have h0 : (0 : Int) < (2 ^ len : Nat) := by exact_mod_cast Nat.two_pow_pos len
  have := Int.emod_lt_of_pos i h0
  unfold twos
  omega

/-- SZ_CLK_DRIFT after a window with a difference (Table 02-2). -/
def driftAfter (old : W64) (diff : Int) : W64 :=
  let d := setFld old 32 32 (twos 32 diff)
  if (signed 32 (fld old 0 32)).natAbs < diff.natAbs then setFld d 0 32 (twos 32 diff) else d

theorem driftAfter_last (old : W64) (diff : Int) : fld (driftAfter old diff) 32 32 = twos 32 diff := by
  unfold driftAfter
  split
  · rw [fld_setFld_apart _ _ (by omega), fld_setFld_twos _ _ (by omega)]
  · rw [fld_setFld_twos _ _ (by omega)]

theorem driftAfter_worst (old : W64) (diff : Int) : fld (driftAfter old diff) 0 32
    = if (signed 32 (fld old 0 32)).natAbs < diff.natAbs then twos 32 diff else fld old 0 32 := by
  unfold driftAfter
  split
  · rw [fld_setFld_twos _ _ (by omega)]
  · rw [fld_setFld_apart _ _ (by omega)]

/-- A window within the limit ends, and the next begins (R54). -/
def Core.windowEnd (c : Core) : Core :=
  { c with clk := { c.clk with drift := driftAfter c.clk.drift c.driftDiff, status := setBit c.clk.status 0 true, winAt := c.dclk,
                               setAt := some c.pclk, before := c.clk.drift } }

theorem driftWindow_within {c : Core} (h : ¬fld c.clk.ctrl 16 16 < c.driftDiff.natAbs) : c.driftWindow = c.windowEnd := by
  unfold Core.driftWindow
  exact if_neg h

/-- SZ_CLK_STATUS after a window beyond the limit (Table 02-1): measured, drift_over set and counted. -/
def overStatus (old : W64) : W64 := setBit (satAdd (setBit old 0 true) 8 8 1) 2 true

theorem overStatus_measured (old : W64) : bitAt (overStatus old) 0 = true := by
  rw [overStatus, bitAt_setBit_other _ _ (by omega), bitAt_satAdd_outside _ _ (by omega), bitAt_setBit_self _ _ (by omega)]

theorem overStatus_flag (old : W64) : bitAt (overStatus old) 2 = true := bitAt_setBit_self _ _ (by omega)

theorem overStatus_count (old : W64) : fld (overStatus old) 8 8 = min (fld old 8 8 + 1) 255 := by
  have hkept : fld (setBit old 0 true) 8 8 = fld old 8 8 := fld_setBit_apart _ _ (by omega)
  calc fld (overStatus old) 8 8
      = fld (satAdd (setBit old 0 true) 8 8 1) 8 8 := fld_setBit_apart _ _ (by omega)
    _ = min (fld (setBit old 0 true) 8 8 + 1) (2 ^ 8 - 1) := fld_satAdd_self _ _ (by omega)
    _ = min (fld old 8 8 + 1) 255 := congrArg (fun x => min (x + 1) 255) hkept

theorem driftWindow_beyond {c : Core} (h : fld c.clk.ctrl 16 16 < c.driftDiff.natAbs) :
    ∃ e f l, c.driftWindow = { c.windowEnd with
      clk := { c.windowEnd.clk with status := overStatus c.clk.status },
      evt := e, watch := { c.watch with fault := f }, sets := l } := by
  obtain ⟨e, f, l, hlog⟩ := logClock_changes (Core.setClk { c.windowEnd with
    clk := { c.windowEnd.clk with status := satAdd (setBit c.clk.status 0 true) 8 8 1 } } 2) 1
  exact ⟨e, f, l, (if_pos h).trans hlog⟩

theorem refAbsent_changes (c : Core) : ∃ e f l, c.refAbsent = { c with
    clk := { c.clk with status := setBit c.clk.status 1 true, winAt := c.dclk },
    evt := e, watch := { c.watch with fault := f }, sets := l } := by
  obtain ⟨e, f, l, hlog⟩ := logClock_changes { c.setClk 1 with clk := { (c.setClk 1).clk with winAt := c.dclk } } 2
  exact ⟨e, f, l, hlog⟩

/-! Reads (R20, R22, R397 to R400) -/

theorem readAccess_served {s : State} {off : Nat} {acc : Access} {w : W64} (h : s.served off acc = true)
    (hr : readReg s.sys s.core off = some w) :
    readAccess s.sys s.core off acc.priv
      = if off = 0x10008 then s.core.readDrift
        else if off = 0x20008 then (s.core.nonceRead s.core.hedge.was w, s.core)
        else if off = 0x800000 then (s.core.nonceRead s.core.sync.win.was w, s.core)
        else (w, s.core) := by
  simp only [State.served, State.running, Bool.and_eq_true, Bool.or_eq_true, Bool.not_eq_true', beq_iff_eq] at h
  obtain ⟨⟨⟨⟨⟨hphase, -⟩, habs⟩, hperm⟩, -⟩, -⟩ := h
  have hboot : ¬(s.sys.phase == .boot && !bootServed off) = true := by
    rcases hphase with hphase | hphase <;> simp [hphase]
  rw [readAccess, if_neg (fun x => Bool.false_ne_true (habs ▸ x.2)), if_neg (not_isolated hperm), hr]
  exact if_neg hboot

theorem readAccess_isolation {y : Sys} {c : Core} {off : Nat} {priv : Bool} (h : ¬(off % 8 = 0 ∧ absentReg c off = true))
    (hp : priv = false) (hu : unprivOk off = false) : readAccess y c off priv = (0, c.logAccess 4 off false false 0) := by
  subst hp
  rw [readAccess, if_neg h, if_pos (by rw [hu]; rfl)]

/-- A read of an awake block leaves what the access leaves, and waits for its response. -/
theorem exec_worstDiffRead {s : State} {off tag : Nat} {priv : Bool} {w : W64} {d : Core} (ha : s.awake = true)
    (hr : readAccess s.sys s.core off priv = (w, d)) :
    exec (.worstDiffRead off tag priv) s
      = .next (s.withCore { d with df := { d.df with reads := d.df.reads ++ [{ tag := tag, data := w, at_ := s.core.now }] } }) := by
  change execWorstDiffRead s off tag priv = _
  rw [execWorstDiffRead, onBootRun_awake ha, hr]

theorem readReg_of_served {s : State} {off : Nat} {acc : Access} (h : s.served off acc = true) :
    ∃ w, readReg s.sys s.core off = some w := by
  simp only [State.served, Bool.and_eq_true] at h
  exact Option.isSome_iff_exists.mp h.1.2

theorem readDrift_cleared {c : Core} (h : c.clk.setAt ≠ some c.pclk) :
    c.readDrift = (c.clk.drift, { c with clk := { c.clk with drift := setFld c.clk.drift 0 32 0 } }) := if_neg h

theorem readDrift_kept {c : Core} (h : c.clk.setAt = some c.pclk) :
    c.readDrift = (c.clk.before, { c with clk := { c.clk with drift := setFld c.clk.drift 0 32 (fld c.clk.drift 32 32) } }) :=
  if_pos h

theorem answerRead_due {c : Core} {r : RegRead} {l : List RegRead} (hl : c.df.reads = r :: l) (h : r.at_ / 4 + 6 ≤ c.pclk) :
    c.answerRead = { c with df := { c.df with reads := l, rsp := some (r.tag, r.data) } } := by
  rw [Core.answerRead, hl]
  exact if_pos h

theorem answerRead_early {c : Core} {r : RegRead} {l : List RegRead} (hl : c.df.reads = r :: l) (h : c.pclk < r.at_ / 4 + 6) :
    c.answerRead = { c with df := { c.df with rsp := none } } := by
  rw [Core.answerRead, hl]
  exact if_neg (by omega)

/-! The watch for progress (R329 to R331) -/

/-- stall_run of queue n at the end of this period (R331). -/
def Core.stallPeriods (c : Core) (n : Nat) : Nat :=
  if c.queueHasWork n && !(c.ctx n).progressed then min ((c.ctx n).stallRun + 1) 255 else 0

/-- The episode of queue n has been reported once this period has ended. -/
def Core.stallKnown (c : Core) (n : Nat) : Bool :=
  c.stallPeriods n != 0 && ((c.ctx n).stallTold || decide (fld c.watch.ctrl 16 8 ≤ c.stallPeriods n))

/-- Context n after the end of a period. -/
def Core.watchedCtx (c : Core) (n : Nat) : Ctx :=
  { c.ctx n with hasWork := c.queueHasWork n, progressed := false, stallRun := c.stallPeriods n, stallTold := c.stallKnown n }

/-- Queue n is reported at the end of this period. -/
def Core.stallNews (c : Core) (n : Nat) : Bool := c.stallKnown n && !(c.ctx n).stallTold

/-- What the end of a period for one queue can do: the context takes its new progress state, a queue that is reported sets its bit of
SZ_STALL and counts in SZ_WATCH_CTRL above the limits, and a record may be written. -/
theorem watchQueue_changes (c : Core) (n : Nat) : ∃ e f k l, c.watchQueue n
      = { c.setCtx n (c.watchedCtx n) with
          evt := e, sets := l,
          watch := { c.watch with fault := f, ctrl := k,
                                  stall := if c.stallNews n then setBit c.watch.stall n true else c.watch.stall } }
    ∧ fld k 16 8 = fld c.watch.ctrl 16 8 := by
  by_cases h : c.stallNews n = true
  · obtain ⟨e, f, l, hlog⟩ := logStall_changes (Core.mark { c.setCtx n (c.watchedCtx n) with watch := { c.watch with
      stall := setBit c.watch.stall n true, ctrl := satAdd c.watch.ctrl 48 16 1 } } 0x2400010 n) n 1
    refine ⟨e, f, satAdd c.watch.ctrl 48 16 1, l, ?_, fld_satAdd_apart _ _ (by omega)⟩
    rw [if_pos h]
    exact (if_pos h).trans hlog
  · rw [if_neg h]
    by_cases h2 : ((c.ctx n).stallTold && c.stallPeriods n == 0) = true
    · obtain ⟨e, f, l, hlog⟩ := logStall_changes (c.setCtx n (c.watchedCtx n)) n 2
      exact ⟨e, f, c.watch.ctrl, l, ((if_neg h).trans (if_pos h2)).trans hlog, rfl⟩
    · exact ⟨c.evt, c.watch.fault, c.watch.ctrl, c.sets, (if_neg h).trans (if_neg h2), rfl⟩

/-- Two cores agree on all that decides whether a queue has work, and on the limit of stall_run. -/
structure SameWork (c d : Core) : Prop where
  queues : d.queues = c.queues
  graph  : d.graph = c.graph
  mem    : d.mem = c.mem
  stash  : d.stash = c.stash
  limit  : fld d.watch.ctrl 16 8 = fld c.watch.ctrl 16 8

theorem SameWork.refl (c : Core) : SameWork c c := ⟨rfl, rfl, rfl, rfl, rfl⟩

theorem SameWork.trans {c d e : Core} (h : SameWork c d) (k : SameWork d e) : SameWork c e :=
  ⟨k.queues.trans h.queues, k.graph.trans h.graph, k.mem.trans h.mem, k.stash.trans h.stash, k.limit.trans h.limit⟩

theorem SameWork.queueHasWork {c d : Core} {n : Nat} (h : SameWork c d) (hx : d.ctx n = c.ctx n) :
    d.queueHasWork n = c.queueHasWork n := by
  have hq : d.queue n = c.queue n := by rw [Core.queue, h.queues, ← Core.queue]
  have hr : d.noRuns n = c.noRuns n := by rw [Core.noRuns, Core.runsOf, h.graph, hq, ← Core.runsOf, ← Core.noRuns]
  have hs : d.stashHolds n = c.stashHolds n := by rw [Core.stashHolds, h.stash, ← Core.stashHolds]
  simp only [Core.queueHasWork, hq, hx, hr, hs]

theorem SameWork.stallPeriods {c d : Core} {n : Nat} (h : SameWork c d) (hx : d.ctx n = c.ctx n) :
    d.stallPeriods n = c.stallPeriods n := by
  simp only [Core.stallPeriods, h.queueHasWork hx, hx]

theorem SameWork.stallKnown {c d : Core} {n : Nat} (h : SameWork c d) (hx : d.ctx n = c.ctx n) :
    d.stallKnown n = c.stallKnown n := by
  simp only [Core.stallKnown, h.stallPeriods hx, hx, h.limit]

theorem SameWork.watchedCtx {c d : Core} {n : Nat} (h : SameWork c d) (hx : d.ctx n = c.ctx n) :
    d.watchedCtx n = c.watchedCtx n := by
  simp only [Core.watchedCtx, h.queueHasWork hx, h.stallPeriods hx, h.stallKnown hx, hx]

theorem SameWork.stallNews {c d : Core} {n : Nat} (h : SameWork c d) (hx : d.ctx n = c.ctx n) :
    d.stallNews n = c.stallNews n := by
  simp only [Core.stallNews, h.stallKnown hx, hx]

theorem watchQueue_sameWork (c : Core) (n : Nat) : SameWork c (c.watchQueue n) := by
  obtain ⟨e, f, k, l, h, hk⟩ := watchQueue_changes c n
  rw [h]
  exact ⟨rfl, rfl, rfl, rfl, hk⟩

theorem ctx_watchQueue_self (c : Core) (n : Nat) : (c.watchQueue n).ctx n = c.watchedCtx n := by
  obtain ⟨e, f, k, l, h, -⟩ := watchQueue_changes c n
  rw [h]
  exact Core.ctx_setCtx c n _

theorem ctx_watchQueue_other (c : Core) {n m : Nat} (hm : m ≠ n) : (c.watchQueue n).ctx m = c.ctx m := by
  obtain ⟨e, f, k, l, h, -⟩ := watchQueue_changes c n
  rw [h]
  exact Core.ctx_setCtx_other c n m _ hm

theorem stall_watchQueue_self (c : Core) {n : Nat} (hn : n < 64) :
    bitAt (c.watchQueue n).watch.stall n = (bitAt c.watch.stall n || c.stallNews n) := by
  obtain ⟨e, f, k, l, h, -⟩ := watchQueue_changes c n
  rw [h]
  cases hw : c.stallNews n
  · simp
  · simp [bitAt_setBit_self _ _ hn]

theorem stall_watchQueue_other (c : Core) {n m : Nat} (hm : m ≠ n) :
    bitAt (c.watchQueue n).watch.stall m = bitAt c.watch.stall m := by
  obtain ⟨e, f, k, l, h, -⟩ := watchQueue_changes c n
  rw [h]
  cases c.stallNews n
  · simp
  · simp [bitAt_setBit_other _ _ hm]

/-- The end of a period for a list of queues. -/
def Core.watchQueues (c : Core) (l : List Nat) : Core := l.foldl (fun d n => d.watchQueue n) c

theorem watchQueues_sameWork (c : Core) (l : List Nat) : SameWork c (c.watchQueues l) := by
  induction l generalizing c with
  | nil => exact SameWork.refl c
  | cons n r ih => exact (watchQueue_sameWork c n).trans (ih _)

theorem watchQueues_other (c : Core) {l : List Nat} {n : Nat} (h : n ∉ l) :
    (c.watchQueues l).ctx n = c.ctx n ∧ bitAt (c.watchQueues l).watch.stall n = bitAt c.watch.stall n := by
  induction l generalizing c with
  | nil => exact ⟨rfl, rfl⟩
  | cons m r ih =>
    obtain ⟨hm, hr⟩ := List.ne_and_not_mem_of_not_mem_cons h
    obtain ⟨hx, hs⟩ := ih (c.watchQueue m) hr
    exact ⟨hx.trans (ctx_watchQueue_other c hm), hs.trans (stall_watchQueue_other c hm)⟩

/-- Each queue of the list is looked at once, and sees what the core held before any of them. -/
theorem watchQueues_mem (c : Core) {l : List Nat} {n : Nat} (hl : l.Nodup) (h : n ∈ l) (hn : n < 64) :
    (c.watchQueues l).ctx n = c.watchedCtx n
      ∧ bitAt (c.watchQueues l).watch.stall n = (bitAt c.watch.stall n || c.stallNews n) := by
  induction l generalizing c with
  | nil => exact absurd h List.not_mem_nil
  | cons m r ih =>
    obtain ⟨hmr, hr⟩ := List.nodup_cons.mp hl
    by_cases hm : n = m
    · subst hm
      obtain ⟨hx, hs⟩ := watchQueues_other (c.watchQueue n) hmr
      exact ⟨hx.trans (ctx_watchQueue_self c n), hs.trans (stall_watchQueue_self c hn)⟩
    · obtain ⟨hx, hs⟩ := ih (c.watchQueue m) hr ((List.mem_cons.mp h).resolve_left hm)
      have hsame := watchQueue_sameWork c m
      have hctx := ctx_watchQueue_other c hm
      exact ⟨hx.trans (hsame.watchedCtx hctx), hs.trans (by rw [stall_watchQueue_other c hm, hsame.stallNews hctx])⟩

/-- The end of the watch period replaced. -/
def Core.setEndAt (c : Core) (t : Nat) : Core := { c with watch := { c.watch with endAt := t } }

theorem setEndAt_sameWork (c : Core) (t : Nat) : SameWork c (c.setEndAt t) := ⟨rfl, rfl, rfl, rfl, rfl⟩

theorem ctx_setEndAt (c : Core) (t n : Nat) : (c.setEndAt t).ctx n = c.ctx n := rfl

theorem stall_setEndAt (c : Core) (t : Nat) : (c.setEndAt t).watch.stall = c.watch.stall := rfl

theorem endAt_setEndAt (c : Core) (t : Nat) : (c.setEndAt t).watch.endAt = t := rfl

theorem watchTime_setEndAt (c : Core) (t : Nat) : (c.setEndAt t).watchTime = c.watchTime := rfl

/-- The core after the end of a watch period: each of the 64 queues is looked at, and the next period follows without gap. -/
def Core.periodEnd (c : Core) : Core :=
  (c.watchQueues (List.range 64)).setEndAt (c.watch.endAt + (c.watchQueues (List.range 64)).watchTime)

theorem exec_watchPeriodEnd {s : State} (hr : s.running = true) (h : s.core.watch.endAt ≤ s.core.now) :
    exec .watchPeriodEnd s = .next (s.withCore s.core.periodEnd) := by
  change execWatchPeriodEnd s = _
  rw [execWatchPeriodEnd, onRun_running hr, if_neg (Nat.not_lt.mpr h), Core.periodEnd, Core.watchQueues, Core.setEndAt]

theorem endAt_periodEnd (c : Core) : c.periodEnd.watch.endAt = c.watch.endAt + c.periodEnd.watchTime := by
  rw [Core.periodEnd, endAt_setEndAt, watchTime_setEndAt]

theorem periodEnd_sameWork (c : Core) : SameWork c c.periodEnd :=
  (watchQueues_sameWork c _).trans (setEndAt_sameWork _ _)

theorem periodEnd_queue (c : Core) {n : Nat} (hn : n < 64) : c.periodEnd.ctx n = c.watchedCtx n
    ∧ bitAt c.periodEnd.watch.stall n = (bitAt c.watch.stall n || c.stallNews n) := by
  rw [Core.periodEnd, ctx_setEndAt, stall_setEndAt]
  exact watchQueues_mem c List.nodup_range (List.mem_range.mpr hn) hn

/-! The control register of the watch (R340) -/

/-- SZ_WATCH_CTRL after a write of a value: a field written zero stays as it was. -/
def watchCtrlAfter (old v : W64) : W64 :=
  writeFields (fields ([(24, 24)] ++ (if fld v 16 8 = 0 then [] else [(23, 16)]) ++ (if fld v 0 16 = 0 then [] else [(15, 0)])))
    0 old v

theorem bitAt_watchCtrlAfter (old v : W64) (i : Nat) : bitAt (watchCtrlAfter old v) i
    = if i = 24 ∨ (16 ≤ i ∧ i < 24 ∧ fld v 16 8 ≠ 0) ∨ (i < 16 ∧ fld v 0 16 ≠ 0) then bitAt v i else bitAt old i := by
  rw [watchCtrlAfter, bitAt_writeFields, bitAt_zero, bitAt_fields, Bool.and_false, Bool.not_false, Bool.and_true]
  refine ite_congr (propext ?_) (fun _ => rfl) (fun _ => rfl)
  by_cases hper : fld v 16 8 = 0 <;> by_cases hms : fld v 0 16 = 0 <;>
    simp only [hper, hms, if_true, if_false, List.append_nil, List.cons_append, List.nil_append, List.any_cons, List.any_nil,
      Bool.and_eq_true, Bool.or_eq_true, Bool.or_false, decide_eq_true_eq, ne_eq, not_true_eq_false, not_false_eq_true,
      and_true, and_false, or_false, false_or] <;>
    omega

theorem fld_watchCtrlAfter_periods (old v : W64) :
    fld (watchCtrlAfter old v) 16 8 = if fld v 16 8 = 0 then fld old 16 8 else fld v 16 8 := by
  split
  · exact fld_congr fun i _ _ => by rw [bitAt_watchCtrlAfter, if_neg (by omega)]
  · exact fld_congr fun i _ _ => by rw [bitAt_watchCtrlAfter, if_pos (by omega)]

theorem fld_watchCtrlAfter_length (old v : W64) :
    fld (watchCtrlAfter old v) 0 16 = if fld v 0 16 = 0 then fld old 0 16 else fld v 0 16 := by
  split
  · exact fld_congr fun i _ _ => by rw [bitAt_watchCtrlAfter, if_neg (by omega)]
  · exact fld_congr fun i _ _ => by rw [bitAt_watchCtrlAfter, if_pos (by omega)]

theorem fld_watchCtrlAfter_count (old v : W64) : fld (watchCtrlAfter old v) 48 16 = fld old 48 16 :=
  fld_congr fun i _ _ => by rw [bitAt_watchCtrlAfter, if_neg (by omega)]

theorem watchWrite_eq (c : Core) (off : Nat) (v : W64) (acc : Access) : c.watchWrite off v acc
    = if fld v 0 16 = 0 ∨ fld v 16 8 = 0 then
        ({ c with watch := { c.watch with ctrl := watchCtrlAfter c.watch.ctrl v } } : Core).logAccess 3 off acc.priv true v
      else { c with watch := { c.watch with ctrl := watchCtrlAfter c.watch.ctrl v } } := by
  simp only [Core.watchWrite, Bool.or_eq_true, beq_iff_eq]
  rfl

theorem exec_watchCtrl {s : State} {acc : Access} (v : W64) (hs : s.served 0x2400018 acc = true) :
    exec (.watchCtrl v acc) s = .next (s.withCore (s.core.watchWrite 0x2400018 v acc)) :=
  onWrite_served v (fun _ c => some (c.watchWrite 0x2400018 v acc)) hs

/-! The obligation -/

theorem exec_driftWindow {s : State} (m : Nat) (ha : s.awake = true) : exec (.driftWindow m) s
    = .next (s.withCore (if m = s.core.dclk - s.core.clk.winAt then s.core.driftWindow else s.core)) := by
  change execDriftWindow m s = _
  rw [execDriftWindow, onBootRun_awake ha]

theorem exec_refAbsent {s : State} (ha : s.awake = true) : exec .refAbsent s
    = .next (s.withCore (if s.core.clk.winAt + 2 ^ 20 ≤ s.core.dclk then s.core.refAbsent else s.core)) := by
  change execRefAbsent s = _
  rw [execRefAbsent, onBootRun_awake ha]

theorem driftWindow_effect (s : State) (ha : s.awake = true) :
    let diff : Int := ((s.core.dclk - s.core.clk.winAt : Nat) : Int) - 16777216
    let beyond := fld s.core.clk.ctrl 16 16 < diff.natAbs
    ∃ t, exec (.driftWindow (s.core.dclk - s.core.clk.winAt)) s = .next t
      ∧ bitAt t.core.clk.status 0 = true ∧ t.core.clk.winAt = s.core.dclk
      ∧ fld t.core.clk.drift 32 32 = twos 32 diff
      ∧ fld t.core.clk.drift 0 32 = (if (signed 32 (fld s.core.clk.drift 0 32)).natAbs < diff.natAbs
          then twos 32 diff else fld s.core.clk.drift 0 32)
      ∧ (beyond → bitAt t.core.clk.status 2 = true ∧ fld t.core.clk.status 8 8 = min (fld s.core.clk.status 8 8 + 1) 255)
      ∧ (¬beyond → bitAt t.core.clk.status 2 = bitAt s.core.clk.status 2 ∧ t.core.evt = s.core.evt)
      ∧ t.core.queues = s.core.queues ∧ t.core.mem = s.core.mem := by
  intro diff beyond
  have hexec := exec_driftWindow (s.core.dclk - s.core.clk.winAt) ha
  rw [if_pos rfl] at hexec
  by_cases hb : beyond
  · obtain ⟨e, f, l, h⟩ := driftWindow_beyond hb
    refine ⟨_, hexec, ?_⟩
    rw [h]
    exact ⟨overStatus_measured _, rfl, driftAfter_last _ _, driftAfter_worst _ _, fun _ => ⟨overStatus_flag _, overStatus_count _⟩,
      fun hn => absurd hb hn, rfl, rfl⟩
  · refine ⟨_, hexec, ?_⟩
    rw [driftWindow_within hb]
    exact ⟨bitAt_setBit_self _ _ (by omega), rfl, driftAfter_last _ _, driftAfter_worst _ _, fun h => absurd h hb,
      fun _ => ⟨bitAt_setBit_other _ _ (by omega), rfl⟩, rfl, rfl⟩

theorem refAbsent_effect (s : State) (ha : s.awake = true) (h : s.core.clk.winAt + 2 ^ 20 ≤ s.core.dclk) :
    ∃ t, exec .refAbsent s = .next t ∧ bitAt t.core.clk.status 1 = true ∧ t.core.clk.drift = s.core.clk.drift
      ∧ t.core.clk.winAt = s.core.dclk ∧ t.core.queues = s.core.queues ∧ t.core.mem = s.core.mem := by
  obtain ⟨e, f, l, hc⟩ := refAbsent_changes s.core
  have hexec := exec_refAbsent ha
  rw [if_pos h] at hexec
  refine ⟨_, hexec, ?_⟩
  rw [hc]
  exact ⟨bitAt_setBit_self _ _ (by omega), rfl, rfl, rfl, rfl⟩

theorem watchPeriodEnd_effect (s : State) (hr : s.running = true) (h : s.core.watch.endAt ≤ s.core.now) :
    ∃ t, exec .watchPeriodEnd s = .next t ∧ t.core.watch.endAt = s.core.watch.endAt + t.core.watchTime
      ∧ (∀ n, n < 64 →
          (t.core.ctx n).hasWork = s.core.queueHasWork n ∧ (t.core.ctx n).progressed = false
          ∧ (t.core.ctx n).stallRun = (if s.core.queueHasWork n && !(s.core.ctx n).progressed
              then min ((s.core.ctx n).stallRun + 1) 255 else 0)
          ∧ ((s.core.ctx n).stallTold = false → 0 < (t.core.ctx n).stallRun →
              fld s.core.watch.ctrl 16 8 ≤ (t.core.ctx n).stallRun →
              bitAt t.core.watch.stall n = true ∧ (t.core.ctx n).stallTold = true)
          ∧ (bitAt s.core.watch.stall n = true → bitAt t.core.watch.stall n = true))
      ∧ t.core.queues = s.core.queues ∧ t.core.graph = s.core.graph ∧ t.core.mem = s.core.mem := by
  have hsame := periodEnd_sameWork s.core
  refine ⟨_, exec_watchPeriodEnd hr h, endAt_periodEnd _, fun n hn => ?_, hsame.queues, hsame.graph, hsame.mem⟩
  obtain ⟨hx, hst⟩ := periodEnd_queue s.core hn
  rw [State.withCore_core, hx, hst]
  refine ⟨rfl, rfl, rfl, fun htold hpos hlim => ?_, fun h => by rw [h, Bool.true_or]⟩
  have hknown : s.core.stallKnown n = true := by
    have hne : s.core.stallPeriods n ≠ 0 := Nat.ne_of_gt hpos
    have hge : fld s.core.watch.ctrl 16 8 ≤ s.core.stallPeriods n := hlim
    simp [Core.stallKnown, hne, hge]
  exact ⟨by simp [Core.stallNews, hknown, htold], hknown⟩

/-- Settles O26: each row by what its operation leaves, the watch by induction over the queues that a period end looks at. -/
theorem driftAndWatch : Obligations.DriftAndWatch := by
  unfold Obligations.DriftAndWatch
  refine ⟨fun s ha => ⟨driftWindow_effect s ha, fun m hm => ?_, refAbsent_effect s ha, fun h => ?_⟩,
    fun s tag priv => ⟨fun hs => ?_, fun off w hs hr h1 h2 h3 => ?_, fun off ha habs hp hu => ?_⟩, fun c r l hl => ⟨answerRead_due hl, answerRead_early hl⟩,
    watchPeriodEnd_effect, fun s v acc hs => ?_⟩
  · rw [exec_driftWindow m ha, if_neg hm]; rfl
  · rw [exec_refAbsent ha, if_neg (Nat.not_le.mpr h)]; rfl
  · have ha := State.served_awake hs
    obtain ⟨w, hw⟩ := readReg_of_served hs
    have hread : readAccess s.sys s.core 0x10008 priv = s.core.readDrift := (readAccess_served hs hw).trans (if_pos rfl)
    refine ⟨fun hset => exec_worstDiffRead ha (hread.trans (readDrift_cleared hset)),
      fun hset => ⟨_, exec_worstDiffRead ha (hread.trans (readDrift_kept hset)), ?_, fld_setFld_apart _ _ (by omega)⟩⟩
    rw [fld_setFld_self _ _ (by omega), Nat.mod_eq_of_lt (fld_lt _ _ _)]
  · refine exec_worstDiffRead (State.served_awake hs) ?_
    rw [readAccess_served hs hr, if_neg h1, if_neg h2, if_neg h3]
  · exact exec_worstDiffRead ha (readAccess_isolation habs hp hu)
  · refine ⟨watchCtrlAfter s.core.watch.ctrl v, ?_, ?_, fld_watchCtrlAfter_periods _ _, fld_watchCtrlAfter_length _ _,
      fld_watchCtrlAfter_count _ _⟩
    · rw [exec_watchCtrl v hs, watchWrite_eq]
    · rw [bitAt_watchCtrlAfter, if_pos (.inl rfl)]

end Sys2Proof.Machine
end

section
/-! PROOFS. The reset sequence (O9): each command of Table 02-5 once its state's time has passed (R53, R56, R58), and
Hedge's way on from MEM_INIT (Table 15-14). -/

namespace Sys2Proof.Machine

section Commands
variable {s : State}

theorem exec_porstNDeassert (hp : s.sys.phase = .hold) (hr : s.sys.porst = true) :
    exec .porstNDeassert s = .next { s with sys := { s.sys with porst := false, phase := .clkStart, since := s.core.now } } :=
  if_pos ⟨hp, hr⟩

theorem exec_lockRegained (hp : s.sys.phase = .hold) (hl : s.sys.holdLock = true) (ht : s.sys.since + 1000 * 48 ≤ s.core.now) :
    exec .lockRegained s = .next { s with sys := { s.sys with holdLock := false, phase := .drain, since := s.core.now } } :=
  if_pos ⟨hp, hl, ht⟩

theorem exec_clkStart (hp : s.sys.phase = .clkStart) (ht : s.sys.since + 16 * 48 ≤ s.core.now) :
    exec .clkStart s = .next { s with sys := { s.sys with phase := .keyRead, since := s.core.now } } :=
  if_pos ⟨hp, ht⟩

theorem exec_drainEnd (hp : s.sys.phase = .drain) (ht : s.sys.drainOwed = [] ∨ s.sys.since + 65536 * 4 ≤ s.core.now) :
    exec .drainEnd s = .next { s with sys := { s.sys with
      phase := .keyRead, since := s.core.now, drainOwed := [], drainLate := s.sys.drainLate ++ s.sys.drainOwed } } :=
  if_pos ⟨hp, ht⟩

theorem exec_memInit (hp : s.sys.phase = .memInit) (ht : s.sys.since + 65536 * 3 ≤ s.core.now) :
    exec .memInit s = .next { s with
      core := { s.core with clk := { s.core.clk with winAt := s.core.dclk } },
      sys := { s.sys with phase := .boot, since := s.core.now,
                          hg := if s.sys.hg = .dead ∨ s.sys.bootFails ≥ 8 then .dead else .selftest } } :=
  if_pos ⟨hp, ht⟩

end Commands

/-- Settles O9: each state's end by the guard of its command, and MEM_INIT by whether Hedge may still test itself. -/
theorem resetSequenceAdvances : Obligations.ResetSequenceAdvances := by
  unfold Obligations.ResetSequenceAdvances
  refine fun s => ⟨exec_porstNDeassert, exec_lockRegained, exec_clkStart, fun hp ht => ?_, fun hp ht hlive hfails => ?_,
    fun hp ht hdead => ?_⟩
  · exact ⟨_, exec_drainEnd hp ht, rfl, rfl, rfl, rfl⟩
  · have hgo : ¬(s.sys.hg = .dead ∨ s.sys.bootFails ≥ 8) := fun h => h.elim hlive (Nat.not_le.mpr hfails)
    rw [exec_memInit hp ht, if_neg hgo]
  · rw [exec_memInit hp ht, if_pos hdead]

end Sys2Proof.Machine
end

section
/-! PROOFS. The entry to a whole-device reset (O11): what the log, the stash and the link ports keep through it. -/

namespace Sys2Proof.Machine

/-! Memory at reset entry (R338) -/

theorem maybeWritten_changes (c : Core) (r : ReelReq) :
    ∃ n m g h, c.maybeWritten r = { c with free := n, mem := m, graph := g, chans := h } := by
  unfold Core.maybeWritten
  split
  · dsimp only
    split
    · exact ⟨_, _, _, _, rfl⟩
    · exact ⟨_, _, _, _, rfl⟩
  · exact ⟨_, _, _, _, rfl⟩

theorem foldl_maybeWritten_changes (c : Core) (l : List ReelReq) :
    ∃ n m g h, l.foldl Core.maybeWritten c = { c with free := n, mem := m, graph := g, chans := h } := by
  induction l generalizing c with
  | nil => exact ⟨_, _, _, _, rfl⟩
  | cons r rs ih =>
    obtain ⟨n, m, g, h, hr⟩ := maybeWritten_changes c r
    rw [List.foldl_cons, hr]
    exact ih _

/-- What reset entry does to memory changes memory, the free values, and what watches it. -/
theorem memoryAtReset_changes (c : Core) :
    ∃ n m g h, c.memoryAtReset = { c with free := n, mem := m, graph := g, chans := h } :=
  foldl_maybeWritten_changes (c.freeBytes c.lostBytes) c.reel.out

/-- The core that whole-device reset entry leaves (R55). -/
def Core.resetCore (c : Core) (cause count : Nat) : Core := (c.logReset cause count).memoryAtReset.resetKept

theorem logReset_changes (c : Core) (cause count : Nat) :
    ∃ e w l, c.logReset cause count = { c with evt := e, watch := w, sets := l } := log_changes ..

/-- Before units are cleared, the RESET record and what memory loses leave the stash and the link ports as they are, and nothing is
logged after the record. -/
theorem logReset_memoryAtReset_keeps (c : Core) (cause count : Nat) :
    (c.logReset cause count).memoryAtReset.evt = (c.logReset cause count).evt
    ∧ (c.logReset cause count).memoryAtReset.stash = c.stash ∧ (c.logReset cause count).memoryAtReset.fab = c.fab := by
  obtain ⟨n, m, g, h, hmem⟩ := memoryAtReset_changes (c.logReset cause count)
  obtain ⟨e, w, l, hlog⟩ := logReset_changes c cause count
  rw [hmem, hlog]
  exact ⟨rfl, rfl, rfl⟩

theorem evt_resetKept (c : Core) : c.resetKept.evt = c.evt := rfl

theorem stash_resetKept (c : Core) :
    c.resetKept.stash.ents = c.stash.ents ∧ c.resetKept.stash.wr = c.stash.wr ∧ c.resetKept.stash.rd = c.stash.rd :=
  ⟨rfl, rfl, rfl⟩

theorem evt_resetCore (c : Core) (cause count : Nat) : (c.resetCore cause count).evt = (c.logReset cause count).evt := by
  obtain ⟨hevt, -, -⟩ := logReset_memoryAtReset_keeps c cause count
  rw [Core.resetCore, evt_resetKept, hevt]

theorem stash_resetCore (c : Core) (cause count : Nat) : (c.resetCore cause count).stash.ents = c.stash.ents
    ∧ (c.resetCore cause count).stash.wr = c.stash.wr ∧ (c.resetCore cause count).stash.rd = c.stash.rd := by
  obtain ⟨-, hstash, -⟩ := logReset_memoryAtReset_keeps c cause count
  rw [← hstash]
  exact stash_resetKept _

/-- A link port after reset: parked, out of service as before (Table 13-9). -/
def Link.parkedAs (x : Link) : Link := { Link.reset with oos := x.oos }

theorem aget_map_values {α β : Type} (f : α → β) (m : AMap α) (n : Nat) :
    aget (m.map fun p : Nat × α => (p.1, f p.2)) n = (aget m n).map f := by
  induction m with
  | nil => rfl
  | cons x r ih =>
    obtain ⟨k, v⟩ := x
    by_cases h : k = n <;> simp [aget, h, ih]

theorem ports_resetKept (c : Core) :
    c.resetKept.fab.ports = c.fab.ports.map fun q : Nat × Link => (q.1, q.2.parkedAs) := rfl

theorem link_resetCore (c : Core) (cause count p : Nat) : (c.resetCore cause count).link p = (c.link p).parkedAs := by
  obtain ⟨-, -, hfab⟩ := logReset_memoryAtReset_keeps c cause count
  rw [Core.link, Core.resetCore, ports_resetKept, hfab, agetD, aget_map_values, Core.link, agetD]
  cases aget c.fab.ports p with
  | none => rfl
  | some x => rfl

/-! The lifecycle part -/

theorem resetEntry_blank (y : Sys) (now cause : Nat) (owed : List (Nat × Nat)) : (y.resetEntry now cause owed).blank :=
  ⟨rfl, rfl, rfl, rfl, rfl, rfl, rfl, rfl⟩

theorem resetEntry_phase (y : Sys) (now cause : Nat) (owed : List (Nat × Nat)) :
    (y.resetEntry now cause owed).phase = if cause = 4 ∨ y.holdLock = true then .hold else .drain := by
  have hlock : (y.holdLock || cause == 4) = true ↔ cause = 4 ∨ y.holdLock = true := by
    rw [Bool.or_eq_true, beq_iff_eq, or_comm]
  exact ite_congr (propext hlock) (fun _ => rfl) (fun _ => rfl)

/-! The obligation -/

/-- The first source of an SCLK, outside a power-on reset, begins a whole-device reset (R55). -/
theorem wholeReset_first {s : State} (cause : Nat) (hp : s.sys.porst = false) (hj : s.sys.joins s.core.now = false) :
    ∃ y, y = s.sys.resetEntry s.core.now cause (s.core.reel.out.map fun r => (r.chan, r.tag))
      ∧ wholeReset s cause = .next { s with sys := y, core := s.core.resetCore cause y.resetCount } := by
  refine ⟨_, rfl, ?_⟩
  rw [wholeReset, if_neg (by rw [hp]; decide), if_neg (by rw [hj]; decide)]
  rfl

/-- DEVICE_RESET leads to reset entry once its replies are written, or after 65,536 PCLK (R89). -/
theorem exec_deviceResetEntry {s : State} {d : Nat} (hd : s.sys.devResetAt = some d)
    (h : s.core.resetRepliesOwed = false ∨ d + 65536 * 4 ≤ s.core.now) : exec .deviceResetEntry s = wholeReset s 3 := by
  have hgo : (!s.core.resetRepliesOwed || decide (d + 65536 * 4 ≤ s.core.now)) = true := by simpa using h
  change execDeviceResetEntry s = _
  rw [execDeviceResetEntry, hd]
  exact if_pos hgo

/-- Settles O11: each source is the same entry with its cause, and the entry is taken apart by what it does to each part. -/
theorem wholeDeviceResetEntry : Obligations.WholeDeviceResetEntry := by
  unfold Obligations.WholeDeviceResetEntry
  intro s i cause hp hj hsource
  have hexec : exec i s = wholeReset s cause := by
    rcases hsource with ⟨rfl, rfl⟩ | ⟨rfl, rfl⟩ | ⟨rfl, rfl, d, hd, hlate⟩ | ⟨rfl, rfl, hasked, howed⟩
    · rfl
    · rfl
    · exact exec_deviceResetEntry hd (.inr hlate)
    · obtain ⟨d, hd⟩ := Option.ne_none_iff_exists'.mp hasked
      exact exec_deviceResetEntry hd (.inl howed)
  obtain ⟨y, hy, hentry⟩ := wholeReset_first cause hp hj
  obtain ⟨hents, hwr, hrd⟩ := stash_resetCore s.core cause y.resetCount
  refine ⟨_, hexec.trans hentry, ?_, ?_, ?_, ?_, evt_resetCore .., rfl, rfl, rfl, rfl, rfl, hents, hwr, hrd, fun p => ?_⟩
  · rw [hy]; rfl
  · rw [hy]; rfl
  · rw [hy]; exact resetEntry_blank ..
  · rw [hy]; exact resetEntry_phase ..
  · rw [link_resetCore]; exact ⟨rfl, rfl⟩

end Sys2Proof.Machine
end

section
/-! PROOFS. Delay lists, and the presentation and start of records (O36). -/

namespace Sys2Proof.Machine

/-! Delay lists (R157, R158) -/

/-- What stands due in a delay list: a waiting task of a run whose entry of that list has its release count reached. -/
theorem mem_delayDue {c : Core} {list : Nat} {ref : TaskRef} (h : ref ∈ c.delayDue list) :
    ∃ r x k, r ∈ c.graph.runs ∧ x ∈ r.tasks ∧ r.ref x = ref ∧ x.delay = some (list, k) ∧ k ≤ c.gc.count ∧ x.st = .waiting := by
  obtain ⟨⟨keys, t⟩, hsorted, rfl⟩ := List.mem_map.mp h
  obtain ⟨r, hr, hfilter⟩ := List.mem_flatMap.mp ((mem_sortBy _ _ _).mp hsorted)
  obtain ⟨x, hx, hentry⟩ := List.mem_filterMap.mp hfilter
  split at hentry
  next d hd =>
    obtain ⟨hdue, heq⟩ := Option.ite_none_right_eq_some.mp hentry
    obtain ⟨hlist, hcount, hst⟩ := hdue
    obtain ⟨-, href⟩ := Prod.mk.inj (Option.some.inj heq)
    exact ⟨r, x, d.2, hr, hx, href, by rw [hd, ← hlist], hcount, hst⟩
  next => exact nomatch hentry

theorem exec_delayListRelease {s : State} {list : Nat} (hr : s.running = true)
    (hfirst : aget s.core.graph.dlyAt list ≠ some s.core.dclk) :
    exec (.delayListRelease list) s = .next (s.withCore (((s.core.delayDue list).take 16).foldl
      (fun d t => (d.ripen t).settle t.ctx t.tag)
      { s.core with graph := { s.core.graph with dlyAt := aset s.core.graph.dlyAt list s.core.dclk } })) := by
  change execDelayListRelease list s = _
  rw [execDelayListRelease, onRun_running hr, Core.releaseList, if_neg hfirst]

/-! Presentation (R63, R169, R170) -/

section Presentation
variable {s : State} {e : Nat} {r : PortRec}

/-- A selected record whose time has come is withdrawn, waits for its grant, or is presented; that a start which would come to wait after
its stop is withdrawn is the model's reading of R170 (notes/assumptions/69). -/
theorem exec_recordPresentation (hr : s.running = true) (hsel : (s.core.port e).sel = some r)
    (hw : (s.core.port e).waiting = false) (ht : r.at_ + 2 ≤ s.core.dclk) (hg : s.core.startGranted e = false) :
    ∃ withdrawn, exec (.recordPresentation e) s = .next (s.withCore
        (if s.core.isStart e s.core.nextEclk = true ∧ s.core.recStopping r = true then withdrawn
         else if s.core.isStart e s.core.nextEclk = true then
           { s.core.setPort e { s.core.port e with waiting := true } with
             pwr := { s.core.pwr with waits := s.core.pwr.waits ++ [StartReq.mk s.core.rampIndex e .beat false] } }
         else s.core.present_ e s.core.nextEclk))
      ∧ ∀ t i, r.use = .task t i → withdrawn
          = (s.core.setPort e { s.core.port e with sel := none, freeFrom := s.core.dclk + 1 }).settle t.ctx t.tag := by
  have hgo : ¬((s.core.port e).waiting = true ∨ s.core.dclk < r.at_ + 2 ∨ s.core.startGranted e = true) := by
    rw [hw, hg]
    simpa using ht
  change ∃ _, execRecordPresentation e s = _ ∧ _
  rw [execRecordPresentation, onRun_running hr]
  simp only [hsel, if_neg hgo]
  exact ⟨_, rfl, fun t i hu => by rw [hu]⟩

end Presentation

theorem port_countRecord (c : Core) (e : Nat) (bits : BitVec 256) (f : Nat) : (c.countRecord e bits).port f = c.port f := by
  unfold Core.countRecord
  dsimp only
  split
  · rfl
  · split
    · rfl
    · rfl

theorem issueTask_noTask {r : PortRec} (c : Core) (e : Nat) (hu : ∀ u i, r.use ≠ .task u i) : c.issueTask e r = c := by
  unfold Core.issueTask
  split
  next u i h => exact absurd h (hu u i)
  next => rfl

/-- The first beat of a record that serves no task: the record is outstanding from the time of that beat, and selected no more. -/
theorem port_present {c : Core} {e time : Nat} {r : PortRec} (hsel : (c.port e).sel = some r) (hu : ∀ u i, r.use ≠ .task u i) :
    ((c.present_ e time).port e).out = some { r with at_ := time } ∧ ((c.present_ e time).port e).sel = none := by
  unfold Core.present_
  simp only [hsel]
  rw [issueTask_noTask _ _ hu, port_countRecord, Core.port_setPort]
  exact ⟨rfl, rfl⟩

/-! A task changed -/

theorem find?_modifyFirst {α : Type} {p : α → Bool} {f : α → α} (hf : ∀ a, p (f a) = p a) (l : List α) :
    (modifyFirst p f l).find? p = (l.find? p).map f := by
  induction l with
  | nil => rfl
  | cons a r ih => by_cases h : p a = true <;> simp [modifyFirst, hf, h, ih]

theorem find?_map_replace {α : Type} {p : α → Bool} {a b : α} (ha : p a = true) {l : List α} (h : l.find? p = some b) :
    (l.map fun x => if p x then a else x).find? p = some a := by
  induction l with
  | nil => exact nomatch h
  | cons x r ih =>
    rw [List.map_cons]
    by_cases hx : p x = true
    · rw [if_pos hx, List.find?_cons_of_pos ha]
    · rw [List.find?_cons_of_neg hx] at h
      rw [if_neg hx, List.find?_cons_of_neg hx, ih h]

/-- A run that has been replaced is the one that is found under its name. -/
theorem findRun_setRun {c : Core} {r q : Run} (h : c.findRun r.ctx r.tag = some q) :
    (c.setRun r).findRun r.ctx r.tag = some r :=
  find?_map_replace (by simp) h

theorem findRun_name {c : Core} {ctx tag : Nat} {r : Run} (h : c.findRun ctx tag = some r) : r.ctx = ctx ∧ r.tag = tag := by
  simpa using List.find?_some h

/-- A run with one of its tasks changed. -/
def Run.withTask (r : Run) (ref : TaskRef) (f : Task → Task) : Run :=
  { r with tasks := modifyFirst (fun t => t.node == ref.node && t.dyn == ref.dyn) f r.tasks }

theorem task_withTask {f : Task → Task} (hf : ∀ t, (f t).node = t.node ∧ (f t).dyn = t.dyn) (r : Run) (ref : TaskRef) :
    (r.withTask ref f).task ref = (r.task ref).map f :=
  find?_modifyFirst (fun t => by rw [(hf t).1, (hf t).2]) r.tasks

theorem modTask_eq_setRun {c : Core} {ref : TaskRef} {r : Run} (f : Task → Task) (h : c.findRun ref.ctx ref.tag = some r) :
    c.modTask ref f = c.setRun (r.withTask ref f) := by
  rw [Core.modTask, h]; rfl

/-- A change of a task changes the runs alone. -/
theorem modTask_changes (c : Core) (ref : TaskRef) (f : Task → Task) :
    ∃ l, c.modTask ref f = { c with graph := { c.graph with runs := l } } := by
  unfold Core.modTask
  split
  · exact ⟨c.graph.runs, rfl⟩
  · exact ⟨_, rfl⟩

theorem taskOf_some {c : Core} {ref : TaskRef} {q : Run} {x : Task} (h : c.taskOf ref = some (q, x)) :
    c.findRun ref.ctx ref.tag = some q ∧ q.task ref = some x := by
  unfold Core.taskOf at h
  split at h
  next => exact nomatch h
  next r hr =>
    split at h
    next => exact nomatch h
    next t ht =>
      obtain ⟨rfl, rfl⟩ := Prod.mk.inj (Option.some.inj h)
      exact ⟨hr, ht⟩

theorem taskOf_eq_some {c : Core} {ref : TaskRef} {r : Run} {x : Task} (hr : c.findRun ref.ctx ref.tag = some r)
    (hx : r.task ref = some x) : c.taskOf ref = some (r, x) := by
  unfold Core.taskOf
  simp only [hr, hx]

/-- A changed task is found as the change leaves it. -/
theorem taskOf_modTask {c : Core} {ref : TaskRef} {f : Task → Task} {q : Run} {x : Task}
    (hf : ∀ t, (f t).node = t.node ∧ (f t).dyn = t.dyn) (h : c.taskOf ref = some (q, x)) :
    (c.modTask ref f).taskOf ref = some (q.withTask ref f, f x) := by
  obtain ⟨hrun, htask⟩ := taskOf_some h
  obtain ⟨hctx, htag⟩ := findRun_name hrun
  have hset : (c.setRun (q.withTask ref f)).findRun ref.ctx ref.tag = some (q.withTask ref f) := by
    rw [← hctx, ← htag] at hrun ⊢
    exact findRun_setRun hrun
  rw [modTask_eq_setRun f hrun]
  exact taskOf_eq_some hset (by rw [task_withTask hf, htask]; rfl)

/-! Starts of engines (R36, Table 05-12) -/

/-- A task whose first tile starts is RUNNING. -/
def Task.tileStarts (t : Task) : Task := { t with st := if t.st = .issued then .running else t.st }

/-- The record of a port marked started. -/
def Core.markStarted (c : Core) (e : Nat) (r : PortRec) : Core := c.setPort e { c.port e with out := some { r with started := true } }

section Start
variable {s : State} {e : Nat} {r : PortRec}

/-- A record that is due starts: it is marked, and a TILE changes its task. -/
theorem exec_engineStart (hr : s.running = true) (hout : (s.core.port e).out = some r) (hs : r.started = false)
    (ht : r.at_ ≤ s.core.now) :
    ∃ d, exec (.engineStart e) s = .next (s.withCore d)
      ∧ (∀ ref i, r.use = .task ref i → r.kind = 4 → d = (s.core.markStarted e r).modTask ref Task.tileStarts)
      ∧ ∃ l, d = { s.core.markStarted e r with graph := { s.core.graph with runs := l } } := by
  have hgo : ¬(r.started = true ∨ s.core.now < r.at_) := by simpa [hs] using ht
  change ∃ d, execEngineStart e s = _ ∧ _
  rw [execEngineStart, onRun_running hr]
  simp only [hout, if_neg hgo]
  refine ⟨_, rfl, fun ref i hu hk => ?_, ?_⟩
  · split
    next u j hu' =>
      obtain ⟨rfl, rfl⟩ := RecUse.task.inj (hu'.symm.trans hu)
      rw [if_pos hk]
      rfl
    next hno => exact absurd hu (hno ref i)
  · split
    · split
      · exact modTask_changes (s.core.markStarted e r) _ _
      · exact ⟨s.core.graph.runs, rfl⟩
    · exact ⟨s.core.graph.runs, rfl⟩

end Start

/-! The obligation -/

theorem recordPresentation_effect (s : State) (e : Nat) (r : PortRec) (hr : s.running = true) (hsel : (s.core.port e).sel = some r)
    (hw : (s.core.port e).waiting = false) (ht : r.at_ + 2 ≤ s.core.dclk) (hg : s.core.startGranted e = false) :
    (s.core.isStart e s.core.nextEclk = true → s.core.recStopping r = false →
      exec (.recordPresentation e) s = .next (s.withCore { s.core.setPort e { s.core.port e with waiting := true } with
        pwr := { s.core.pwr with waits := s.core.pwr.waits ++ [StartReq.mk s.core.rampIndex e .beat false] } }))
    ∧ (∀ t i, s.core.isStart e s.core.nextEclk = true → s.core.recStopping r = true → r.use = .task t i →
      exec (.recordPresentation e) s = .next (s.withCore
        ((s.core.setPort e { s.core.port e with sel := none, freeFrom := s.core.dclk + 1 }).settle t.ctx t.tag)))
    ∧ (s.core.isStart e s.core.nextEclk = false →
      exec (.recordPresentation e) s = .next (s.withCore (s.core.present_ e s.core.nextEclk))
      ∧ ((∀ u i, r.use ≠ .task u i) → ((s.core.present_ e s.core.nextEclk).port e).out = some { r with at_ := s.core.nextEclk }
          ∧ ((s.core.present_ e s.core.nextEclk).port e).sel = none)) := by
  obtain ⟨withdrawn, hexec, hwithdrawn⟩ := exec_recordPresentation hr hsel hw ht hg
  refine ⟨fun hstart hgoes => ?_, fun t i hstart hstops hu => ?_, fun hno => ⟨?_, port_present hsel⟩⟩
  · rw [hexec, if_neg (by simp [hgoes]), if_pos hstart]
  · rw [hexec, if_pos ⟨hstart, hstops⟩, hwithdrawn t i hu]
  · rw [hexec, if_neg (by simp [hno]), if_neg (by simp [hno])]

theorem engineStart_effect (s : State) (e : Nat) (r : PortRec) (hr : s.running = true) (hout : (s.core.port e).out = some r)
    (hs : r.started = false) (ht : r.at_ ≤ s.core.now) :
    ∃ t, exec (.engineStart e) s = .next t ∧ (t.core.port e).out = some { r with started := true }
      ∧ (∀ ref i q x, r.use = .task ref i → r.kind = 4 → s.core.taskOf ref = some (q, x) → x.st = .issued →
          ∃ y, t.core.taskOf ref = some y ∧ y.2.st = .running)
      ∧ (∀ f, f ≠ e → t.core.port f = s.core.port f) ∧ t.core.mem = s.core.mem ∧ t.core.queues = s.core.queues := by
  obtain ⟨d, hexec, htile, l, hd⟩ := exec_engineStart hr hout hs ht
  have hport : ∀ f, d.port f = (s.core.markStarted e r).port f := fun f => by rw [hd]; rfl
  refine ⟨_, hexec, ?_, fun ref i q x hu hk htask hst => ?_, fun f hf => ?_, ?_, ?_⟩
  · rw [State.withCore_core, hport, Core.markStarted, Core.port_setPort]
  · have htask : (s.core.markStarted e r).taskOf ref = some (q, x) := htask
    rw [State.withCore_core, htile ref i hu hk]
    exact ⟨_, taskOf_modTask (fun _ => ⟨rfl, rfl⟩) htask, if_pos hst⟩
  · rw [State.withCore_core, hport]
    exact Core.port_setPort_other _ _ _ _ hf
  · rw [hd]; rfl
  · rw [hd]; rfl

/-- Settles O36: what is due by the entries that stand in a list, the presentation by whether its beat would be a start, and the start
of an engine by what it leaves of the port and of the task. -/
theorem delayListsAndPresentation : Obligations.DelayListsAndPresentation := by
  unfold Obligations.DelayListsAndPresentation
  refine ⟨fun s list hr hfirst => ⟨exec_delayListRelease hr hfirst, fun t => mem_delayDue⟩, fun s e r hr => ⟨?_, ?_⟩⟩
  · exact recordPresentation_effect s e r hr
  · exact engineStart_effect s e r hr

end Sys2Proof.Machine
end

section
/-! PROOFS. A key of a map, a queue and a context replaced twice, and the fields that a mask keeps (R101). -/

namespace Sys2Proof.Machine

theorem aset_aset {α : Type} (m : AMap α) (n : Nat) (v w : α) : aset (aset m n v) n w = aset m n w := by
  induction m with
  | nil => simp [aset]
  | cons x r ih =>
    obtain ⟨k, u⟩ := x
    by_cases h : k = n
    · simp [aset, h]
    · simp [aset, h, ih]

theorem setQueue_setQueue (c : Core) (n : Nat) (x y : Queue) : (c.setQueue n x).setQueue n y = c.setQueue n y := by
  rw [Core.setQueue, Core.setQueue, aset_aset]; rfl

theorem setCtx_setCtx (c : Core) (n : Nat) (x y : Ctx) : (c.setCtx n x).setCtx n y = c.setCtx n y := by
  rw [Core.setCtx, Core.setCtx, aset_aset]; rfl

/-- A mask that holds a field keeps it: each field is given by its lowest bit and its length. -/
theorem fld_and_fields (v : W64) {l m : List (Nat × Nat)}
    (hm : ∀ x ∈ l, 0 < x.2 ∧ x.1 + x.2 ≤ 64 ∧ (x.1 + x.2 - 1, x.1) ∈ m) :
    ∀ lo len, (lo, len) ∈ l → fld (v &&& fields m) lo len = fld v lo len := by
  intro lo len hl
  obtain ⟨hpos, h64, hmem⟩ := hm _ hl
  refine fld_congr fun i hlo hhi => ?_
  have hin : bitAt (fields m) i = true := by
    rw [bitAt_fields, Bool.and_eq_true, List.any_eq_true]
    exact ⟨decide_eq_true (by omega), _, hmem, by simp; omega⟩
  rw [bitAt_and, hin, Bool.and_true]

end Sys2Proof.Machine
end

section
/-! PROOFS. Doorbells and ring registers (O18): a doorbell taken or refused, and a ring register written. -/

namespace Sys2Proof.Machine

/-! Doorbells (R102, R103) -/

/-- A queue fetches, and a tail lies within the room of its ring (R103). -/
def Queue.admitsTail (q : Queue) (tail : Nat) : Prop :=
  q.fetch ≠ .off ∧ q.fetch ≠ .halted ∧ diff32 tail q.tail ≤ q.ringWords - diff32 q.tail q.head

/-- The code of a refused doorbell (R103). -/
def Queue.refusalCode (q : Queue) : Nat :=
  if q.fetch = .off ∨ q.fetch = .halted then Status.stateError.code else Status.refusedFull.code

/-- SZ_Q_STATUS after a refused doorbell: its code, its count and its flag (Table 04-5). -/
def Queue.refusedStatus (q : Queue) : W64 := setBit (satAdd (setFld q.status 40 8 q.refusalCode) 48 16 1) 1 true

/-- A flag of a queue that has just been replaced. -/
theorem setQueueFlag_setQueue (c : Core) (n bit : Nat) (x : Queue) :
    (c.setQueue n x).setQueueFlag n bit
      = (c.setQueue n { x with status := setBit x.status bit true }).markNow (0x100000 + 0x1000 * n + 0x18) bit := by
  rw [Core.setQueueFlag]
  simp only [Core.queue_setQueue, setQueue_setQueue]

section Doorbell
variable {c : Core} {n : Nat} {v : W64}

theorem doorbell_taken (h : (c.queue n).admitsTail (fld v 0 32)) :
    c.doorbell n v = c.setQueue n
      (if (c.queue n).fetch = .idle then { c.queue n with tail := fld v 0 32, p := false, fetch := .armed }
       else { c.queue n with tail := fld v 0 32, p := true }) := by
  obtain ⟨hoff, hhalted, hroom⟩ := h
  rw [Core.doorbell, if_pos (by simp [hoff, hhalted, hroom])]

/-- A refused doorbell changes the status of its queue, the log, and what is kept of sets. -/
theorem doorbell_refused (h : ¬(c.queue n).admitsTail (fld v 0 32)) :
    ∃ e w l, c.doorbell n v
      = { c.setQueue n { c.queue n with status := (c.queue n).refusedStatus } with evt := e, watch := w, sets := l } := by
  have hcode : (if ((c.queue n).fetch == .off || (c.queue n).fetch == .halted) = true then Status.stateError.code
      else Status.refusedFull.code) = (c.queue n).refusalCode := by simp [Queue.refusalCode]
  rw [Core.doorbell, if_neg (by simpa [Queue.admitsTail, and_assoc] using h)]
  dsimp only
  rw [hcode, setQueueFlag_setQueue]
  exact log_changes ..

end Doorbell

theorem refusedStatus_flag (q : Queue) : bitAt q.refusedStatus 1 = true := bitAt_setBit_self _ _ (by omega)

theorem refusedStatus_count (q : Queue) : fld q.refusedStatus 48 16 = min (fld q.status 48 16 + 1) 0xFFFF :=
  calc fld q.refusedStatus 48 16
    _ = fld (satAdd (setFld q.status 40 8 q.refusalCode) 48 16 1) 48 16 := fld_setBit_apart _ _ (by omega)
    _ = min (fld (setFld q.status 40 8 q.refusalCode) 48 16 + 1) (2 ^ 16 - 1) := fld_satAdd_self _ _ (by omega)
    _ = min (fld q.status 48 16 + 1) (2 ^ 16 - 1) :=
      congrArg (fun x => min (x + 1) (2 ^ 16 - 1)) (fld_setFld_apart _ _ (by omega))

theorem refusedStatus_code (q : Queue) :
    fld q.refusedStatus 40 8 = if q.fetch = .off ∨ q.fetch = .halted then 0x20 else 0x10 := by
  rw [Queue.refusedStatus, fld_setBit_apart _ _ (by omega), fld_satAdd_apart _ _ (by omega), fld_setFld_self _ _ (by omega),
    Queue.refusalCode]
  split
  · rfl
  · rfl

theorem exec_doorbell {s : State} {n : Nat} {acc : Access} (v : W64) (stores : List Host.Cell) (hn : n < 64)
    (hs : (s.withCore (s.core.store stores)).served (0x100000 + 0x1000 * n) acc = true) :
    exec (.doorbell n v acc stores) s = .next (s.withCore ((s.core.store stores).doorbell n v)) := by
  change execDoorbell n v acc stores s = _
  rw [execDoorbell, if_pos hn]
  exact onWrite_served v _ hs

/-! Ring registers (R100, R101) -/

/-- The offset of a ring register of a queue (Tables 04-6 to 04-8). -/
def ringRegOffset (which : RingReg) (n : Nat) : Nat :=
  0x200000 + 0x1000 * n + (match which with | .ring => 0 | .reply => 8 | .mirror => 16)

/-- Whether conditions 3 to 6 of R101 admit a value for a ring register. -/
def ringRegAdmits (which : RingReg) (v : W64) : Bool :=
  match which with
  | .ring => ringOk v 24
  | .reply => ringOk v 20
  | .mirror => inTier (fld v 48 2) (fld v 3 45 * 8) 8

/-- A queue with the fields of a ring register taken from a value. -/
def Queue.withRingReg (q : Queue) (which : RingReg) (v : W64) : Queue :=
  match which with
  | .ring => { q with ring := v &&& fields [(58, 54), (49, 48), (47, 6)] }
  | .reply => { q with reply := v &&& fields [(58, 54), (49, 48), (47, 6)] }
  | .mirror => { q with mirror := v &&& fields [(63, 63), (49, 48), (47, 3)] }

/-- A queue that starts again on its rings: no pointer, no P, and IDLE where both rings have a size (R101). -/
def Queue.restarted (q : Queue) : Queue :=
  { q with head := 0, tail := 0, rplTail := 0, rplFree := 0, p := false,
           fetch := if fld q.ring 54 5 ≠ 0 ∧ fld q.reply 54 5 ≠ 0 then .idle else .off }

theorem ringWrite_taken {c : Core} {n : Nat} {which : RingReg} {v : W64} (hfree : c.ringsFree n = true)
    (hv : ringRegAdmits which v = true) :
    c.ringWrite n which v = some (c.setQueue n ((c.queue n).withRingReg which v).restarted) := by
  have hok : (c.ringsFree n && ringRegAdmits which v) = true := by rw [hfree, hv]; rfl
  exact (if_pos hok).trans (by cases which <;> rfl)

theorem exec_ringConfiguration {s : State} {n : Nat} {which : RingReg} {v : W64} {acc : Access} (hn : n < 64)
    (hs : s.served (ringRegOffset which n) acc = true) (hfree : s.core.ringsFree n = true) (hv : ringRegAdmits which v = true) :
    exec (.ringConfiguration n which v acc) s
      = .next (s.withCore (s.core.setQueue n ((s.core.queue n).withRingReg which v).restarted)) := by
  have hw : onWrite s (ringRegOffset which n) v acc (fun _ c => c.ringWrite n which v) = _ := onWrite_served v _ hs
  rw [ringWrite_taken hfree hv, Option.getD_some] at hw
  exact (if_pos hn).trans hw

/-! The obligation -/

theorem doorbell_effect (s : State) (n : Nat) (v : W64) (acc : Access) (stores : List Host.Cell) (hn : n < 64)
    (hs : (s.withCore (s.core.store stores)).served (0x100000 + 0x1000 * n) acc = true) :
    let c := s.core.store stores
    let q := c.queue n
    (q.admitsTail (fld v 0 32) → exec (.doorbell n v acc stores) s = .next (s.withCore (c.setQueue n
        (if q.fetch = .idle then { q with tail := fld v 0 32, p := false, fetch := .armed }
         else { q with tail := fld v 0 32, p := true }))))
    ∧ (¬q.admitsTail (fld v 0 32) →
      ∃ t w, exec (.doorbell n v acc stores) s = .next t ∧ t.core.queue n = { q with status := w }
        ∧ bitAt w 1 = true ∧ fld w 48 16 = min (fld q.status 48 16 + 1) 0xFFFF
        ∧ fld w 40 8 = (if q.fetch = .off ∨ q.fetch = .halted then 0x20 else 0x10)
        ∧ (∀ m, m ≠ n → t.core.queue m = c.queue m) ∧ t.core.mem = c.mem ∧ t.core.graph = c.graph ∧ t.core.ctxs = c.ctxs) := by
  intro c q
  refine ⟨fun h => ?_, fun h => ?_⟩
  · rw [exec_doorbell v stores hn hs, doorbell_taken h]
  · obtain ⟨e, w, l, hd⟩ := doorbell_refused h
    rw [exec_doorbell v stores hn hs, hd]
    exact ⟨_, q.refusedStatus, rfl, Core.queue_setQueue c n _, refusedStatus_flag q, refusedStatus_count q,
      refusedStatus_code q, fun m hm => Core.queue_setQueue_other c n m _ hm, rfl, rfl, rfl⟩

/-- Settles O18: a doorbell by whether its queue admits the tail, and a ring register by the queue that its write leaves. -/
theorem doorbellAndRingRegisters : Obligations.DoorbellAndRingRegisters := by
  unfold Obligations.DoorbellAndRingRegisters
  refine ⟨fun s n v acc stores => doorbell_effect s n v acc stores, fun s n v acc which hn hs hfree hv => ?_⟩
  refine ⟨_, exec_ringConfiguration hn hs hfree hv, rfl, rfl, rfl, rfl, rfl, rfl, ?_⟩
  cases which with
  | ring =>
    exact ⟨fun _ => fld_and_fields v (by decide), nofun, nofun, fun h => absurd rfl h, fun _ => rfl, fun _ => rfl, rfl, rfl, rfl⟩
  | reply =>
    exact ⟨nofun, fun _ => fld_and_fields v (by decide), nofun, fun _ => rfl, fun h => absurd rfl h, fun _ => rfl, rfl, rfl, rfl⟩
  | mirror =>
    exact ⟨nofun, nofun, fun _ => fld_and_fields v (by decide), fun _ => rfl, fun _ => rfl, fun h => absurd rfl h, rfl, rfl, rfl⟩

end Sys2Proof.Machine
end

section
/-! PROOFS. Yields, slices and deadlines (O38): a yield requested, the next holder of a shared Spindle, and a deadline missed. -/

namespace Sys2Proof.Machine

/-! Yields and slices (R113, R114, R179) -/

theorem exec_yieldRequest {s : State} {e i : Nat} {r : PortRec} {ref : TaskRef} {q : Run} {t : Task} (hr : s.running = true)
    (hout : (s.core.port e).out = some r) (hu : r.use = .task ref i) (htask : s.core.taskOf ref = some (q, t))
    (hgo : r.kind = 4 ∧ (s.core.port e).yield = none ∧ s.core.engLoop e = 0 ∧ 0 < hPrio (s.core.headOf q t)
      ∧ hYieldOk (s.core.headOf q t) = true ∧ s.core.levelZeroWaits q.ctx e = true) :
    exec (.yieldRequest e) s = .next (s.withCore (s.core.setPort e { s.core.port e with yield := some s.core.dclk })) := by
  change execYieldRequest e s = _
  rw [execYieldRequest, onRun_running hr]
  simp only [hout, hu, htask, if_pos hgo]

/-- The context that held a Spindle last. -/
def Core.lastHolder (c : Core) (i : Nat) : Nat := (c.spindle i).holder.getD (c.spindle i).prev

/-- The next context in turn that shares a Spindle and has ready work for it (R114). -/
def Core.nextHolder (c : Core) (i : Nat) : Option Nat :=
  ((List.range 64).map fun j => (c.lastHolder i + 1 + j) % 64).find? fun m => (c.slicers i).contains m && c.hasReady m i

/-- A Spindle has no holder, or the slice of its holder is over (R113). -/
def Core.sliceIsOver (c : Core) (i : Nat) : Prop :=
  (c.spindle i).holder = none ∨ ∃ h, (c.spindle i).holder = some h
    ∧ ((c.spindle i).sliceEnd ≤ c.dclk ∨ c.hasReady h i = false ∨ (c.slicers i).contains h = false)

/-- The slice of a holder ends at its time, without ready work, or with the holder's share of the Spindle (R113). -/
theorem sliceEnds {c : Core} {i h : Nat}
    (hends : (c.spindle i).sliceEnd ≤ c.dclk ∨ c.hasReady h i = false ∨ (c.slicers i).contains h = false) :
    (decide ((c.spindle i).sliceEnd ≤ c.dclk) || !c.hasReady h i || !(c.slicers i).contains h) = true := by
  rcases hends with htime | hready | hshare
  · rw [decide_eq_true htime, Bool.true_or, Bool.true_or]
  · rw [hready, Bool.not_false, Bool.or_true, Bool.true_or]
  · rw [hshare, Bool.not_false, Bool.or_true]

/-- A shared Spindle without a running slice goes to the next context with ready work, or to nobody. -/
theorem sliceNext_over {c : Core} {i : Nat} (hshared : 2 ≤ (c.slicers i).length) (hover : c.sliceIsOver i) :
    c.sliceNext i = match c.nextHolder i with
      | none => c.setSpindle i { c.spindle i with holder := none, prev := c.lastHolder i }
      | some n => (c.setSpindle i { c.spindle i with
          holder := some n, prev := c.lastHolder i, sliceEnd := c.dclk + c.sliceDclk n }).ndInc n 1 := by
  refine if_neg ?_
  rw [decide_eq_false (Nat.not_lt.mpr hshared), Bool.false_or]
  rcases hover with hnone | ⟨h, hheld, hends⟩
  · simp only [hnone, Bool.not_true, Bool.false_eq_true, not_false_eq_true]
  · simp only [hheld, sliceEnds hends, Bool.not_true, Bool.false_eq_true, not_false_eq_true]

theorem exec_sliceEnd {s : State} {i : Nat} (hr : s.running = true) (hi : i < s.core.cfg.spindles) :
    exec (.sliceEnd i) s = .next (s.withCore (s.core.sliceNext i)) := by
  change execSliceEnd i s = _
  rw [execSliceEnd, onRun_running hr, if_pos hi]

/-! The log (R325) -/

/-- A record is inserted last where none of the present DCLK stands at the end of the log. -/
theorem logInsert_fresh {r : EvtRec} {n : Nat} {recs : AMap EvtRec} (held : Nat)
    (h : ∀ p, aget recs ((n + 2 ^ 32 - 1) % 2 ^ 32 % 1024) = some p → p.at_ ≠ r.at_) :
    logInsert r held n recs = aset recs (n % 1024) { r with num := n } := by
  cases held with
  | zero => rfl
  | succ held =>
    rw [logInsert]
    split
    next => rfl
    next p hp => rw [if_neg fun hlt => h p hp hlt.1]

theorem logFresh_at {c : Core} (h : c.logFresh = true) {p : EvtRec}
    (hp : aget c.evt.recs ((c.evt.wr + 2 ^ 32 - 1) % 2 ^ 32 % 1024) = some p) : p.at_ ≠ c.dclk := by
  rw [Core.logFresh, hp] at h
  exact bne_iff_ne.mp h

/-- A record of a log with room, none of the same DCLK before it, stands at the end. -/
theorem logRaw_stands {c : Core} (cls : Nat) (w0 w1 w3 : W64) (hroom : diff32 c.evt.wr c.evt.rd < 1024) (hf : c.logFresh = true) :
    ∃ x, aget (c.logRaw cls w0 w1 w3).evt.recs (c.evt.wr % 1024) = some x ∧ x.cls = cls ∧ x.w0 = w0 := by
  rw [Core.logRaw, if_pos hroom, logInsert_fresh _ fun _ => logFresh_at hf]
  exact ⟨_, aget_aset_self .., rfl, rfl⟩

/-- The reason of a TASK record without a status. -/
theorem fld_taskRecord_reason {reason port ctx : Nat} (tag : Nat) (hreason : reason < 256) (hctx : ctx < 64) :
    fld (w64 (tag % 2 ^ 32 * 2 ^ 32 + 0 * 2 ^ 24 + reason % 256 * 2 ^ 16 + port % 1024 * 2 ^ 6 + ctx)) 16 8 = reason := by
  rw [fld, w64, BitVec.toNat_ofNat]
  omega

/-! Deadlines (R281 to R285) -/

/-- SZ_CX_DET after the first missed deadline of a task: its count, timing_broken and deadline (R283). -/
def missedDet (w : W64) : W64 := setBit (setBit (satAdd w 32 32 1) 1 true) 2 true

theorem missedDet_count (w : W64) : fld (missedDet w) 32 32 = min (fld w 32 32 + 1) (2 ^ 32 - 1) := by
  rw [missedDet, fld_setBit_apart _ _ (by omega), fld_setBit_apart _ _ (by omega), fld_satAdd_self _ _ (by omega)]

theorem missedDet_timing (w : W64) : bitAt (missedDet w) 1 = true := by
  rw [missedDet, bitAt_setBit_other _ _ (by omega), bitAt_setBit_self _ _ (by omega)]

theorem missedDet_missed (w : W64) : bitAt (missedDet w) 2 = true := bitAt_setBit_self _ _ (by omega)

/-- The core with the runs replaced. -/
def Core.withRuns (c : Core) (l : List Run) : Core := { c with graph := { c.graph with runs := l } }

/-- A miss counted in SZ_CX_DET (R283). -/
def Core.countMiss (c : Core) (n : Nat) : Core := c.setCtx n { c.ctx n with det := satAdd (c.ctx n).det 32 32 1 }

/-- What a task keeps of a miss on a port. -/
def Task.misses (e : Nat) (t : Task) : Task := { t with dlMissed := t.dlMissed ++ [e], dlTold := true }

/-- What a run keeps of a miss. -/
def Core.noteMiss (c : Core) (ctx tag : Nat) : Core :=
  match c.findRun ctx tag with
  | some q => c.setRun { q with timing := true, deadline := true }
  | none => c

/-- A first miss as its context keeps it, with what is kept of sets. -/
def Core.missed (c : Core) (n : Nat) (sets : List SetMark) : Core :=
  { c.setCtx n { c.ctx n with det := missedDet (c.ctx n).det } with sets := sets }

theorem countMiss_modTask (c : Core) (n : Nat) (ref : TaskRef) (f : Task → Task) :
    ∃ l, (c.countMiss n).modTask ref f = (c.withRuns l).countMiss n := modTask_changes (c.countMiss n) ref f

theorem mark_setCtx (c : Core) (n off bit : Nat) (x : Ctx) : (c.setCtx n x).mark off bit = (c.mark off bit).setCtx n x := rfl

/-- A flag of SZ_CX_DET of a context that has just been replaced. -/
theorem setDet_setCtx (c : Core) (n bit : Nat) (x : Ctx) :
    (c.setCtx n x).setDet n bit
      = (c.mark (0x200000 + 0x1000 * n + 0x38) bit).setCtx n { x with det := setBit x.det bit true } := by
  rw [Core.setDet]
  simp only [Core.ctx_setCtx, setCtx_setCtx, mark_setCtx]

theorem flags_countMiss (c : Core) (n : Nat) : ∃ sets, ((c.countMiss n).setDet n 1).setDet n 2 = c.missed n sets := by
  rw [Core.countMiss, setDet_setCtx, setDet_setCtx]
  exact ⟨_, rfl⟩

theorem missed_noteMiss (c : Core) (n ctx tag : Nat) (sets : List SetMark) :
    ∃ l, (c.missed n sets).noteMiss ctx tag = (c.withRuns l).missed n sets := by
  unfold Core.noteMiss
  split
  · exact ⟨(c.setRun _).graph.runs, rfl⟩
  · exact ⟨c.graph.runs, rfl⟩

/-- The first miss of a task in a run without deadline_halt is counted, flagged, kept with its run, and recorded. -/
theorem missDeadline_told {c : Core} {ref : TaskRef} {r : Run} {t : Task} (e : Nat) (htask : c.taskOf ref = some (r, t))
    (htold : t.dlTold = false) (hhalt : r.halt = false) :
    ∃ port tile, c.missDeadline ref e
      = (((((c.countMiss r.ctx).modTask ref (Task.misses e)).setDet r.ctx 1).setDet r.ctx 2).noteMiss r.ctx r.tag).logTask
          r t 0 4 port tile := by
  rw [Core.missDeadline, htask]
  exact ⟨_, _, (if_neg (by simp [htold])).trans (if_neg (by simp [hhalt]))⟩

/-- What a first miss leaves: the core as the context keeps the miss, with other runs, and the record. -/
theorem missDeadline_first {c : Core} {ref : TaskRef} {r : Run} {t : Task} (e : Nat) (htask : c.taskOf ref = some (r, t))
    (htold : t.dlTold = false) (hhalt : r.halt = false) :
    ∃ runs sets port tile, c.missDeadline ref e = ((c.withRuns runs).missed r.ctx sets).logTask r t 0 4 port tile := by
  obtain ⟨port, tile, hmiss⟩ := missDeadline_told e htask htold hhalt
  obtain ⟨l, hmod⟩ := countMiss_modTask c r.ctx ref (Task.misses e)
  obtain ⟨sets, hflags⟩ := flags_countMiss (c.withRuns l) r.ctx
  obtain ⟨runs, hnote⟩ := missed_noteMiss (c.withRuns l) r.ctx r.ctx r.tag sets
  rw [hmod, hflags, hnote] at hmiss
  exact ⟨runs, sets, port, tile, hmiss⟩

/-- When the check of a task on a port has failed and is still to be taken (R281, R282); that a clip's hold on the run puts it off is the
model's reading (notes/assumptions/95). -/
theorem dlDue_iff {c : Core} {r : Run} {t : Task} {k : Skein} {e : Nat} (hk : c.skein r.ctx r.skein = some k) :
    let h := c.headOf r t
    let tiles := c.checkedTiles r t k h
    c.dlDue r t e = true ↔
      (t.kind = .static ∧ hFixed h = true ∧ 0 < dlWork h tiles e ∧ (hPorts h).contains e = true)
      ∧ (r.checksOff = false ∧ r.stopping = false ∧ t.exempt = false ∧ t.elided = false ∧ r.uncheckedAt t = false)
      ∧ (t.st ≠ .cancelled ∧ t.st ≠ .faulted ∧ dlBack t h tiles e (c.dlOf r t k h e) = false)
      ∧ (t.dlMissed.contains e = false ∧ (hMode h = 2 → t.dlTold = false))
      ∧ 2 * (c.dlOf r t k h e + 1) ≤ 3 * c.dclk := by
  intro h tiles
  rw [Core.dlDue, hk]
  simp only [Bool.and_eq_true, Bool.not_eq_true', Bool.or_eq_false_iff, Bool.and_eq_false_imp, beq_iff_eq, bne_iff_ne,
    decide_eq_true_eq]
  constructor
  · rintro ⟨⟨⟨⟨⟨⟨⟨⟨⟨⟨⟨⟨⟨hkind, hfixed⟩, hchecks⟩, hstop⟩, hexempt⟩, hcancelled⟩, hfaulted⟩, helided⟩, hcut⟩, hwork⟩,
      hport⟩, hnew⟩, hback⟩, hpast⟩
    exact ⟨⟨hkind, hfixed, hwork, hport⟩, ⟨hchecks, hstop, hexempt, helided, hcut⟩, ⟨hcancelled, hfaulted, hback⟩, hnew, hpast⟩
  · rintro ⟨⟨hkind, hfixed, hwork, hport⟩, ⟨hchecks, hstop, hexempt, helided, hcut⟩, ⟨hcancelled, hfaulted, hback⟩, hnew, hpast⟩
    exact ⟨⟨⟨⟨⟨⟨⟨⟨⟨⟨⟨⟨⟨hkind, hfixed⟩, hchecks⟩, hstop⟩, hexempt⟩, hcancelled⟩, hfaulted⟩, helided⟩, hcut⟩, hwork⟩,
      hport⟩, hnew⟩, hback⟩, hpast⟩

theorem logTask_changes (c : Core) (r : Run) (t : Task) (status reason port tile : Nat) :
    ∃ e w l, c.logTask r t status reason port tile = { c with evt := e, watch := w, sets := l } :=
  logRaw_changes ..

theorem exec_deadline {s : State} {n tag node e : Nat} {r : Run} {t : Task} (hr : s.running = true)
    (htask : s.core.taskOf { ctx := n, tag := tag, node := node, dyn := none } = some (r, t))
    (hdue : s.core.dlDue r t e = true) (hhalt : r.halt = false) :
    exec (.deadline n tag node e) s
      = .next (s.withCore (s.core.missDeadline { ctx := n, tag := tag, node := node, dyn := none } e)) := by
  change execDeadline n tag node e s = _
  rw [execDeadline, onRun_running hr, Core.deadline]
  simp [htask, hdue, hhalt]

theorem dlWork_eq (h : Rec256) (tiles e : Nat) :
    dlWork h tiles e = (if hMode h = 2 then ceilDiv tiles (hWidth h) else shareOf h tiles e) * hBudget h := by
  rw [dlWork]
  split
  · rfl
  · rfl

/-! The obligation -/

/-- The first miss of a task in a run that goes on: its count and flags, and its record. -/
theorem deadline_effect (s : State) {n tag node e : Nat} {r : Run} {t : Task} (hn : n < 64) (hr : s.running = true)
    (htask : s.core.taskOf { ctx := n, tag := tag, node := node, dyn := none } = some (r, t))
    (hdue : s.core.dlDue r t e = true) (htold : t.dlTold = false) (hhalt : r.halt = false) :
    ∃ u, exec (.deadline n tag node e) s = .next u
      ∧ fld (u.core.ctx n).det 32 32 = min (fld (s.core.ctx n).det 32 32 + 1) (2 ^ 32 - 1)
      ∧ bitAt (u.core.ctx n).det 1 = true ∧ bitAt (u.core.ctx n).det 2 = true
      ∧ (diff32 s.core.evt.wr s.core.evt.rd < 1024 → s.core.logFresh = true →
          ∃ x, aget u.core.evt.recs (s.core.evt.wr % 1024) = some x ∧ x.cls = 1 ∧ fld x.w0 16 8 = 4)
      ∧ (∀ m, m ≠ n → u.core.ctx m = s.core.ctx m) ∧ u.core.mem = s.core.mem ∧ u.core.queues = s.core.queues
      ∧ u.core.disp = s.core.disp := by
  obtain rfl : r.ctx = n := (findRun_name (taskOf_some htask).1).1
  obtain ⟨runs, sets, port, tile, hmiss⟩ := missDeadline_first e htask htold hhalt
  obtain ⟨f, w, m, hlog⟩ := logTask_changes ((s.core.withRuns runs).missed r.ctx sets) r t 0 4 port tile
  have hdet : ((((s.core.withRuns runs).missed r.ctx sets).logTask r t 0 4 port tile).ctx r.ctx).det
      = missedDet (s.core.ctx r.ctx).det := by
    rw [hlog]
    exact congrArg Ctx.det (Core.ctx_setCtx ..)
  refine ⟨_, (exec_deadline hr htask hdue hhalt).trans (by rw [hmiss]), ?_⟩
  simp only [State.withCore_core, hdet]
  refine ⟨missedDet_count _, missedDet_timing _, missedDet_missed _, fun hroom hfresh => ?_, fun m hm => ?_, ?_, ?_, ?_⟩
  · obtain ⟨x, hx, hcls, hw0⟩ := logRaw_stands (c := (s.core.withRuns runs).missed r.ctx sets) _ _ _ _ hroom hfresh
    exact ⟨x, hx, hcls, by rw [hw0]; exact fld_taskRecord_reason _ (by omega) hn⟩
  · rw [hlog]
    exact Core.ctx_setCtx_other _ _ _ _ hm
  · rw [hlog]; rfl
  · rw [hlog]; rfl
  · rw [hlog]; rfl

/-- Settles O38: a yield where it may be requested, the next holder of a shared Spindle, and the first miss of a task. -/
theorem yieldSliceAndDeadline : Obligations.YieldSliceAndDeadline := by
  unfold Obligations.YieldSliceAndDeadline
  refine ⟨⟨fun s e r ref i q t hr hout hu htask hk hy hl hp hok hw => exec_yieldRequest hr hout hu htask ⟨hk, hy, hl, hp, hok, hw⟩,
    fun s i hr hi hshared => ?_⟩, ?_, fun c r t k h e => ?_⟩
  · intro x last next hover
    rw [exec_sliceEnd hr hi, sliceNext_over hshared hover]
    refine ⟨fun n hn => ?_, fun hn => ?_⟩
    · rw [show s.core.nextHolder i = some n from hn]; rfl
    · rw [show s.core.nextHolder i = none from hn]; rfl
  · intro s n tag node e r t k hn hr htask hk h tiles d hkind hfixed hchecks hstop hexempt hfinal helided hcut hwork hback hport
      hmissed htold hhalt hpast
    obtain rfl : r.ctx = n := (findRun_name (taskOf_some htask).1).1
    have hcancelled : t.st ≠ .cancelled := fun hst => by simp [hst, TaskSt.final] at hfinal
    have hfaulted : t.st ≠ .faulted := fun hst => by simp [hst, TaskSt.final] at hfinal
    exact deadline_effect s hn hr htask ((dlDue_iff hk).mpr ⟨⟨hkind, hfixed, hwork, hport⟩,
      ⟨hchecks, hstop, hexempt, helided, hcut⟩, ⟨hcancelled, hfaulted, hback⟩, ⟨hmissed, fun _ => htold⟩, hpast⟩) htold hhalt
  · intro tiles w
    rw [Core.dlOf, Core.deadlineOf, dlWork_eq]

end Sys2Proof.Machine
end

section
/-! PROOFS. The range and schedule registers (O23). -/

namespace Sys2Proof.Machine

/-- A write that passes the checks of R397 and that the register's rule takes. -/
theorem onWrite_taken {s : State} {off : Nat} {v : W64} {acc : Access} {f : Sys → Core → Option Core} {d : Core}
    (hs : s.served off acc = true) (hf : f s.sys s.core = some d) : onWrite s off v acc f = .next (s.withCore d) := by
  rw [onWrite_served v f hs, hf, Option.getD_some]

/-- The model's test that a range shares no number with those of the other contexts. -/
theorem othersApart {n : Nat} {shares : Nat → Bool} (h : ∀ m, m < 64 → m ≠ n → shares m = false) :
    ((List.range 64).all fun m => m == n || !shares m) = true := by
  refine List.all_eq_true.mpr fun m hm => ?_
  by_cases hmn : m = n
  · simp [hmn]
  · simp [h m (List.mem_range.mp hm) hmn]

section Ranges
variable {c : Core} {n : Nat} {v : W64}

theorem rangeWrite_peer (hfree : c.rangesFree n = true) (hv : fld v 0 36 + fld v 36 24 ≤ 2 ^ 36) :
    c.rangeWrite n .peer v = some (c.setCtx n { c.ctx n with peer := v &&& fields [(59, 0)] }) := by
  simp only [Core.rangeWrite, hfree, hv, Bool.not_true, Bool.false_eq_true, if_false, if_true]

theorem rangeWrite_sigrange (hfree : c.rangesFree n = true) (hv : fld v 0 12 + fld v 16 13 ≤ 4096)
    (hapart : ∀ m, m < 64 → m ≠ n →
      overlaps (fld v 0 12) (fld v 16 13) (fld (c.ctx m).sigrange 0 12) (fld (c.ctx m).sigrange 16 13) = false) :
    c.rangeWrite n .sigrange v = some (c.setCtx n { c.ctx n with sigrange := v &&& fields [(28, 16), (11, 0)] }) := by
  simp only [Core.rangeWrite, hfree, Bool.not_true, Bool.false_eq_true, if_false]
  exact if_pos ⟨hv, othersApart hapart⟩

theorem flowDlyWrite_flowrange (hfree : c.rangesFree n = true) (hv : fld v 0 16 + fld v 16 17 ≤ 65536)
    (hapart : ∀ m, m < 64 → m ≠ n →
      overlaps (fld v 0 16) (fld v 16 17) (fld (c.ctx m).flowrange 0 16) (fld (c.ctx m).flowrange 16 17) = false) :
    c.flowDlyWrite (.flowrange n) v = some (c.setCtx n { c.ctx n with flowrange := v &&& fields [(32, 0)] }) :=
  if_pos ⟨hfree, hv, othersApart hapart⟩

theorem flowDlyWrite_dlyCtrl (hidle : c.allIdle = true) (h0 : fld v 0 5 ≤ 20) (h5 : fld v 5 5 ≤ 20) (h10 : fld v 10 5 ≤ 20) :
    c.flowDlyWrite .dlyCtrl v = some { c with graph := { c.graph with dlyCtrl := v &&& fields [(63, 32), (14, 0)] } } :=
  if_pos ⟨hidle, by simp [h0, h5, h10]⟩

theorem slackWrite_idle (hidle : c.allIdle = true) :
    c.slackWrite v = some { c with graph := { c.graph with slack := v &&& fields [(47, 16), (15, 8)] } } :=
  if_pos hidle

end Ranges

/-- Settles O23: each register by the guard of its rule, which its hypotheses meet. -/
theorem rangeRegistersTaken : Obligations.RangeRegistersTaken := by
  unfold Obligations.RangeRegistersTaken
  refine ⟨fun s n v acc hn hfree => ⟨fun hs hv => ?_, fun hs hv hapart => ?_, fun hs hv hapart => ?_⟩,
    fun s v acc hidle => ⟨fun hs h0 h5 h10 => ?_, fun hs => ?_⟩⟩
  · exact (if_pos hn).trans (onWrite_taken hs (rangeWrite_peer hfree hv))
  · exact (if_pos hn).trans (onWrite_taken hs (rangeWrite_sigrange hfree hv hapart))
  · exact (if_pos (decide_eq_true hn)).trans (onWrite_taken hs (flowDlyWrite_flowrange hfree hv hapart))
  · exact onWrite_taken (f := fun _ c => c.flowDlyWrite .dlyCtrl v) hs (flowDlyWrite_dlyCtrl hidle h0 h5 h10)
  · exact onWrite_taken (f := fun _ c => c.slackWrite v) hs (slackWrite_idle hidle)

end Sys2Proof.Machine
end

section
/-! PROOFS. SKEIN_LOAD (O29): the checks in their order, the spill and the bytes it leaves alone, and the store with one skein more. -/

namespace Sys2Proof.Machine

/-! Bytes written and bytes left alone -/

/-- A byte written leaves every other byte, in any memory. -/
theorem memGet_memPut_other (m : List Host.Cell) {a j : Nat} (b : Byte) (h : j ≠ a) : memGet (memPut m a b) j = memGet m j := by
  induction m with
  | nil =>
    rw [memPut]
    split
    · rfl
    · simp only [memGet, if_neg (Ne.symm h)]
  | cons x r ih =>
    obtain ⟨k, v⟩ := x
    rw [memPut]
    split
    · split
      · rfl
      · rw [memGet, if_neg (Ne.symm h)]
    · split
      next hak =>
        subst hak
        split
        · rw [memGet, if_neg (Ne.symm h)]
        · rw [memGet, memGet, if_neg (Ne.symm h), if_neg (Ne.symm h)]
      next => rw [memGet, memGet, ih]

theorem memGet_memPutBytes_outside (m : List Host.Cell) {a j : Nat} (l : List Byte) (h : j < a ∨ a + l.length ≤ j) :
    memGet (memPutBytes m a l) j = memGet m j := by
  induction l generalizing m a with
  | nil => rfl
  | cons b l ih =>
    rw [List.length_cons] at h
    rw [memPutBytes, ih _ (by omega), memGet_memPut_other _ _ (by omega)]

theorem length_natBytes (n v : Nat) : (natBytes n v).length = n := by
  induction n generalizing v with
  | zero => rfl
  | succ n ih => rw [natBytes, List.length_cons, ih]

theorem length_flatMap_same {α β : Type} {f : α → List β} {n : Nat} (hf : ∀ a, (f a).length = n) (l : List α) :
    (l.flatMap f).length = n * l.length := by
  rw [List.length_flatMap, List.map_congr_left fun a _ => hf a, List.map_const', List.sum_replicate_nat, Nat.mul_comm]

/-- A spilled page with its trailer takes 4160 bytes (R132, R363). -/
theorem length_spillPage (k : Skein) (keys : Keys) (page : Nat) : (k.spillPage keys page).length = 4160 := by
  have htext : (k.pageText page).length = 4096 := by
    rw [Skein.pageText, length_flatMap_same fun i => length_natBytes 32 _, List.length_range]
  have htag : ∀ t : List Byte, (tag16 t).length = 16 := fun t => by
    rw [tag16, List.length_take, List.length_append, length_natBytes]
    omega
  simp only [Skein.spillPage, pageIv, gcmText, List.length_append, List.length_map, List.length_zipIdx, length_natBytes, htext, htag]

/-- The spill of a skein, page after page. -/
def Skein.spillBytes (k : Skein) (keys : Keys) : List Byte := (List.range k.pages).flatMap fun g => k.spillPage keys g

theorem length_spillBytes (k : Skein) (keys : Keys) : (k.spillBytes keys).length = 4160 * k.pages := by
  rw [Skein.spillBytes, length_flatMap_same (length_spillPage k keys), List.length_range]

theorem writeThen_next {c : Core} {word a : Nat} {bs : List Byte} (next : Core → Except Verdict CpRes)
    (h : c.writeFault a bs.length = none) : c.writeThen word a bs next = next (c.writeBytes a bs) := by
  simp only [Core.writeThen, h]

/-! The store with one skein more -/

/-- A skein with other pages of it resident. -/
def Skein.withPages (k : Skein) (l : List Nat) : Skein := { k with resident := l }

/-- A core whose skeins have other pages resident. -/
def Core.withPages (c : Core) (l : Skein → List Nat) : Core :=
  { c with graph := { c.graph with skeins := c.graph.skeins.map fun k => k.withPages (l k) } }

theorem withPages_resident (c : Core) : c.withPages Skein.resident = c := by
  simp only [Core.withPages, Skein.withPages, List.map_id']

theorem withPages_withPages (c : Core) (l l' : Skein → List Nat) :
    (c.withPages l).withPages l' = c.withPages fun k => l' (k.withPages (l k)) := by
  simp only [Core.withPages, List.map_map, Function.comp_def]
  rfl

/-- The pages of a skein without one that is discarded (R134). -/
def Skein.without (k : Skein) (v : Nat × Nat × Nat) : List Nat :=
  if k.ctx = v.2.1 ∧ k.id = v.2.2 then k.resident.filter fun p => p != v.1 else k.resident

theorem withPages_without (k : Skein) (v : Nat × Nat × Nat) : k.withPages (k.without v)
    = if k.ctx = v.2.1 ∧ k.id = v.2.2 then { k with resident := k.resident.filter fun p => p != v.1 } else k := by
  rw [Skein.without]
  split <;> rfl

/-- Discarding pages changes which pages of a skein are resident, and nothing else (R134). -/
theorem evict_changes (n : Nat) (c : Core) : ∃ l : Skein → List Nat, Core.evict n c = c.withPages l := by
  induction n generalizing c with
  | zero => exact ⟨Skein.resident, (withPages_resident c).symm⟩
  | succ n ih =>
    rw [Core.evict]
    split
    next => exact ⟨Skein.resident, (withPages_resident c).symm⟩
    next =>
      split
      next => exact ⟨Skein.resident, (withPages_resident c).symm⟩
      next v hv =>
        obtain ⟨l, hl⟩ := ih (c.withPages fun k => k.without v)
        rw [withPages_withPages] at hl
        refine ⟨_, Eq.trans ?_ hl⟩
        simp only [Core.withPages, withPages_without]

/-- A request for an enable changes the ramp governor's part alone. -/
theorem requestEnable_changes (c : Core) (e : Nat) : ∃ w, c.requestEnable e = { c with pwr := w } := by
  rw [Core.requestEnable]
  split
  · exact ⟨_, rfl⟩
  · exact ⟨c.pwr, rfl⟩

theorem foldl_requestEnable_changes (c : Core) (l : List Nat) :
    ∃ w, l.foldl (fun d e => d.requestEnable e) c = { c with pwr := w } := by
  induction l generalizing c with
  | nil => exact ⟨c.pwr, rfl⟩
  | cons e l ih =>
    obtain ⟨w, hw⟩ := requestEnable_changes c e
    rw [List.foldl_cons, hw]
    exact ih { c with pwr := w }

/-- A core after the load of a skein: its spill written, the skein in the store, pages discarded while the store holds too many, and the
enables of its ports requested (R132, R134, R175). -/
def Core.withSkein (c : Core) (keys : Keys) (k : Skein) (ports : List Nat) : Core :=
  let c1 := c.writeBytes k.spillAt (k.spillBytes keys)
  ports.foldl (fun d e => d.requestEnable e)
    (Core.evict c1.cfg.storePages { c1 with graph := { c1.graph with skeins := c1.graph.skeins ++ [k] } })

/-- What the load of a skein changes: memory where its spill stands, the words due to be read again there (R139, R236), the ramp
governor's part, and the store, whose skeins keep all but the pages resident. -/
theorem withSkein_changes (c : Core) (keys : Keys) (k : Skein) (ports : List Nat) :
    ∃ (l : Skein → List Nat) (ws : List WatchEnt) (h : AMap Chan) (w : Pwr), c.withSkein keys k ports = { c with
      mem := memPutBytes c.mem k.spillAt (k.spillBytes keys), chans := h, pwr := w,
      graph := { c.graph with watches := ws, skeins := (c.graph.skeins ++ [k]).map fun x => x.withPages (l x) } } := by
  obtain ⟨l, hl⟩ := evict_changes c.cfg.storePages { c.writeBytes k.spillAt (k.spillBytes keys) with
    graph := { (c.writeBytes k.spillAt (k.spillBytes keys)).graph with skeins := c.graph.skeins ++ [k] } }
  obtain ⟨w, hw⟩ := foldl_requestEnable_changes (Core.withPages _ l) ports
  rw [← hl] at hw
  exact ⟨l, _, _, w, hw.trans (by rw [hl]; rfl)⟩

/-- A loaded skein is found under its name, and those of other names as before, but for the pages resident. -/
theorem skein_added {c d : Core} {k : Skein} {l : Skein → List Nat}
    (hd : d.graph.skeins = (c.graph.skeins ++ [k]).map fun x => x.withPages (l x)) :
    (c.skein k.ctx k.id = none → d.skein k.ctx k.id = some (k.withPages (l k)))
    ∧ ∀ j i x, c.skein j i = some x → d.skein j i = some (x.withPages (l x)) := by
  have hfind : ∀ j i, d.skein j i
      = ((c.skein j i).or ([k].find? fun x => x.ctx == j && x.id == i)).map fun x => x.withPages (l x) := fun j i => by
    rw [Core.skein, hd, List.find?_map, Core.skein, ← List.find?_append]
    rfl
  refine ⟨fun hnone => ?_, fun j i x hx => ?_⟩
  · rw [hfind, hnone, List.find?_cons_of_pos (by simp)]
    rfl
  · rw [hfind, hx]
    rfl

/-! The checks (R131, R132) -/

/-- The skein that an image of SKEIN_LOAD describes. -/
def describedSkein (n : Nat) (p : Packet) (image spill : Region) (h ws : List W64) : Skein :=
  skeinOf n (pf p 2 32 10) (pf p 3 0 21) image.base spill.base spill.size h ws

/-- An image with its heads and its stray records. -/
def Skein.asImage (k : Skein) : Image :=
  { skein := k, heads := (scanImage k.recs k.nodeCount 0).1, stray := (scanImage k.recs k.nodeCount 0).2 }

/-- The pages that a load reserves (R132). -/
def Skein.reservation (k : Skein) (p : Packet) : Nat :=
  (if pkExp p && pb p 4 32 then k.pages
   else ceilDiv (if pkExp p then min (pf p 4 0 21) k.nodeCount else min k.nodeCount 128) 128) + b2n k.hasReplay

/-- A load meets every check of Table 05-10, there is room for its reservation, and its spill can be written (R131, R132). -/
structure LoadPasses (y : Sys) (c : Core) (n : Nat) (p : Packet) (image spill : Region) (h ws : List W64) : Prop where
  fields    : passes (step9 p (range 3 0 (decide (1 ≤ pf p 3 0 21) && decide (pf p 3 0 21 ≤ 2 ^ 20)))) = true
  imageAt   : c.handleParam n p 2 0 false 0 = .ok image
  spillAt   : c.handleParam n p 3 32 true (ceilDiv (pf p 3 0 21) 128 * 4160) = .ok spill
  nameFree  : c.skein n (pf p 2 32 10) = none
  header    : c.readFor 2 image.base 8 = .ok h
  extent    : imageEnd h (pf p 3 0 21) ≤ image.size
  headerOk  : passes (headerCheck h (pf p 3 0 21)) = true
  words     : c.readFor 2 image.base (8 + 8 * ceilDiv (fld (h.getD 1 0) 55 9) 16 + 4 * pf p 3 0 21) = .ok ws
  imageOk   : c.imageCheck n (describedSkein n p image spill h ws).asImage = none
  pages     : (describedSkein n p image spill h ws).reservation p ≤ c.pageFree
  nodes     : pf p 3 0 21 ≤ c.stateFree
  hedge     : y.hedgeDown = false
  spillOk   : c.writeFault spill.base (4160 * ceilDiv (pf p 3 0 21) 128) = none

theorem bind_of_ok {ε α β : Type} {x : Except ε α} {a : α} {f : α → Except ε β} {r : Except ε β}
    (hx : x = .ok a) (hf : f a = r) : x >>= f = r := by
  rw [hx]; exact hf

theorem passes_unit {ε : Type} {x : Except ε Unit} (h : passes x = true) : x = .ok () := by
  obtain ⟨_, rfl⟩ := passes_ok h
  rfl

theorem ensure_of {b : Bool} (v : Verdict) (h : b = true) : ensure b v = .ok () := if_pos h

/-- A described skein as its load leaves it: its reservation, the salt drawn for its spill, the pages that there is room for, and
its figure (R132, R363). -/
def Skein.loaded (k : Skein) (c : Core) (p : Packet) : Skein :=
  let room := (c.drawBytes 16).2.pageRoom - b2n k.hasReplay
  { k with reserved := k.reservation p, noSpill := pkExp p && pb p 4 32, salt := (c.drawBytes 16).1,
           resident := List.range (min k.pages (max (k.reservation p - b2n k.hasReplay) room)),
           figure := (c.skeinPorts k.asImage).length * fld c.pwr.ramp 48 8 }

/-- The steps of a load that meets every check. -/
theorem skeinLoad_done {y : Sys} {c : Core} {n : Nat} {p : Packet} {image spill : Region} {h ws : List W64}
    (hload : LoadPasses y c n p image spill h ws) :
    let k := describedSkein n p image spill h ws
    c.skeinLoad y n p
      = .ok (.done vOk ((c.drawBytes 16).2.withSkein y.keys (k.loaded c p) (c.skeinPorts k.asImage))) := by
  intro k
  have hroom : (decide (k.reservation p ≤ c.pageFree) && decide (pf p 3 0 21 ≤ c.stateFree)) = true := by
    rw [decide_eq_true hload.pages, decide_eq_true hload.nodes]; rfl
  have hspill : (c.drawBytes 16).2.writeFault k.spillAt ((k.loaded c p).spillBytes y.keys).length = none := by
    rw [length_spillBytes]
    exact hload.spillOk
  refine bind_of_ok (passes_unit hload.fields) ?_
  refine bind_of_ok hload.imageAt (bind_of_ok hload.spillAt ?_)
  refine bind_of_ok (ensure_of _ (by rw [hload.nameFree]; rfl)) (bind_of_ok hload.header ?_)
  refine bind_of_ok (ensure_of _ (decide_eq_true hload.extent)) (bind_of_ok (passes_unit hload.headerOk) ?_)
  refine bind_of_ok hload.words ?_
  dsimp only
  split
  next v hv => exact nomatch hload.imageOk.symm.trans hv
  next =>
    refine bind_of_ok rfl (bind_of_ok (ensure_of _ hroom) ?_)
    refine bind_of_ok (ensure_of (b := !y.hedgeDown) _ (by rw [hload.hedge]; rfl)) ?_
    exact writeThen_next _ hspill

theorem exec_skeinLoad {s : State} {n : Nat} {p : Packet} {image spill : Region} {h ws : List W64} (ht : s.takes 0x10 n p = true)
    (hload : LoadPasses s.sys (s.core.taken n) n p image spill h ws) :
    let c := s.core.taken n
    let k := describedSkein n p image spill h ws
    exec .skeinLoad s
      = .next (s.replied n p vOk ((c.drawBytes 16).2.withSkein s.sys.keys (k.loaded c p) (c.skeinPorts k.asImage))) :=
  onCommand_done (run := fun y c n p => c.skeinLoad y n p) ht (skeinLoad_done hload)

/-! The obligation -/

/-- Settles O29: the load by its checks, and the core by the one equation that says what a skein added changes. -/
theorem skeinLoadAddsSkein : Obligations.SkeinLoadAddsSkein := by
  unfold Obligations.SkeinLoadAddsSkein
  intro s n p image spill h ws ht c nodes id k m reserved hfields himage hspill hname hheader hextent hheaderOk hwords hcheck hpages
    hnodes hhedge hspillOk
  have hload : LoadPasses s.sys c n p image spill h ws :=
    ⟨hfields, himage, hspill, hname, hheader, hextent, hheaderOk, hwords, hcheck, hpages, hnodes, hhedge, hspillOk⟩
  let d := (c.drawBytes 16).2.withSkein s.sys.keys (k.loaded c p) (c.skeinPorts k.asImage)
  obtain ⟨l, watches, chans, w, hd⟩ : ∃ l ws h w, d = _ := withSkein_changes _ _ _ _
  obtain ⟨hnew, hold⟩ := skein_added (c := c) (d := d) (k := k.loaded c p) (l := l) (by rw [hd]; rfl)
  refine ⟨d, _, exec_skeinLoad ht hload, hnew hname, rfl, rfl, rfl, rfl, rfl, rfl, rfl, by rw [hd]; rfl,
    by rw [hd]; rfl, by rw [hd]; rfl, fun a ha => ?_, fun j i x hx => ⟨_, hold j i x hx, rfl, rfl⟩⟩
  have hlength : ((k.loaded c p).spillBytes s.sys.keys).length = 4160 * ceilDiv nodes 128 := length_spillBytes _ _
  rw [hd]
  exact memGet_memPutBytes_outside _ _ (by rw [hlength]; exact ha)

end Sys2Proof.Machine
end

section
/-! PROOFS. Device-side enqueue, completion edges, signal words and polled words (O35). -/

namespace Sys2Proof.Machine

/-! Completions (R130, R142, R144) -/

/-- The enqueue area of the first completion that stands in its ENQ step, where it passes its checks: a task for each of its records. -/
theorem enqStep_creates {c : Core} {k : Comp} {r : Run} {t : Task} {g : Skein} {l : List (Nat × Nat × Nat)}
    (hk : c.nextComp (fun x => x == .enq) = some k) (htask : c.taskOf k.task = some (r, t))
    (hskein : c.skein r.ctx r.skein = some g) (harea : c.enqArea r g (g.enqRec t.node) = .ok l) :
    c.enqStep = l.foldl (fun d x => d.createDyn r.ctx r.tag .dynamic x)
      (c.setComp { k with stage := .action, since := c.dclk + 1 }) := by
  simp only [Core.enqStep, hk, htask, hskein, harea]

theorem edgesAll_none {c : Core} (n : Nat) (h : c.nextEdges = none) : Core.edgesAll n c = c := by
  cases n with
  | zero => rfl
  | succ n => rw [Core.edgesAll, h]

theorem edgesAll_only {c : Core} {k : Comp} {r : Run} {rest : List (Nat × Bool)} (n : Nat)
    (h : c.nextEdges = some (k, r, rest)) (hlast : (c.edgeRun k r rest).nextEdges = none) :
    Core.edgesAll (n + 1) c = c.edgeRun k r rest := by
  rw [Core.edgesAll, h]
  exact edgesAll_none n hlast

/-- The last decrement of a completion, where the limit of the DCLK admits it: the task ends with it. -/
theorem edgeRun_last {c : Core} (k : Comp) (r : Run) (x : Nat × Bool) (h : 0 < c.edgeBudget) :
    c.edgeRun k r [x]
      = ((((({ c with graph := { c.graph with edgesUsed := c.graph.edgesUsed + 1 } } : Core).setComp
          { k with applied := k.applied + 1 }).decrement { ctx := r.ctx, tag := r.tag, node := x.1, dyn := none }
          (k.live x.2)).taskEnd k.task .done).dropComp k.task).settle r.ctx r.tag := by
  have hnow : [x].take c.edgeBudget = [x] := List.take_of_length_le h
  simp only [Core.edgeRun, hnow, List.length_singleton, if_true, List.foldl_cons, List.foldl_nil]

theorem exec_completionEdges {s : State} (hr : s.running = true) : exec .completionEdges s
    = .next (s.withCore (Core.edgesAll (s.core.graph.comps.length + 2 * s.core.cfg.spindles + 1) s.core)) :=
  onRun_running hr fun _ c => Core.edgesAll (c.graph.comps.length + 2 * c.cfg.spindles + 1) c

/-! Signal words (R138) -/

theorem sig_sigWrite (c : Core) (i : Nat) (v : W64) : (c.sigWrite i v).sig i = v + c.sigAdded i := agetD_aset_self ..

theorem sig_sigWrite_other (c : Core) {i m : Nat} (v : W64) (h : m ≠ i) : (c.sigWrite i v).sig m = c.sig m :=
  agetD_aset_other _ _ _ _ _ h

theorem sigAdded_none {c : Core} (i : Nat) (h : c.graph.sigAdds = []) : c.sigAdded i = 0 := by
  rw [Core.sigAdded, h, List.foldl_nil]

theorem exec_signalWordWrite {s : State} {i : Nat} {acc : Access} (v : W64) (hi : i < 4096)
    (hs : s.served (0x400000 + 8 * i) acc = true) :
    exec (.signalWordWrite i v acc) s = .next (s.withCore (s.core.sigWrite i v)) :=
  (if_pos hi).trans (onWrite_served v _ hs)

/-! Polled words (R139) -/

/-- A watch entry with no read outstanding reads its word, and its interval begins anew. -/
theorem pollWatch_reads {c : Core} {w : WatchEnt} (h : (c.reelServing fun x => x == .polled w.task) = false) :
    c.pollWatch w = Core.reelRead { c with graph := { c.graph with watches := c.graph.watches.map fun x =>
      if x.task = w.task then { x with next := c.now + c.pollTime } else x } } w.addr (.polled w.task) :=
  if_neg (by rw [h]; exact Bool.false_ne_true)

theorem exec_polledWaitRead {s : State} {n skein node : Nat} {r : Run} {w : WatchEnt} (hr : s.running = true)
    (hrun : s.core.runOfSkein n skein = some r)
    (hw : s.core.graph.watches.find? (fun x => x.task == { ctx := n, tag := r.tag, node := node, dyn := none }) = some w)
    (hdue : w.next ≤ s.core.now) :
    exec (.polledWaitRead n skein node) s = .next (s.withCore (s.core.pollWatch w)) := by
  change execPolledWaitRead n skein node s = _
  rw [execPolledWaitRead, onRun_running hr]
  simp only [hrun, hw, if_pos hdue]

/-! The obligation -/

/-- Settles O35: the enqueue by the records of its area, the edges by how many completions still stand in theirs, and both words by
what their command writes or reads. -/
theorem enqueueEdgesAndSignals : Obligations.EnqueueEdgesAndSignals := by
  unfold Obligations.EnqueueEdgesAndSignals
  refine ⟨⟨fun s k r t g l hr hk htask hskein harea => ?_, fun s k r rest hr hnext hlast => ⟨?_, ?_⟩, fun s hr hnone => ?_⟩,
    fun s i v acc hi hs => ?_, fun s n skein node r w hr hrun hw hdue hserving => ?_⟩
  · rw [← enqStep_creates hk htask hskein harea]
    exact onRun_running hr fun _ c => c.enqStep
  · rw [exec_completionEdges hr, edgesAll_only _ hnext hlast]
  · rintro x rfl hbudget
    exact edgeRun_last k r x hbudget
  · rw [exec_completionEdges hr, edgesAll_none _ hnone]
    rfl
  · refine ⟨_, exec_signalWordWrite v hi hs, sig_sigWrite .., fun hno => ?_, fun m hm => sig_sigWrite_other _ v hm, rfl, rfl⟩
    rw [State.withCore_core, sig_sigWrite, sigAdded_none i hno]
    exact BitVec.add_zero v
  · rw [exec_polledWaitRead hr hrun hw hdue, pollWatch_reads hserving]

end Sys2Proof.Machine
end

section
/-! PROOFS. The selection of a Spindle (O37): the order of the keys, the candidate that stands first in it, and its record. -/

namespace Sys2Proof.Machine

/-! The order of R168 -/

/-- The order of two lists of keys is the lexicographic order. -/
theorem keysLt_iff (a b : List Nat) : keysLt a b = true ↔ a < b := by
  induction a generalizing b with
  | nil => cases b <;> simp [keysLt]
  | cons x a ih =>
    cases b with
    | nil => simp [keysLt]
    | cons y b =>
      rw [keysLt, List.cons_lt_cons_iff, ← ih]
      rcases Nat.lt_trichotomy x y with h | h | h
      · simp [h]
      · simp [h]
      · simp [h, Nat.lt_asymm h, Nat.ne_of_gt h]

theorem keysLt_eq_false (a b : List Nat) : keysLt a b = false ↔ ¬a < b := by
  rw [← keysLt_iff, Bool.not_eq_true]

/-- That one list of keys is not before another passes on from the second to a third that it is not before. -/
theorem keys_not_lt_trans {x a z : List Nat} (hax : ¬a < x) (hza : ¬z < a) : ¬z < x :=
  List.not_lt.mpr (List.le_trans (List.not_lt.mp hax) (List.not_lt.mp hza))

/-- The first of a list put in the order of its keys: none of the list comes before it. -/
theorem sortBy_head_least {α : Type} (keys : α → List Nat) {l : List α} {y : α} {rest : List α}
    (h : sortBy (fun a b => keysLt (keys a) (keys b)) l = y :: rest) : ∀ z ∈ l, keysLt (keys z) (keys y) = false := by
  simp only [keysLt_eq_false]
  induction l generalizing y rest with
  | nil => nofun
  | cons x l ih =>
    rw [sortBy] at h
    cases hsorted : sortBy (fun a b => keysLt (keys a) (keys b)) l with
    | nil =>
      have hl : ∀ z, z ∉ l := fun z hz => by
        have hz' := (mem_sortBy (fun a b => keysLt (keys a) (keys b)) z l).mpr hz
        rw [hsorted] at hz'
        exact nomatch hz'
      rw [hsorted, insertFirst] at h
      obtain ⟨rfl, -⟩ := List.cons.inj h
      exact List.forall_mem_cons.mpr ⟨List.lt_irrefl _, fun z hz => absurd hz (hl z)⟩
    | cons a s =>
      have hleast := ih hsorted
      rw [hsorted, insertFirst] at h
      by_cases hax : keysLt (keys a) (keys x) = true
      · rw [if_pos hax] at h
        obtain ⟨rfl, -⟩ := List.cons.inj h
        exact List.forall_mem_cons.mpr ⟨List.lt_asymm ((keysLt_iff _ _).mp hax), hleast⟩
      · rw [if_neg hax] at h
        obtain ⟨rfl, -⟩ := List.cons.inj h
        have hnot : ¬keys a < keys x := fun hlt => hax ((keysLt_iff _ _).mpr hlt)
        exact List.forall_mem_cons.mpr ⟨List.lt_irrefl _, fun z hz => keys_not_lt_trans hnot (hleast z hz)⟩

/-! The selection (R164, R168) -/

/-- What a selection finds: the due SAVE, LOAD and wire-test records of its group stand at their ports (the model's choice,
notes/assumptions/24), and the claimants of free flows are fixed. -/
def Core.selectionOpens (c : Core) (i : Nat) : Core :=
  ((List.range 64).foldl (fun d j => d.selectOther (64 * i + j))
    (c.setSpindle i { c.spindle i with selAt := some c.dclk })).fixClaims

section Selection
variable {s : State} {i : Nat}

theorem exec_spindleSelection (hr : s.running = true) (hi : i < s.core.cfg.spindles) :
    exec (.spindleSelection i) s = .next (s.withCore (s.core.spindleSelect i)) := by
  change execSpindleSelection i s = _
  rw [execSpindleSelection, onRun_running hr, if_pos hi]

/-- The order of R168 over the candidates of a Spindle. -/
def Core.ordered (c : Core) (i : Nat) : List Cand :=
  sortBy (fun a b : Cand => keysLt a.keys b.keys) ((c.selectionOpens i).candidates i)

section First
variable {c : Core} (hfirst : (c.spindle i).selAt ≠ some c.dclk)
include hfirst

/-- The first in that order is selected, if there is one. -/
theorem spindleSelect_eq : c.spindleSelect i
    = ((c.ordered i).head?.map (c.selectionOpens i).select).getD (c.selectionOpens i) := by
  refine (if_neg hfirst).trans ?_
  dsimp only [Core.ordered, Core.selectionOpens]
  split
  next h => simp only [h, List.head?_nil, Option.map_none, Option.getD_none]
  next y rest h => simp only [h, List.head?_cons, Option.map_some, Option.getD_some]

theorem spindleSelect_none (hno : (c.selectionOpens i).candidates i = []) : c.spindleSelect i = c.selectionOpens i := by
  rw [spindleSelect_eq hfirst, Core.ordered, hno, sortBy, List.head?_nil, Option.map_none, Option.getD_none]

/-- Of the candidates, one that no other comes before is selected. -/
theorem spindleSelect_least (hsome : (c.selectionOpens i).candidates i ≠ []) :
    ∃ y, y ∈ (c.selectionOpens i).candidates i ∧ (∀ z, z ∈ (c.selectionOpens i).candidates i → keysLt z.keys y.keys = false)
      ∧ c.spindleSelect i = (c.selectionOpens i).select y := by
  have hmem : ∀ z, z ∈ c.ordered i ↔ z ∈ (c.selectionOpens i).candidates i := fun z => mem_sortBy _ z _
  obtain ⟨y, rest, hsorted⟩ : ∃ y rest, c.ordered i = y :: rest := by
    obtain ⟨z, hz⟩ := List.exists_mem_of_ne_nil _ hsome
    exact List.exists_cons_of_ne_nil (List.ne_nil_of_mem ((hmem z).mpr hz))
  have hy : y ∈ c.ordered i := hsorted ▸ List.mem_cons_self
  refine ⟨y, (hmem y).mp hy, sortBy_head_least Cand.keys hsorted, ?_⟩
  rw [spindleSelect_eq hfirst, hsorted, List.head?_cons, Option.map_some, Option.getD_some]

end First

end Selection

/-! The record of a selected TILE (R127, R169, R175) -/

/-- The hold of a flow and the bindings of a port leave the time and every issue tag. -/
theorem selectTask_keeps (c : Core) (x : Cand) :
    (c.selectTask x).dclk = c.dclk ∧ ((c.selectTask x).port x.port).tag = (c.port x.port).tag := by
  have hflow : ∃ f, c.holdFlow x.run x.task x.head = { c with disp := { c.disp with flows := f } } := by
    rw [Core.holdFlow]
    split
    · exact ⟨_, rfl⟩
    · exact ⟨c.disp.flows, rfl⟩
  obtain ⟨f, hf⟩ := hflow
  rw [Core.selectTask, hf]
  dsimp only
  split
  · exact ⟨rfl, rfl⟩
  · refine ⟨rfl, ?_⟩
    rw [Core.bindPort, Core.port_setPort]
    split <;> rfl

theorem port_ndInc (c : Core) (n k e : Nat) : (c.ndInc n k).port e = c.port e := rfl

theorem port_modTask (c : Core) (ref : TaskRef) (f : Task → Task) (e : Nat) : (c.modTask ref f).port e = c.port e := by
  obtain ⟨l, hl⟩ := modTask_changes c ref f
  rw [hl]; rfl

/-- The port of a selected TILE whose operands lie in their regions: the record stands there with the next issue tag taken. -/
theorem port_select_tile {c : Core} {x : Cand} {k : Skein} {tile : Nat} {resume last : Bool} {ops : List Opnd}
    (hskein : c.skein x.run.ctx x.run.skein = some k) (hdue : x.due = .tile tile resume last)
    (hops : c.tileOperands x.run x.task k x.head tile = .ok ops) :
    ((c.select x).port x.port).tag = ((c.port x.port).tag + 1) % 2 ^ 16
    ∧ ((c.select x).port x.port).sel = some (PortRec.mk
        (tileBits (c.port x.port).tag x.head x.task.arg tile resume last ops) 4
        (.task (x.run.ref x.task) tile) last c.dclk false) := by
  have hport : (c.select x).port x.port = ((c.selectTask x).selectRec x.port
      (tileBits (c.port x.port).tag x.head x.task.arg tile resume last ops) 4 (.task (x.run.ref x.task) tile) last).port x.port := by
    simp only [Core.select, hskein, hdue, hops]
    split
    · rw [port_ndInc, port_modTask]
    · rw [port_modTask]
  obtain ⟨htime, htag⟩ := selectTask_keeps c x
  rw [hport, Core.selectRec, Core.port_setPort, htag, htime]
  exact ⟨rfl, rfl⟩

/-! The obligation -/

/-- Settles O37: the selection by the order of the keys, and the port by what the record of a TILE leaves there. -/
theorem spindleSelectsFirst : Obligations.SpindleSelectsFirst := by
  unfold Obligations.SpindleSelectsFirst
  intro s i hr hi hfirst c
  refine ⟨fun hno => ?_, fun hsome => ?_⟩
  · rw [exec_spindleSelection hr hi, spindleSelect_none hfirst hno]
    rfl
  · obtain ⟨y, hy, hleast, hselect⟩ := spindleSelect_least hfirst hsome
    refine ⟨y, hy, hleast, ?_, fun k tile resume last ops => port_select_tile⟩
    rw [exec_spindleSelection hr hi, hselect]
    rfl

end Sys2Proof.Machine
end

section
/-! PROOFS. Selection and grants (O48): the order of R193 over a token's candidates, and how R198 shares out a step's overflow pool. -/

namespace Sys2Proof.Machine

/-! The order of R193 -/

theorem length_insertFirst {α : Type} (before : α → α → Bool) (x : α) (l : List α) :
    (insertFirst before x l).length = l.length + 1 := by
  induction l with
  | nil => rfl
  | cons a r ih =>
    rw [insertFirst]
    split
    · rw [List.length_cons, ih, List.length_cons]
    · rfl

theorem length_sortBy {α : Type} (before : α → α → Bool) (l : List α) : (sortBy before l).length = l.length := by
  induction l with
  | nil => rfl
  | cons a r ih => rw [sortBy, length_insertFirst, ih, List.length_cons]

section Order
variable {α : Type} {before : α → α → Bool} (hasymm : ∀ a b, before a b = true → before b a = false)
  (htrans : ∀ a b c, before b a = false → before c b = false → before c a = false)
include hasymm htrans

/-- Insertion keeps a list in which no later element comes before an earlier one. -/
theorem pairwise_insertFirst (x : α) {l : List α} (hl : l.Pairwise fun a b => before b a = false) :
    (insertFirst before x l).Pairwise fun a b => before b a = false := by
  induction l with
  | nil => exact List.pairwise_singleton ..
  | cons a r ih =>
    obtain ⟨ha, hr⟩ := List.pairwise_cons.mp hl
    rw [insertFirst]
    split
    next h =>
      refine List.pairwise_cons.mpr ⟨fun y hy => ?_, ih hr⟩
      rcases (mem_insertFirst before x y r).mp hy with rfl | hy
      · exact hasymm _ _ h
      · exact ha y hy
    next h =>
      have hax : before a x = false := Bool.eq_false_iff.mpr h
      exact List.pairwise_cons.mpr ⟨List.forall_mem_cons.mpr ⟨hax, fun y hy => htrans _ _ _ hax (ha y hy)⟩, hl⟩

theorem pairwise_sortBy (l : List α) : (sortBy before l).Pairwise fun a b => before b a = false := by
  induction l with
  | nil => exact .nil
  | cons a r ih => exact pairwise_insertFirst hasymm htrans a ih

end Order

/-- In a list whose images are all different, elements of one image are the same. -/
theorem eq_of_nodup_map {α β : Type} {f : α → β} {l : List α} (hl : (l.map f).Nodup) {x y : α} (hx : x ∈ l) (hy : y ∈ l)
    (h : f x = f y) : x = y := by
  induction l with
  | nil => exact nomatch hx
  | cons a r ih =>
    rw [List.map_cons, List.nodup_cons] at hl
    obtain ⟨ha, hr⟩ := hl
    rcases List.mem_cons.mp hx with hxa | hxr <;> rcases List.mem_cons.mp hy with hya | hyr
    · rw [hxa, hya]
    · exact absurd (hxa ▸ h ▸ List.mem_map_of_mem hyr) ha
    · exact absurd (hya ▸ h ▸ List.mem_map_of_mem hxr) ha
    · exact ih hr hxr hyr

theorem scoreBefore_eq_true (a b : Nat × Int) : scoreBefore a b = true ↔ b.2 < a.2 ∨ (a.2 = b.2 ∧ a.1 < b.1) := by
  simp [scoreBefore]

theorem scoreBefore_eq_false (a b : Nat × Int) : scoreBefore a b = false ↔ a.2 ≤ b.2 ∧ (a.2 = b.2 → b.1 ≤ a.1) := by
  simp [scoreBefore]

/-- In the order of R193 no candidate comes before one that stands ahead of it. -/
theorem pairwise_sortBy_scoreBefore (l : List (Nat × Int)) :
    (sortBy scoreBefore l).Pairwise fun a b => scoreBefore b a = false :=
  pairwise_sortBy (fun a b => by rw [scoreBefore_eq_true, scoreBefore_eq_false]; omega)
    (fun a b c => by simp only [scoreBefore_eq_false]; omega) l

theorem length_topScores (n : Nat) (l : List (Nat × Int)) : (topScores n l).length = min n l.length := by
  rw [topScores, List.length_take, length_sortBy]

theorem mem_of_mem_topScores {n : Nat} {l : List (Nat × Int)} {x : Nat × Int} (h : x ∈ topScores n l) : x ∈ l :=
  (mem_sortBy scoreBefore x l).mp (List.mem_of_mem_take h)

/-- No candidate that is left comes before one that is selected. -/
theorem topScores_ahead {n : Nat} {l : List (Nat × Int)} {x y : Nat × Int} (hx : x ∈ topScores n l) (hy : y ∈ l)
    (hleft : y ∉ topScores n l) : scoreBefore y x = false := by
  have hsorted := pairwise_sortBy_scoreBefore l
  rw [← List.take_append_drop n (sortBy scoreBefore l), List.pairwise_append] at hsorted
  obtain ⟨-, -, hacross⟩ := hsorted
  have hy' : y ∈ (sortBy scoreBefore l).take n ++ (sortBy scoreBefore l).drop n := by
    rw [List.take_append_drop]; exact (mem_sortBy scoreBefore y l).mpr hy
  exact hacross x hx y ((List.mem_append.mp hy').resolve_left hleft)

/-- Of two different experts the one that does not come later comes first. -/
theorem topScores_first {n : Nat} {l : List (Nat × Int)} {x y : Nat × Int} (hl : (l.map Prod.fst).Nodup)
    (hx : x ∈ topScores n l) (hy : y ∈ l) (hleft : y ∉ topScores n l) : y.2 < x.2 ∨ (x.2 = y.2 ∧ x.1 < y.1) := by
  have hne : x.1 ≠ y.1 := fun h => hleft (eq_of_nodup_map hl (mem_of_mem_topScores hx) hy h ▸ hx)
  obtain ⟨hle, htie⟩ := (scoreBefore_eq_false y x).mp (topScores_ahead hx hy hleft)
  omega

/-! The shares of the pool (R198) -/

/-- What is left of the pool goes to the first experts that still overflow, one token to each. -/
theorem sum_spreadRest (n : Nat) (l : List (Nat × Nat)) :
    (spreadRest n l).sum = (l.map Prod.snd).sum + min n (l.countP fun x => decide (x.2 < x.1)) := by
  induction l generalizing n with
  | nil => simp [spreadRest]
  | cons x r ih =>
    cases n with
    | zero => simp [spreadRest, ih]
    | succ n =>
      rw [spreadRest]
      by_cases h : x.2 < x.1
      · rw [if_pos h, List.sum_cons, ih, List.map_cons, List.sum_cons, List.countP_cons_of_pos (by simpa using h)]
        omega
      · rw [if_neg h, List.sum_cons, ih, List.map_cons, List.sum_cons, List.countP_cons_of_neg (by simpa using h)]
        omega

theorem length_spreadRest (n : Nat) (l : List (Nat × Nat)) : (spreadRest n l).length = l.length := by
  induction l generalizing n with
  | nil => simp [spreadRest]
  | cons x r ih =>
    cases n with
    | zero => simp [spreadRest, ih]
    | succ n => rw [spreadRest]; split <;> simp [ih]

/-- No expert gets more than overflows, where no share is more than that. -/
theorem spreadRest_le {l : List (Nat × Nat)} (hl : ∀ x ∈ l, x.2 ≤ x.1) (n i : Nat) :
    (spreadRest n l).getD i 0 ≤ (l.map Prod.fst).getD i 0 := by
  induction l generalizing n i with
  | nil => simp [spreadRest]
  | cons x r ih =>
    obtain ⟨hx, hr⟩ := List.forall_mem_cons.mp hl
    have hhead : ∃ y m, y ≤ x.1 ∧ spreadRest n (x :: r) = y :: spreadRest m r := by
      cases n with
      | zero => exact ⟨_, 0, hx, rfl⟩
      | succ n =>
        rw [spreadRest]
        split
        next h => exact ⟨_, n, h, rfl⟩
        next => exact ⟨_, n + 1, hx, rfl⟩
    obtain ⟨y, m, hy, heq⟩ := hhead
    rw [heq]
    cases i with
    | zero => simpa using hy
    | succ i => simpa using ih hr m i

/-- The share of the pool that falls to an expert by its part of what overflows. -/
def poolShare (pool over_ x : Nat) : Nat := pool * x / over_

theorem poolShare_le {pool o : Nat} (h : pool < o) (x : Nat) : poolShare pool o x ≤ x := by
  rw [poolShare, Nat.div_le_iff_le_mul_add_pred (by omega)]
  exact Nat.le_add_right_of_le (Nat.mul_le_mul_right x (Nat.le_of_lt h))

/-- Only where the pool covers less than what overflows, every expert that overflows still does after its share. -/
theorem poolShare_lt_iff {pool o : Nat} (h : pool < o) (x : Nat) : poolShare pool o x < x ↔ 0 < x := by
  refine ⟨fun hx => by omega, fun hx => ?_⟩
  rw [poolShare, Nat.div_lt_iff_lt_mul (by omega), Nat.mul_comm x]
  exact Nat.mul_lt_mul_of_pos_right h hx

/-- The shares take no more than the pool, and leave less of it than there are experts that overflow. -/
theorem sum_poolShare {o : Nat} (pool : Nat) (ho : 0 < o) (l : List Nat) :
    o * (l.map (poolShare pool o)).sum ≤ pool * l.sum
    ∧ pool * l.sum ≤ o * ((l.map (poolShare pool o)).sum + l.countP fun x => decide (0 < x)) := by
  induction l with
  | nil => simp
  | cons x r ih =>
    obtain ⟨hlow, hhigh⟩ := ih
    have hshare : o * poolShare pool o x ≤ pool * x := Nat.mul_div_le _ _
    have hrest : pool * x ≤ o * (poolShare pool o x + if 0 < x then 1 else 0) := by
      split
      next => exact Nat.le_of_lt (Nat.lt_mul_div_succ _ ho)
      next hx => rw [Nat.eq_zero_of_not_pos hx]; exact Nat.zero_le _
    simp only [List.map_cons, List.sum_cons, List.countP_cons, decide_eq_true_eq, Nat.mul_add] at hhigh hrest ⊢
    omega

theorem grants_covered {pool : Nat} {l : List Nat} (h : l.sum ≤ pool) : grants pool l = l :=
  if_pos (List.sum_eq_foldl (xs := l) ▸ h)

/-- A pool that does not cover what overflows is shared out, and its rest spread. -/
theorem grants_shared {pool : Nat} {l : List Nat} (h : pool < l.sum) : grants pool l
    = spreadRest (pool - (l.map (poolShare pool l.sum)).sum) (l.map fun x => (x, poolShare pool l.sum x)) := by
  simp only [grants, ← List.sum_eq_foldl]
  rw [if_neg (Nat.not_le.mpr h)]
  congr 1
  have hzip := List.zip_map' (f := id) (g := poolShare pool l.sum) (l := l)
  rwa [List.map_id] at hzip

/-- The grants use the pool up where it does not cover what overflows. -/
theorem sum_grants {pool : Nat} {l : List Nat} (h : pool < l.sum) : (grants pool l).sum = pool := by
  have ho : 0 < l.sum := by omega
  obtain ⟨hlow, hhigh⟩ := sum_poolShare pool ho l
  rw [Nat.mul_comm pool] at hlow hhigh
  have hle := Nat.le_of_mul_le_mul_left hlow ho
  have hge := Nat.le_of_mul_le_mul_left hhigh ho
  rw [grants_shared h, sum_spreadRest, List.map_map, List.countP_map]
  have hcount : (fun x : Nat × Nat => decide (x.2 < x.1)) ∘ (fun x => (x, poolShare pool l.sum x)) = fun x => decide (0 < x) :=
    funext fun x => by simp [poolShare_lt_iff h]
  have hshares : (l.map (Prod.snd ∘ fun x => (x, poolShare pool l.sum x))).sum = (l.map (poolShare pool l.sum)).sum := rfl
  rw [hcount, hshares]
  omega

theorem length_grants (pool : Nat) (l : List Nat) : (grants pool l).length = l.length := by
  rcases Nat.lt_or_ge pool l.sum with h | h
  · rw [grants_shared h, length_spreadRest, List.length_map]
  · rw [grants_covered h]

theorem grants_le (pool : Nat) (l : List Nat) (i : Nat) : (grants pool l).getD i 0 ≤ l.getD i 0 := by
  rcases Nat.lt_or_ge pool l.sum with h | h
  · have hshares : ∀ x ∈ l.map fun x => (x, poolShare pool l.sum x), x.2 ≤ x.1 :=
      List.forall_mem_map.mpr fun x _ => poolShare_le h x
    have hle := spreadRest_le hshares (pool - (l.map (poolShare pool l.sum)).sum) i
    have hfst : (l.map fun x => (x, poolShare pool l.sum x)).map Prod.fst = l := by simp [Function.comp_def]
    rwa [hfst, ← grants_shared h] at hle
  · exact Nat.le_of_eq (by rw [grants_covered h])

/-! The obligation -/

/-- Settles O48: the selection by the order of R193, the grants by what the shares of the pool leave of it. -/
theorem routingSelectsAndGrants : Obligations.RoutingSelectsAndGrants := by
  unfold Obligations.RoutingSelectsAndGrants
  refine ⟨fun n l hl => ⟨length_topScores n l, fun x => mem_of_mem_topScores, fun x y => topScores_first hl⟩, fun pool l => ?_⟩
  rw [← List.sum_eq_foldl, ← List.sum_eq_foldl]
  exact ⟨grants_covered, sum_grants, length_grants pool l, grants_le pool l⟩

end Sys2Proof.Machine
end

section
/-! PROOFS. Contributions from other chips and slot registers (O51): where a contribution goes, what a dropped one leaves, and the words
of a slot. -/

namespace Sys2Proof.Machine

/-! The frame (R268) -/

/-- A frame that carries a contribution. -/
def Payload.isPly (p : Payload) : Bool := match p with | .ply _ => true | _ => false

/-- A contribution that has arrived is dealt with as its key says. -/
theorem exec_plyFrame {s : State} {a : Arrival} {c : Core} {f : Frame} {m : PlyMsg} (hr : s.running = true) (ha : a.wf = true)
    (harr : s.core.arrive Payload.isPly a = (c, some f)) (hf : f.payload = .ply m) :
    exec (.plyFrame a) s = .next (s.withCore (c.plyIn f.src m)) := by
  change execPlyFrame a s = _
  rw [execPlyFrame, if_pos ha, onRun_running hr]
  congr 2
  split
  next d g h =>
    obtain ⟨rfl, hg⟩ := Prod.mk.inj (harr.symm.trans h)
    obtain rfl := Option.some.inj hg
    simp only [hf]
  next d h => exact nomatch (Prod.mk.inj (harr.symm.trans h)).2

section Arrived
variable {c : Core} {src : Nat} {m : PlyMsg} {e : GroupEnt}

/-- What a contribution that has arrived in the present DCLK is held as. -/
def Core.cameFrom (c : Core) (src : Nat) (m : PlyMsg) : PlyHeld := { msg := m, src := some src, since := c.dclk }

theorem plyIn_slot (he : c.groupEnt m.key.group = some e) (hk : m.key.isTable = false) :
    c.plyIn src m = c.slotIn (c.cameFrom src m) e := by
  simp only [Core.plyIn, he, hk]; rfl

theorem plyIn_table (he : c.groupEnt m.key.group = some e) (hk : m.key.isTable = true) :
    c.plyIn src m = c.tableIn (c.cameFrom src m) e := by
  simp only [Core.plyIn, he, hk]; rfl

end Arrived

section Slot
variable {c : Core} {h : PlyHeld} {e : GroupEnt}

/-- A contribution whose key names a valid slot of its group. -/
def Core.namesSlot (c : Core) (m : PlyMsg) (e : GroupEnt) : Prop :=
  bitAt (c.slotWord e.ctx m.key.slot 0) 63 = true ∧ (c.slot e.ctx m.key.slot).group = m.key.group

theorem slotIn_named (hs : c.namesSlot h.msg e) : c.slotIn h e
    = if h.msg.key.gen ≠ (c.collRun e.ctx h.msg.key.slot).gen then c.plyDrop e.ctx false
      else if h.msg.params ≠ plyParams (c.slot e.ctx h.msg.key.slot) e then c.plyDrop e.ctx true
      else c.plyAccept e.ctx (c.collRun e.ctx h.msg.key.slot).taking h := by
  obtain ⟨hvalid, hgroup⟩ := hs
  exact if_neg (by simp [hvalid, hgroup])

section Accepted
variable (hs : c.namesSlot h.msg e) (hgen : h.msg.key.gen = (c.collRun e.ctx h.msg.key.slot).gen)
  (hparams : h.msg.params = plyParams (c.slot e.ctx h.msg.key.slot) e)
include hs hgen hparams

theorem slotIn_accepted : c.slotIn h e = c.plyAccept e.ctx (c.collRun e.ctx h.msg.key.slot).taking h := by
  rw [slotIn_named hs, if_neg (not_not_intro hgen), if_neg (not_not_intro hparams)]

/-- A collective from EXCHANGE on takes its contributions. -/
theorem slotIn_taken (hst : (c.collRun e.ctx h.msg.key.slot).st = .exchange ∨ (c.collRun e.ctx h.msg.key.slot).st = .write
      ∨ (c.collRun e.ctx h.msg.key.slot).st = .done) : c.slotIn h e = c.plyTake e.ctx h := by
  rw [slotIn_accepted hs hgen hparams]
  refine if_pos ?_
  rcases hst with hst | hst | hst <;> simp [CollRun.taking, hst]

/-- A contribution to a collective that has not come so far is held for it. -/
theorem slotIn_held (hst : (c.collRun e.ctx h.msg.key.slot).st = .idle ∨ (c.collRun e.ctx h.msg.key.slot).st = .loc) :
    c.slotIn h e = c.holdPly h := by
  rw [slotIn_accepted hs hgen hparams]
  refine if_neg ?_
  rcases hst with hst | hst <;> simp [CollRun.taking, hst]

end Accepted

/-- A contribution of another generation is dropped as such, and one with other parameters as a mismatch. -/
theorem slotIn_dropped (hs : c.namesSlot h.msg e) (hbad : h.msg.key.gen ≠ (c.collRun e.ctx h.msg.key.slot).gen
      ∨ h.msg.params ≠ plyParams (c.slot e.ctx h.msg.key.slot) e) :
    c.slotIn h e = c.plyDrop e.ctx (decide (h.msg.key.gen = (c.collRun e.ctx h.msg.key.slot).gen)) := by
  rw [slotIn_named hs]
  by_cases hgen : h.msg.key.gen = (c.collRun e.ctx h.msg.key.slot).gen
  · rw [if_neg (not_not_intro hgen), if_pos (hbad.resolve_left (not_not_intro hgen)), decide_eq_true hgen]
  · rw [if_pos hgen, decide_eq_false hgen]

theorem tableIn_accepted {t : MoeTable} (ht : (c.table h.msg.key.slot).tab = some t) (hctx : t.ctx = e.ctx)
    (hgroup : t.plyGroup = h.msg.key.group) (hgen : h.msg.key.gen = (c.table h.msg.key.slot).gen)
    (hparams : h.msg.params = moeParams t e) : c.tableIn h e = c.plyAccept e.ctx (c.table h.msg.key.slot).taking h := by
  simp only [Core.tableIn, ht]
  rw [if_neg (by simp [hctx, hgroup]), if_neg (not_not_intro hgen), if_neg (not_not_intro hparams)]

end Slot

/-! What a drop leaves (R268, R272) -/

/-- A flag of a Ply page changes the page, the log, and what is kept of sets. -/
theorem setPlyFlag_changes (c : Core) (n bit : Nat) : ∃ e w l, c.setPlyFlag n bit
    = { c.setPlyPage n { c.plyPage n with flags := setBit (c.plyPage n).flags bit true } with evt := e, watch := w, sets := l } := by
  unfold Core.setPlyFlag Core.logUnit
  exact log_changes ..

/-- A page that has counted a dropped contribution and bears a flag. -/
def PlyPage.dropped (g : PlyPage) (bit : Nat) : PlyPage :=
  { g with cnt1 := satAdd g.cnt1 0 32 1, flags := setBit g.flags bit true }

/-- A dropped contribution: its count and its flag on the page of its context, and the record of the flag. -/
theorem plyDrop_changes (c : Core) (n : Nat) (mismatch : Bool) : ∃ e w l, c.plyDrop n mismatch
    = { c.setPlyPage n ((c.plyPage n).dropped (if mismatch then 6 else 5)) with evt := e, watch := w, sets := l } := by
  obtain ⟨e, w, l, h⟩ := setPlyFlag_changes
    (c.setPlyPage n { c.plyPage n with cnt1 := satAdd (c.plyPage n).cnt1 0 32 1 }) n (if mismatch then 6 else 5)
  refine ⟨e, w, l, h.trans ?_⟩
  rw [Core.plyPage_setPlyPage, Core.setPlyPage, Core.setPlyPage, aset_aset]
  rfl

theorem plyPage_plyDrop (c : Core) (n : Nat) (mismatch : Bool) :
    (c.plyDrop n mismatch).plyPage n = (c.plyPage n).dropped (if mismatch then 6 else 5) := by
  obtain ⟨e, w, l, h⟩ := plyDrop_changes c n mismatch
  rw [h]
  exact Core.plyPage_setPlyPage ..

theorem plyPage_plyDrop_other (c : Core) {n j : Nat} (mismatch : Bool) (hj : j ≠ n) :
    (c.plyDrop n mismatch).plyPage j = c.plyPage j := by
  obtain ⟨e, w, l, h⟩ := plyDrop_changes c n mismatch
  rw [h]
  exact Core.plyPage_setPlyPage_other _ _ _ _ hj

theorem plyDrop_keeps (c : Core) (n : Nat) (mismatch : Bool) :
    (c.plyDrop n mismatch).fab = c.fab ∧ (c.plyDrop n mismatch).mem = c.mem ∧ (c.plyDrop n mismatch).graph = c.graph := by
  obtain ⟨e, w, l, h⟩ := plyDrop_changes c n mismatch
  rw [h]
  exact ⟨rfl, rfl, rfl⟩

theorem dropped_count (g : PlyPage) (bit : Nat) : fld (g.dropped bit).cnt1 0 32 = min (fld g.cnt1 0 32 + 1) (2 ^ 32 - 1) :=
  fld_satAdd_self _ _ (by omega)

theorem dropped_flag (g : PlyPage) {bit : Nat} (h : bit < 64) : bitAt (g.dropped bit).flags bit = true :=
  bitAt_setBit_self _ _ h

/-! What is only held -/

theorem plyTake_root {h : PlyHeld} {sg : Nat} {nan ovf : Bool} {l : List Partial} (c : Core) (ctx : Nat)
    (hd : h.msg.data = .root sg nan ovf l) : c.plyTake ctx h = c.holdPly h := by
  rw [Core.plyTake, hd]

theorem plyTake_leaf {h : PlyHeld} {i len : Nat} {present : Bool} {bs : List Byte} {idx : List W64} (c : Core) (ctx : Nat)
    (hd : h.msg.data = .leaf i present len bs idx) : c.plyTake ctx h = c.holdPly h := by
  rw [Core.plyTake, hd]

theorem plyTake_frag {h : PlyHeld} {v i sg : Nat} {nan ovf : Bool} {l : List Partial} {c : Core} (ctx : Nat)
    (hd : h.msg.data = .frag v i sg nan ovf l)
    (hnew : ((c.heldFor h.msg.key h.msg.params).any fun x => x.isNode v i sg) = false) (htop : plyTop h.msg = false)
    (hover : (c.holdPly h).nodeOver h.msg = none) : c.plyTake ctx h = c.holdPly h := by
  simp only [Core.plyTake, hd, hnew, htop, hover]
  rfl

/-! Slot registers (R255) -/

/-- A core with a word of a slot set. -/
def Core.withSlotWord (c : Core) (n k m : Nat) (w : W64) : Core :=
  c.setPlyPage n { c.plyPage n with slots := aset (c.plyPage n).slots k (aset (agetD (c.plyPage n).slots k []) m w) }

theorem slotWord_withSlotWord (c : Core) (n k m : Nat) (w : W64) : (c.withSlotWord n k m w).slotWord n k m = w := by
  rw [Core.slotWord, Core.withSlotWord, Core.plyPage_setPlyPage, agetD_aset_self, agetD_aset_self]

theorem slotWord_withSlotWord_other (c : Core) {n k m j i : Nat} (w : W64) (h : ¬(j = k ∧ i = m)) :
    (c.withSlotWord n k m w).slotWord n j i = c.slotWord n j i := by
  rw [Core.slotWord, Core.withSlotWord, Core.plyPage_setPlyPage]
  by_cases hj : j = k
  · subst hj
    rw [agetD_aset_self, agetD_aset_other _ _ _ _ _ fun hi => h ⟨rfl, hi⟩]
    rfl
  · rw [agetD_aset_other _ _ _ _ _ hj]
    rfl

theorem exec_plySlot {s : State} {n k m : Nat} {acc : Access} (v : W64) (hn : n < 64) (hk : k < 64) (hm : m < 8)
    (hs : s.served (0x1C00000 + 0x10000 * n + 64 * k + 8 * m) acc = true) (hfree : s.core.noRuns n = true) :
    exec (.plySlot n k m v acc) s = .next (s.withCore (s.core.withSlotWord n k m (v &&& slotMask m))) := by
  change execPlySlot n k m v acc s = _
  rw [execPlySlot, if_pos ⟨hn, hk, hm⟩]
  exact onWrite_taken hs (if_pos hfree)

/-! The obligation -/

/-- Settles O51: the frame by the state of the slot or table it names, what is only held by its kind, and the slot register by its word. -/
theorem contributionsAndSlots : Obligations.ContributionsAndSlots := by
  unfold Obligations.ContributionsAndSlots
  refine ⟨?_, ?_, ?_⟩
  · intro s a c f m e hr ha harr hf he h
    have hexec := exec_plyFrame hr ha harr hf
    refine ⟨?_, ?_⟩
    · intro hk hvalid hgroup x
      rw [plyIn_slot he hk] at hexec
      have hs : c.namesSlot (c.cameFrom f.src m).msg e := ⟨hvalid, hgroup⟩
      refine ⟨fun hgen hparams => ⟨fun hst => ?_, fun hst => ?_⟩, fun hbad => ?_⟩
      · rw [hexec, slotIn_taken hs hgen hparams hst]; rfl
      · rw [hexec, slotIn_held hs hgen hparams hst]; rfl
      · have hdrop : c.slotIn (c.cameFrom f.src m) e = c.plyDrop e.ctx (decide (m.key.gen = x.gen)) := slotIn_dropped hs hbad
        rw [hdrop] at hexec
        obtain ⟨hfab, hmem, hgraph⟩ := plyDrop_keeps c e.ctx (decide (m.key.gen = x.gen))
        refine ⟨_, hexec, congrArg Fabric.plyHeld hfab, ?_, fun hgen => ?_, fun hgen => ?_,
          fun j hj => plyPage_plyDrop_other c _ hj, hmem, hgraph⟩ <;> rw [State.withCore_core, plyPage_plyDrop]
        · exact dropped_count ..
        · rw [if_neg (mt of_decide_eq_true hgen)]; exact dropped_flag _ (by omega)
        · rw [if_pos (decide_eq_true hgen)]; exact dropped_flag _ (by omega)
    · intro t hk ht hctx hgroup hgen hparams
      rw [hexec, plyIn_table he hk, tableIn_accepted ht hctx hgroup hgen hparams]
      rfl
  · exact fun c ctx h => ⟨fun _ _ _ _ => plyTake_root c ctx, fun _ _ _ _ _ => plyTake_leaf c ctx,
      fun _ _ _ _ _ _ => plyTake_frag ctx⟩
  · intro s n k m v acc hn hk hm hs hfree
    exact ⟨_, exec_plySlot v hn hk hm hs hfree, slotWord_withSlotWord .., fun j i => slotWord_withSlotWord_other _ _,
      fun j hj => Core.plyPage_setPlyPage_other _ _ _ _ hj, rfl, rfl⟩

end Sys2Proof.Machine
end

section
/-! PROOFS. The states of a routing step (O49): what an exchange sends and what stays as it was, the decision, its writes, the commit, and
what a step leaves when it is ROUTED. -/

namespace Sys2Proof.Machine

/-! What a collective's traffic changes (R253, R256) -/

/-- A core that differs in the fabric's part and in the counts of frames. -/
def SentFrom (c d : Core) : Prop := ∃ f k, d = { c with fab := f, clip := k }

theorem SentFrom.refl (c : Core) : SentFrom c c := ⟨c.fab, c.clip, rfl⟩

theorem SentFrom.trans {c d e : Core} (h : SentFrom c d) (k : SentFrom d e) : SentFrom c e := by
  obtain ⟨f, i, rfl⟩ := h
  obtain ⟨g, j, rfl⟩ := k
  exact ⟨g, j, rfl⟩

theorem SentFrom.foldl {α : Type} {step : Core → α → Core} (hstep : ∀ d x, SentFrom d (step d x)) (l : List α) (c : Core) :
    SentFrom c (l.foldl step c) :=
  List.foldlRecOn l step (.refl c) fun d h x _ => h.trans (hstep d x)

theorem SentFrom.keeps {c d : Core} (h : SentFrom c d) :
    (∀ t, d.table t = c.table t) ∧ d.mem = c.mem ∧ d.graph = c.graph ∧ d.queues = c.queues := by
  obtain ⟨f, k, rfl⟩ := h
  exact ⟨fun _ => rfl, rfl, rfl, rfl⟩

theorem sentFrom_holdPly (c : Core) (h : PlyHeld) : SentFrom c (c.holdPly h) := ⟨_, c.clip, rfl⟩

theorem sentFrom_sendFrame (c : Core) (ctx l : Nat) (p : Payload) : SentFrom c (c.sendFrame ctx l p) := by
  have hcount : SentFrom c (if payCounted p && c.bound ctx then { c with clip := { c.clip with tx := c.clip.tx + 1 } } else c) := by
    split
    · exact ⟨c.fab, _, rfl⟩
    · exact .refl c
  rw [Core.sendFrame]
  dsimp only
  generalize (if payCounted p && c.bound ctx then { c with clip := { c.clip with tx := c.clip.tx + 1 } } else c) = d at hcount ⊢
  refine hcount.trans ?_
  split
  · exact ⟨_, d.clip, rfl⟩
  · exact ⟨_, d.clip, rfl⟩

theorem sentFrom_plyAll (c : Core) (ctx : Nat) (m : PlyMsg) : SentFrom c (c.plyAll ctx m) :=
  (sentFrom_holdPly c _).trans (.foldl (fun d l => sentFrom_sendFrame d ctx l _) _ _)

theorem sentFrom_plyDown (n : Nat) (c : Core) (ctx : Nat) (m : PlyMsg) (v i seg : Nat) (p : NodeVec) :
    SentFrom c (Core.plyDown n c ctx m v i seg p) := by
  induction n generalizing c m v i seg p with
  | zero => exact .refl c
  | succ n ih =>
    rw [Core.plyDown]
    dsimp only
    split
    next => exact sentFrom_holdPly c _
    next =>
      split
      next =>
        refine .foldl (fun d x => ?_) _ c
        split
        next => exact ih ..
        next =>
          split
          next => exact sentFrom_sendFrame ..
          next => exact .refl d
      next => exact .refl c

theorem sentFrom_plyRoot (c : Core) (ctx : Nat) (m : PlyMsg) : SentFrom c (c.plyRoot ctx m) := by
  rw [Core.plyRoot]
  split
  next =>
    dsimp only
    split
    next => exact (sentFrom_plyAll ..).trans (sentFrom_plyDown ..)
    next => exact sentFrom_plyAll ..
  next => exact .refl c

theorem sentFrom_plyUp (n : Nat) (c : Core) (ctx : Nat) (m : PlyMsg) : SentFrom c (Core.plyUp n c ctx m) := by
  induction n generalizing c m with
  | zero => exact .refl c
  | succ n ih =>
    rw [Core.plyUp]
    split
    next => exact sentFrom_sendFrame ..
    next =>
      refine (sentFrom_holdPly c (c.ownPly m)).trans ?_
      dsimp only
      split
      next => exact sentFrom_plyRoot ..
      next =>
        split
        next => exact ih ..
        next => exact .refl _

theorem sentFrom_plyTake (c : Core) (ctx : Nat) (h : PlyHeld) : SentFrom c (c.plyTake ctx h) := by
  rw [Core.plyTake]
  split
  next =>
    split
    next => exact .refl c
    next =>
      refine (sentFrom_holdPly c h).trans ?_
      dsimp only
      split
      next => exact sentFrom_plyRoot ..
      next =>
        split
        next => exact sentFrom_plyUp ..
        next => exact .refl _
  next => exact sentFrom_holdPly ..
  next => exact sentFrom_plyDown ..
  next => exact sentFrom_holdPly ..

/-- A collective that enters EXCHANGE changes the fabric's part and the counts of frames alone. -/
theorem sentFrom_plyEnter (c : Core) (ctx : Nat) (key : PlyKey) (params : PlyParams) (mine : List PlyData) :
    SentFrom c (c.plyEnter ctx key params mine) := by
  have htaken : SentFrom c { c with fab := { c.fab with
      plyHeld := c.fab.plyHeld.filter fun h => !(h.msg.key == key && h.msg.params == params) } } := ⟨_, c.clip, rfl⟩
  refine htaken.trans ((SentFrom.foldl (fun d h => sentFrom_plyTake d ctx h) _ _).trans (.foldl (fun d x => ?_) _ _))
  cases x with
  | frag => exact sentFrom_plyUp ..
  | root => exact sentFrom_plyAll ..
  | below => exact sentFrom_plyAll ..
  | leaf => exact sentFrom_plyAll ..

/-! LOCAL to EXCHANGE (R196, R259) -/

section Step
variable {s : State} {t : Nat}

theorem exec_stepExchange (ht : t < 64) (hr : s.running = true) :
    exec (.stepExchange t) s = .next (s.withCore (s.core.stepExchange t)) := by
  change execStepExchange t s = _
  rw [execStepExchange, if_pos ht, onRun_running hr]

theorem exec_stepDecide (ht : t < 64) (hr : s.running = true) :
    exec (.stepDecide t) s = .next (s.withCore (s.core.stepDecide t)) := by
  change execStepDecide t s = _
  rw [execStepDecide, if_pos ht, onRun_running hr]

theorem exec_stepRouted (ht : t < 64) (hr : s.running = true) :
    exec (.stepRouted t) s = .next (s.withCore (s.core.stepRoute t)) := by
  change execStepRouted t s = _
  rw [execStepRouted, if_pos ht, onRun_running hr]

end Step

/-- A step with what its LOCAL made. -/
def Core.localDone (c : Core) (t : Nat) (w1 : StepWork) : Core := c.setTable t { c.table t with work := some w1 }

/-- A step in EXCHANGE with what its LOCAL made. -/
def Core.inExchange (c : Core) (t : Nat) (w1 : StepWork) : Core :=
  (c.localDone t w1).setTable t { c.table t with st := .exchange, work := some { w1 with sinceAt := c.dclk } }

theorem table_inExchange (c : Core) (t : Nat) (w1 : StepWork) :
    (c.inExchange t w1).table t = { c.table t with st := .exchange, work := some { w1 with sinceAt := c.dclk } } :=
  Core.table_setTable ..

/-- What a step sends: it enters EXCHANGE, and where its group has an entry its count vector goes out. -/
theorem stepSend_localDone (c : Core) (t : Nat) (tb : MoeTable) (w1 : StepWork) : (c.localDone t w1).stepSend t tb w1
    = (((c.localDone t w1).groupFor tb.plyGroup tb.ctx).map fun g =>
        (c.inExchange t w1).plyEnter tb.ctx (c.moeKey t tb) (moeParams tb g) (moeFrags tb g w1.vec)).getD (c.inExchange t w1) := by
  have hkey : (c.localDone t w1).moeKey t tb = c.moeKey t tb := by
    rw [Core.moeKey, Core.localDone, Core.table_setTable]; rfl
  have hpage : (c.localDone t w1).setTable t { (c.localDone t w1).table t with
      st := .exchange, work := some { w1 with sinceAt := (c.localDone t w1).dclk } } = c.inExchange t w1 := by
    rw [Core.inExchange, Core.localDone, Core.table_setTable]; rfl
  have hgroup : (c.inExchange t w1).groupFor tb.plyGroup tb.ctx = (c.localDone t w1).groupFor tb.plyGroup tb.ctx := rfl
  rw [Core.stepSend, hkey, hpage, hgroup]
  cases (c.localDone t w1).groupFor tb.plyGroup tb.ctx <;> rfl

section Table
variable {c : Core} {t : Nat} {tb : MoeTable} {w : StepWork} (htab : (c.table t).tab = some tb) (hwork : (c.table t).work = some w)
include htab hwork

section Local
variable {w1 : StepWork} (hst : (c.table t).st = .loc)
  (hlocal : (if w.ready then .ok w else c.localPass tb w) = .ok w1)
include hst hlocal

/-- A step that LOCAL has finished sends, if its turn has come, or waits with what LOCAL made. -/
theorem stepExchange_local : c.stepExchange t
    = if (c.localDone t w1).collFirst (.inr t) then (c.localDone t w1).stepSend t tb w1 else c.localDone t w1 := by
  simp only [Core.stepExchange, Core.localDone, htab, hwork, hst, hlocal]
  exact if_neg (not_not_intro rfl)

theorem stepExchange_waits (hwait : (c.localDone t w1).collFirst (.inr t) = false) : c.stepExchange t = c.localDone t w1 := by
  rw [stepExchange_local htab hwork hst hlocal, if_neg (Bool.not_eq_true _ ▸ hwait)]

theorem stepExchange_turn (hturn : (c.localDone t w1).collFirst (.inr t) = true) :
    c.stepExchange t = (c.localDone t w1).stepSend t tb w1 := by
  rw [stepExchange_local htab hwork hst hlocal, if_pos hturn]

theorem stepExchange_ungrouped (hturn : (c.localDone t w1).collFirst (.inr t) = true)
    (hg : (c.localDone t w1).groupFor tb.plyGroup tb.ctx = none) : c.stepExchange t = c.inExchange t w1 := by
  rw [stepExchange_turn htab hwork hst hlocal hturn, stepSend_localDone, hg]; rfl

theorem stepExchange_sends {g : GroupEnt} (hturn : (c.localDone t w1).collFirst (.inr t) = true)
    (hg : (c.localDone t w1).groupFor tb.plyGroup tb.ctx = some g) : c.stepExchange t
    = (c.inExchange t w1).plyEnter tb.ctx (c.moeKey t tb) (moeParams tb g) (moeFrags tb g w1.vec) := by
  rw [stepExchange_turn htab hwork hst hlocal hturn, stepSend_localDone, hg]; rfl

end Local

/-! DECIDE (R198, R199) -/

/-- A step of which Ply has given an answer: its totals, and the counts below this chip's run. -/
def StepWork.answered (w : StepWork) (p : PlyParams) (g : GroupEnt) (hs : List PlyHeld) (now : Nat) : StepWork :=
  { w with totals := countsOf (rootVec p hs), below := countsOf (prefixVec p hs g.run), sinceAt := now }

/-- A step that has decided from its totals and the counts below. -/
def StepWork.decided (w : StepWork) (d : StepBlock × List (List (W32 × Nat))) : StepWork :=
  { w with block := some d.1, lists := d.2 }

section Answer
variable {g : GroupEnt} (hg : c.groupFor tb.plyGroup tb.ctx = some g)
include hg

/-- With the answer here the block and the lists are fixed. -/
theorem stepDecide_answered (hst : (c.table t).st = .exchange)
    (hans : moeAnswered tb g (c.heldFor (c.moeKey t tb) (moeParams tb g)) = true) :
    let w1 := w.answered (moeParams tb g) g (c.heldFor (c.moeKey t tb) (moeParams tb g)) c.dclk
    c.stepDecide t = c.setTable t { c.table t with
      st := .decide, work := some (w1.decided (tb.decide_ (c.table t).gen w w1.totals w1.below)) } := by
  simp only [Core.stepDecide, htab, hwork, hg]
  exact if_pos ⟨hst, hans⟩

theorem stepDecide_unanswered (hans : moeAnswered tb g (c.heldFor (c.moeKey t tb) (moeParams tb g)) = false) :
    c.stepDecide t = c := by
  simp only [Core.stepDecide, htab, hwork, hg]
  exact if_neg fun h => Bool.false_ne_true (hans ▸ h.2)

end Answer

theorem decideWrite_plain {b : StepBlock} (hst : (c.table t).st = .decide) (hw : w.sinceAt = c.dclk) (hb : w.block = some b)
    (hstats : tb.statsAt = none) : c.decideWrite t
    = (c.reelWrite tb.dispAt (dispBytes (c.table t).gen w.lists).1 (.stepWrite t)).reelWrite (tb.dispAt + tb.dirEnd)
        (dispBytes (c.table t).gen w.lists).2 (.stepWrite t) := by
  simp only [Core.decideWrite, htab, hwork, hb, hstats]
  exact if_pos ⟨hst, hw⟩

end Table

/-! COMMIT (R191) -/

theorem exec_stepCommit {s : State} {t : Nat} {w : StepWork} (ht : t < 64) (hr : s.running = true)
    (hwork : (s.core.table t).work = some w) (hst : (s.core.table t).st = .decide)
    (hacked : (s.core.reelServing fun x => x == .stepWrite t) = false) (hlater : w.sinceAt < s.core.dclk) :
    exec (.stepCommit t) s = .next (s.withCore (s.core.setTable t { s.core.table t with
      st := .commit, work := some { w with sinceAt := s.core.dclk } })) := by
  change execStepCommit t s = _
  have hgo : (s.core.table t).st = .decide ∧ (!s.core.reelServing fun x => x == .stepWrite t) = true
      ∧ ((s.core.table t).work.any fun w => w.sinceAt < s.core.dclk) = true := by
    simp [hst, hacked, hwork, hlater]
  rw [execStepCommit, if_pos ht, onRun_running hr, if_pos hgo, hwork]
  rfl

/-! ROUTED (R190, R205, R208) -/

/-- A core that differs in the page of a table, whose state and history stand, and in what the records of flags change. -/
structure CountedFrom (t : Nat) (c d : Core) : Prop where
  changes : ∃ ts e w l, d = { c with moe := { c.moe with tables := ts }, evt := e, watch := w, sets := l }
  st      : (d.table t).st = (c.table t).st
  hist    : (d.table t).hist = (c.table t).hist
  others  : ∀ j, j ≠ t → d.table j = c.table j

theorem CountedFrom.refl (t : Nat) (c : Core) : CountedFrom t c c :=
  ⟨⟨c.moe.tables, c.evt, c.watch, c.sets, rfl⟩, rfl, rfl, fun _ _ => rfl⟩

theorem CountedFrom.trans {t : Nat} {c d e : Core} (h : CountedFrom t c d) (k : CountedFrom t d e) : CountedFrom t c e where
  changes := by
    obtain ⟨_, _, _, _, hd⟩ := h.changes
    obtain ⟨ts, v, w, l, he⟩ := k.changes
    rw [hd] at he
    exact ⟨ts, v, w, l, he⟩
  st := k.st.trans h.st
  hist := k.hist.trans h.hist
  others j hj := (k.others j hj).trans (h.others j hj)

theorem CountedFrom.keeps {t : Nat} {c d : Core} (h : CountedFrom t c d) :
    d.moe.maps = c.moe.maps ∧ d.mem = c.mem ∧ d.queues = c.queues ∧ d.graph = c.graph ∧ d.ctxs = c.ctxs := by
  obtain ⟨ts, e, w, l, hd⟩ := h.changes
  rw [hd]
  exact ⟨rfl, rfl, rfl, rfl, rfl⟩

theorem countedFrom_setTable {t : Nat} {c : Core} {m : Moe} (hst : m.st = (c.table t).st) (hhist : m.hist = (c.table t).hist) :
    CountedFrom t c (c.setTable t m) where
  changes := ⟨_, c.evt, c.watch, c.sets, rfl⟩
  st := by rw [Core.table_setTable, hst]
  hist := by rw [Core.table_setTable, hhist]
  others j hj := Core.table_setTable_other _ _ _ _ hj

/-- A flag of a table changes its page, the log, and what is kept of sets. -/
theorem countedFrom_setMoeEvt (c : Core) (t bit : Nat) : CountedFrom t c (c.setMoeEvt t bit) := by
  have hset : CountedFrom t c (c.setTable t { c.table t with evt := setBit (c.table t).evt bit true }) := countedFrom_setTable rfl rfl
  refine hset.trans ?_
  unfold Core.setMoeEvt Core.logUnit
  dsimp only
  generalize c.setTable t { c.table t with evt := setBit (c.table t).evt bit true } = d
  obtain ⟨e, w, l, h⟩ := log_changes (d.mark (0x1800000 + 0x1000 * t + 0x8) bit) 0x0D (bit + 1) t
    (((c.table t).tab.map (·.ctx)).getD 0) 0 0 (w64 (0x1800000 + 0x1000 * t + 0x8)) 0
  rw [h]
  exact ⟨⟨d.moe.tables, e, w, l, rfl⟩, rfl, rfl, fun _ _ => rfl⟩

theorem countedFrom_commitCounts (c : Core) (t : Nat) (w : StepWork) (b : StepBlock) (misses : Nat) :
    CountedFrom t c (c.commitCounts t w b misses) := by
  refine List.foldlRecOn _ _ (countedFrom_setTable rfl rfl) fun d h f _ => h.trans ?_
  split
  · exact countedFrom_setMoeEvt ..
  · exact .refl t d

/-- A core that differs in what a withdrawn early fetch changes: runs and completions, contexts, ports and ramp grants. -/
def WithdrawnFrom (c d : Core) : Prop := ∃ g x p w, d = { c with graph := g, ctxs := x, disp := p, pwr := w }

theorem WithdrawnFrom.refl (c : Core) : WithdrawnFrom c c := ⟨c.graph, c.ctxs, c.disp, c.pwr, rfl⟩

theorem WithdrawnFrom.trans {c d e : Core} (h : WithdrawnFrom c d) (k : WithdrawnFrom d e) : WithdrawnFrom c e := by
  obtain ⟨_, _, _, _, rfl⟩ := h
  obtain ⟨g, x, p, w, rfl⟩ := k
  exact ⟨g, x, p, w, rfl⟩

theorem WithdrawnFrom.keeps {c d : Core} (h : WithdrawnFrom c d) : d.moe = c.moe ∧ d.mem = c.mem ∧ d.queues = c.queues := by
  obtain ⟨_, _, _, _, rfl⟩ := h
  exact ⟨rfl, rfl, rfl⟩

theorem WithdrawnFrom.table {c d : Core} (h : WithdrawnFrom c d) (j : Nat) : d.table j = c.table j := by
  obtain ⟨_, _, _, _, rfl⟩ := h
  rfl

theorem withdrawnFrom_modTask (c : Core) (ref : TaskRef) (f : Task → Task) : WithdrawnFrom c (c.modTask ref f) := by
  obtain ⟨l, h⟩ := modTask_changes c ref f
  exact ⟨_, c.ctxs, c.disp, c.pwr, h⟩

theorem withdrawnFrom_addComp (c : Core) (k : Comp) : WithdrawnFrom c (c.addComp k) := ⟨_, c.ctxs, c.disp, c.pwr, rfl⟩

theorem withdrawnFrom_withdrawFetch (c : Core) (ref : TaskRef) : WithdrawnFrom c (c.withdrawFetch ref) := by
  rw [Core.withdrawFetch]
  split
  next => exact .refl c
  next =>
    split
    next =>
      dsimp only
      split
      next =>
        have hstarts : WithdrawnFrom c ((c.withdrawStarts fun x => x == ref).ndInc ref.ctx 1) := ⟨c.graph, _, _, _, rfl⟩
        refine hstarts.trans ?_
        split
        next => exact withdrawnFrom_modTask ..
        next =>
          exact (withdrawnFrom_modTask ..).trans ((withdrawnFrom_modTask ..).trans (withdrawnFrom_addComp ..))
      next => exact .refl c
    next => exact .refl c

section Routed
variable {c : Core} {t : Nat} {tb : MoeTable} {w : StepWork} {b : StepBlock}

/-- The page of a table with the block of its step in the history. -/
def Core.withBlock (c : Core) (t : Nat) (w : StepWork) (b : StepBlock) : Core :=
  c.setTable t { c.table t with st := .routed, hist := b :: (c.table t).hist.take 7, work := some { w with sinceAt := c.dclk } }

/-- The live map of a table without the tokens that exited in its step. -/
def Core.withExits (c : Core) (tb : MoeTable) (w : StepWork) : Core :=
  if tb.mapEn then
    match aget c.moe.maps tb.mapId with
    | some x => { c with moe := { c.moe with maps := aset c.moe.maps tb.mapId { x with bits := tb.mapAfter w x.bits } } }
    | none => c
  else c

/-- The granted early fetches of experts that no token took. -/
def Core.coldFetches (c : Core) (t : Nat) (b : StepBlock) : List (Nat × Nat) :=
  (c.table t).granted.filter fun e => b.taken e.1 == 0

/-- Early fetches withdrawn, those that were granted no later than the commit. -/
def Core.withdrawCold (c : Core) (tb : MoeTable) (w : StepWork) (cold : List (Nat × Nat)) : Core :=
  (cold.filter fun e => decide (e.2 ≤ w.sinceAt)).foldl (fun d e => d.withdrawFetch
    { ctx := w.task.ctx, tag := w.task.tag, node := ((tb.entries[e.1]?).map (·.early)).getD 0, dyn := none }) c

/-- What a step that is ROUTED leaves, before its route node's completion goes on. -/
def Core.routedStep (c : Core) (t : Nat) (tb : MoeTable) (w : StepWork) (b : StepBlock) : Core :=
  (((c.withBlock t w b).withExits tb w).commitCounts t w b (c.coldFetches t b).length).withdrawCold tb w (c.coldFetches t b)

theorem stepRoute_eq (htab : (c.table t).tab = some tb) (hwork : (c.table t).work = some w) (hst : (c.table t).st = .commit)
    (hlater : w.sinceAt < c.dclk) (hb : w.block = some b) :
    c.stepRoute t = ((c.routedStep t tb w b).undefer w.task).settle w.task.ctx w.task.tag := by
  simp only [Core.stepRoute, Core.routedStep, Core.withBlock, htab, hwork, hb]
  exact if_pos ⟨hst, hlater⟩

theorem withdrawnFrom_withdrawCold (c : Core) (tb : MoeTable) (w : StepWork) (cold : List (Nat × Nat)) :
    WithdrawnFrom c (c.withdrawCold tb w cold) :=
  List.foldlRecOn _ _ (.refl c) fun d h _ _ => h.trans (withdrawnFrom_withdrawFetch d _)

theorem withExits_changes (c : Core) (tb : MoeTable) (w : StepWork) :
    ∃ ms, c.withExits tb w = { c with moe := { c.moe with maps := ms } } := by
  rw [Core.withExits]
  split
  · split
    · exact ⟨_, rfl⟩
    · exact ⟨c.moe.maps, rfl⟩
  · exact ⟨c.moe.maps, rfl⟩

theorem table_withExits (c : Core) (tb : MoeTable) (w : StepWork) (j : Nat) : (c.withExits tb w).table j = c.table j := by
  obtain ⟨ms, h⟩ := withExits_changes c tb w
  rw [h]; rfl

theorem maps_withExits {x : LiveMap} (hen : tb.mapEn = true) (hx : aget c.moe.maps tb.mapId = some x) :
    aget (c.withExits tb w).moe.maps tb.mapId = some { x with bits := tb.mapAfter w x.bits } := by
  simp only [Core.withExits, hen, hx, if_true]
  exact aget_aset_self ..

theorem withExits_unmapped (hen : tb.mapEn = false) : c.withExits tb w = c := if_neg (Bool.not_eq_true _ ▸ hen)

/-- The pages of the tables and the live maps when a step is ROUTED, and what it does not touch. -/
theorem routedStep_leaves (c : Core) (t : Nat) (tb : MoeTable) (w : StepWork) (b : StepBlock) :
    ((c.routedStep t tb w b).table t).st = .routed
    ∧ ((c.routedStep t tb w b).table t).hist = b :: (c.table t).hist.take 7
    ∧ (∀ j, j ≠ t → (c.routedStep t tb w b).table j = c.table j)
    ∧ (c.routedStep t tb w b).moe.maps = ((c.withBlock t w b).withExits tb w).moe.maps
    ∧ (c.routedStep t tb w b).mem = c.mem ∧ (c.routedStep t tb w b).queues = c.queues := by
  have hcount := countedFrom_commitCounts ((c.withBlock t w b).withExits tb w) t w b (c.coldFetches t b).length
  have hcold := withdrawnFrom_withdrawCold (((c.withBlock t w b).withExits tb w).commitCounts t w b (c.coldFetches t b).length)
    tb w (c.coldFetches t b)
  obtain ⟨hmoe, hmem, hqueues⟩ := hcold.keeps
  obtain ⟨hmaps, hmem', hqueues', -, -⟩ := hcount.keeps
  obtain ⟨ms, hexits⟩ := withExits_changes (c.withBlock t w b) tb w
  have hpage : (c.withBlock t w b).table t
      = { c.table t with st := .routed, hist := b :: (c.table t).hist.take 7, work := some { w with sinceAt := c.dclk } } :=
    Core.table_setTable ..
  refine ⟨?_, ?_, fun j hj => ?_, (congrArg _ hmoe).trans hmaps, hmem.trans (hmem'.trans (by rw [hexits]; rfl)),
    hqueues.trans (hqueues'.trans (by rw [hexits]; rfl))⟩
  · rw [Core.routedStep, hcold.table, hcount.st, table_withExits, hpage]
  · rw [Core.routedStep, hcold.table, hcount.hist, table_withExits, hpage]
  · rw [Core.routedStep, hcold.table, hcount.others j hj, table_withExits]
    exact Core.table_setTable_other _ _ _ _ hj

/-- With no early fetch granted none is withdrawn. -/
theorem routedStep_ungranted (hno : (c.table t).granted = []) :
    (c.routedStep t tb w b).graph = c.graph ∧ (c.routedStep t tb w b).ctxs = c.ctxs := by
  have hcold : c.coldFetches t b = [] := by rw [Core.coldFetches, hno]; rfl
  obtain ⟨-, -, -, hgraph, hctxs⟩ := (countedFrom_commitCounts ((c.withBlock t w b).withExits tb w) t w b 0).keeps
  obtain ⟨ms, hexits⟩ := withExits_changes (c.withBlock t w b) tb w
  rw [Core.routedStep, hcold]
  exact ⟨hgraph.trans (by rw [hexits]; rfl), hctxs.trans (by rw [hexits]; rfl)⟩

end Routed

/-! The obligation -/

/-- Settles O49: each command by what its step of the table does, the exchange by what the traffic of Ply leaves alone, and ROUTED by
its parts in their order. -/
theorem routingStepAdvances : Obligations.RoutingStepAdvances := by
  unfold Obligations.RoutingStepAdvances
  intro s t tb w ht hr htab hwork m
  refine ⟨?_, ?_, ?_, ?_, ?_⟩
  · intro w1 hst hlocal c1 c2
    refine ⟨fun hwait => ?_, fun hturn hg => ?_, fun g hturn hg => ?_⟩
    · rw [exec_stepExchange ht hr, stepExchange_waits htab hwork hst hlocal hwait]; rfl
    · rw [exec_stepExchange ht hr, stepExchange_ungrouped htab hwork hst hlocal hturn hg]; rfl
    · intro u
      obtain ⟨htable, hmem, hgraph, hqueues⟩ := (sentFrom_plyEnter c2 tb.ctx (s.core.moeKey t tb) (moeParams tb g)
        (moeFrags tb g w1.vec)).keeps
      refine ⟨?_, (htable t).trans (table_inExchange s.core t w1), hmem, hgraph, hqueues⟩
      rw [exec_stepExchange ht hr, stepExchange_sends htab hwork hst hlocal hturn hg]; rfl
  · intro g hst hg ps hs totals below d
    refine ⟨fun hans => ?_, fun hans => ?_⟩
    · rw [exec_stepDecide ht hr, stepDecide_answered htab hwork hg hst hans]; rfl
    · rw [exec_stepDecide ht hr, stepDecide_unanswered htab hwork hg hans]; rfl
  · exact fun b hst hnow hb hstats => decideWrite_plain htab hwork hst hnow hb hstats
  · exact fun hst hacked hlater => exec_stepCommit ht hr hwork hst hacked hlater
  · intro b hst hlater hb
    obtain ⟨hrouted, hhist, hothers, hmaps, hmem, hqueues⟩ := routedStep_leaves s.core t tb w b
    refine ⟨s.core.routedStep t tb w b, ?_, hrouted, hhist, fun x hen hx => ?_, fun hen => ?_, hothers, routedStep_ungranted, hmem,
      hqueues⟩
    · rw [exec_stepRouted ht hr, stepRoute_eq htab hwork hst hlater hb]
    · rw [hmaps]; exact maps_withExits hen hx
    · rw [hmaps, withExits_unmapped hen]; rfl

end Sys2Proof.Machine
end

section
/-! PROOFS. Channels: what a map keeps and what the shared operations on a channel change (R239 to R241, R250), so that the statements of
chapter 09 cite one frame for all of them. -/

namespace Sys2Proof.Machine

theorem mem_of_aget {α : Type} {m : AMap α} {n : Nat} {v : α} (h : aget m n = some v) : (n, v) ∈ m := by
  induction m with
  | nil => exact nomatch h
  | cons x l ih =>
    obtain ⟨k, w⟩ := x
    rw [aget] at h
    split at h
    next hk => rw [← hk, ← Option.some.inj h]; exact List.mem_cons_self
    next => exact List.mem_cons_of_mem _ (ih h)

/-- A channel with an open receive end stands among the channels. -/
theorem mem_chans_of_rx {c : Core} {n : Nat} {r : ChanRx} (h : (c.chan n).rx = some r) : (n, c.chan n) ∈ c.chans := by
  unfold Core.chan agetD at h ⊢
  cases hget : aget c.chans n with
  | none => rw [hget] at h; exact nomatch h
  | some x => exact mem_of_aget hget

/-! Sending and counting (R239, R347) -/

theorem sentFrom_chanNotice (c : Core) (n : Nat) (r : ChanRx) (b : ChanBody) : SentFrom c (c.chanNotice n r b) :=
  sentFrom_sendFrame ..

theorem sentFrom_countChan (c : Core) (owner : Option Nat) : SentFrom c (c.countChan owner) := by
  cases owner with
  | none =>
    rw [Core.countChan]
    split
    · exact ⟨c.fab, _, rfl⟩
    · exact .refl c
  | some n =>
    rw [Core.countChan, Core.countRx]
    split
    · exact ⟨c.fab, _, rfl⟩
    · exact .refl c

theorem SentFrom.chans {c d : Core} (h : SentFrom c d) : d.chans = c.chans := by
  obtain ⟨f, k, rfl⟩ := h
  rfl

theorem SentFrom.chan {c d : Core} (h : SentFrom c d) (n : Nat) : d.chan n = c.chan n := by
  rw [Core.chan, h.chans, Core.chan]

/-! The frame of an operation on one channel -/

/-- A core that has every channel but one, memory, the graph, the queues and the stash of another. -/
structure OnlyChan (n : Nat) (c d : Core) : Prop where
  others : ∀ m, m ≠ n → d.chan m = c.chan m
  mem    : d.mem = c.mem
  graph  : d.graph = c.graph
  queues : d.queues = c.queues
  stash  : d.stash = c.stash

theorem OnlyChan.refl (n : Nat) (c : Core) : OnlyChan n c c := ⟨fun _ _ => rfl, rfl, rfl, rfl, rfl⟩

theorem OnlyChan.trans {n : Nat} {c d e : Core} (h : OnlyChan n c d) (k : OnlyChan n d e) : OnlyChan n c e :=
  ⟨fun m hm => (k.others m hm).trans (h.others m hm), k.mem.trans h.mem, k.graph.trans h.graph, k.queues.trans h.queues,
    k.stash.trans h.stash⟩

theorem OnlyChan.foldl {α : Type} {n : Nat} {step : Core → α → Core} (hstep : ∀ d x, OnlyChan n d (step d x)) (l : List α)
    (c : Core) : OnlyChan n c (l.foldl step c) :=
  List.foldlRecOn l step (.refl n c) fun d h x _ => h.trans (hstep d x)

theorem SentFrom.onlyChan {c d : Core} (h : SentFrom c d) (n : Nat) : OnlyChan n c d := by
  obtain ⟨f, k, rfl⟩ := h
  exact ⟨fun _ _ => rfl, rfl, rfl, rfl, rfl⟩

theorem onlyChan_setChan (c : Core) (n : Nat) (x : Chan) : OnlyChan n c (c.setChan n x) :=
  ⟨fun m hm => Core.chan_setChan_other c n m x hm, rfl, rfl, rfl, rfl⟩

/-! Flags and discards (R241, R250) -/

/-- A flag of a channel changes the channel, the log, and what is kept of sets. -/
theorem setChanEvt_changes (c : Core) (n bit ctx : Nat) : ∃ e w l, c.setChanEvt n bit ctx
    = { c.setChan n { c.chan n with evt := setBit (c.chan n).evt bit true } with evt := e, watch := w, sets := l } := by
  unfold Core.setChanEvt Core.logUnit
  exact log_changes ..

@[simp] theorem chan_setChanEvt (c : Core) (n bit ctx : Nat) :
    (c.setChanEvt n bit ctx).chan n = { c.chan n with evt := setBit (c.chan n).evt bit true } := by
  obtain ⟨e, w, l, h⟩ := setChanEvt_changes c n bit ctx
  rw [h]
  exact Core.chan_setChan ..

theorem onlyChan_setChanEvt (c : Core) (n bit ctx : Nat) : OnlyChan n c (c.setChanEvt n bit ctx) := by
  obtain ⟨e, w, l, h⟩ := setChanEvt_changes c n bit ctx
  rw [h]
  exact ⟨fun m hm => Core.chan_setChan_other c n m _ hm, rfl, rfl, rfl, rfl⟩

/-- A channel that has discarded one more record. -/
def Chan.discardOne (h : Chan) : Chan := { h with discarded := sat32 h.discarded 1, evt := setBit h.evt 0 true }

@[simp] theorem chan_chanDiscard (c : Core) (n ctx pos chan epoch reason : Nat) :
    (c.chanDiscard n ctx pos chan epoch reason).chan n = (c.chan n).discardOne := by
  unfold Core.chanDiscard
  rw [(sentFrom_sendFrame ..).chan, chan_setChanEvt, Core.chan_setChan]
  rfl

theorem onlyChan_chanDiscard (c : Core) (n ctx pos chan epoch reason : Nat) :
    OnlyChan n c (c.chanDiscard n ctx pos chan epoch reason) :=
  ((onlyChan_setChan ..).trans (onlyChan_setChanEvt ..)).trans ((sentFrom_sendFrame ..).onlyChan n)

end Sys2Proof.Machine
end

section
/-! PROOFS. SKEIN_UNLOAD while a receive end names the skein (O31). -/

namespace Sys2Proof.Machine

theorem skeinRead_of_rx {c : Core} {ch n id : Nat} {r : ChanRx} (h : (c.chan ch).rx = some r) (hctx : r.ctx = n) (hid : r.skein = id) :
    c.skeinRead n id = true := by
  refine List.any_eq_true.mpr ⟨_, mem_chans_of_rx h, ?_⟩
  simp only [h, hctx, hid, beq_self_eq_true, Bool.and_self]

theorem ensure_fails {b : Bool} (v : Verdict) (h : b = false) : ensure b v = .error v := if_neg (Bool.not_eq_true _ ▸ h)

theorem bind_of_error {ε α β : Type} {x : Except ε α} {e : ε} (f : α → Except ε β) (hx : x = .error e) : x >>= f = .error e := by
  rw [hx]; rfl

theorem skeinUnload_named {c : Core} {n : Nat} {p : Packet} (hfields : passes (step9 p []) = true)
    (hloaded : (c.skein n (pf p 2 32 10)).isSome = true) (hread : c.skeinRead n (pf p 2 32 10) = true) :
    c.skeinUnload n p = .error (vState 5) := by
  refine bind_of_ok (passes_unit hfields) (bind_of_ok (ensure_of _ hloaded) (bind_of_error _ (ensure_fails _ ?_)))
  rw [hread, Bool.not_true, Bool.and_false]

/-- Settles O31: the last check of SKEIN_UNLOAD fails, and a refused command leaves only its final reply. -/
theorem unloadRefusedWhileReceiveEndNames : Obligations.UnloadRefusedWhileReceiveEndNames := by
  unfold Obligations.UnloadRefusedWhileReceiveEndNames
  intro s n p ch r ht c id hfields hloaded hrx hctx hid
  exact onCommand_refuse (run := fun _ c n p => c.skeinUnload n p) ht
    (skeinUnload_named hfields hloaded (skeinRead_of_rx hrx hctx hid)) rfl

end Sys2Proof.Machine
end

section
/-! PROOFS. CHAN_OPEN, CHAN_CLOSE and CHAN_RESET (O43): the checks of an open, what a receive end leaves at its close, and what follows at
the end of the DCLK. -/

namespace Sys2Proof.Machine

/-! CHAN_OPEN (R233, R236, R240) -/

section Open
variable {c : Core} {n : Nat} {p : Packet} {route : Region} {ws : List W64}

/-- The fields of a CHAN_OPEN are in range, its route record is read, and its context has quota left (R233, R250). -/
structure OpenReads (c : Core) (n : Nat) (p : Packet) (route : Region) (ws : List W64) : Prop where
  fields : passes (step9 p (limit 2 0 (decide (pf p 2 0 12 < c.cfg.channels))
    ++ range 3 32 (if pb p 2 16 then decide (12 ≤ pf p 3 32 5) && decide (pf p 3 32 5 ≤ 20) else pf p 3 32 5 == 0))) = true
  routed : c.handleParam n p 4 0 false 64 = .ok route
  words  : c.readFor 4 route.base 8 = .ok ws
  quota  : c.chanEnds n < (c.ctx n).chanQuota

theorem heldBy_free {α : Type} {x : Option α} (f : α → Nat) (n : Nat) (h : x = none) : heldBy (x.map f) n = .ok () := by
  rw [h]; rfl

theorem chanOpen_receive {ring cons : Region} (hopen : OpenReads c n p route ws) (hrecv : pb p 2 16 = true)
    (hring : c.handleParam n p 3 0 true (2 ^ pf p 3 32 5) = .ok ring)
    (hcons : c.routeHandle n p (fld (ws.getD 1 0) 32 32) true (fld (ws.getD 1 0) 3 29 * 8 + 8) = .ok cons)
    (hfree : (c.chan (pf p 2 0 12)).rx = none) (hroute : c.recvRouteOk n ws = true) :
    c.chanOpen n p = .ok (.done vOk (c.openRx n (pf p 2 0 12) p ws ring cons)) := by
  refine bind_of_ok (passes_unit hopen.fields) ?_
  refine bind_of_ok (a := ring) (by rw [if_pos hrecv]; exact hring) ?_
  refine bind_of_ok hopen.routed (bind_of_ok hopen.words ?_)
  refine (if_pos hrecv).trans ?_
  refine bind_of_ok hcons (bind_of_ok (heldBy_free _ n hfree) ?_)
  exact bind_of_ok (ensure_of _ hroute) (bind_of_ok (ensure_of _ (decide_eq_true hopen.quota)) rfl)

theorem chanOpen_send {area : Region} (hopen : OpenReads c n p route ws) (hsend : pb p 2 16 = false)
    (harea : c.routeHandle n p (fld (ws.getD 2 0) 32 32) false
      ((fld (ws.getD 1 0) 24 20 + 1 - fld (ws.getD 1 0) 44 20) * 2 ^ fld (ws.getD 0 0) 16 5) = .ok area)
    (hfree : (c.chan (pf p 2 0 12)).tx = none) (hroute : c.sendRouteOk n ws = true) :
    c.chanOpen n p = .ok (.done vOk (c.openTx n (pf p 2 0 12) p ws area)) := by
  have hnot : ¬pb p 2 16 = true := by rw [hsend]; exact Bool.false_ne_true
  refine bind_of_ok (passes_unit hopen.fields) ?_
  refine bind_of_ok (a := { write := false, base := 0, size := 0 }) (if_neg hnot) ?_
  refine bind_of_ok hopen.routed (bind_of_ok hopen.words ?_)
  refine (if_neg hnot).trans ?_
  refine bind_of_ok harea (bind_of_ok (heldBy_free _ n hfree) ?_)
  exact bind_of_ok (ensure_of _ hroute) (bind_of_ok (ensure_of _ (decide_eq_true hopen.quota)) rfl)

/-- A receive end that opens changes its channel, and sends and reads; all else stays. -/
theorem openRx_keeps (c : Core) (n ch : Nat) (p : Packet) (ws : List W64) (ring cons : Region) :
    OnlyChan ch c (c.openRx n ch p ws ring cons) ∧ (c.openRx n ch p ws ring cons).ctxs = c.ctxs := by
  unfold Core.openRx
  dsimp only
  generalize hd : Core.setChan c ch _ = d
  obtain ⟨f, k, hsent⟩ := sentFrom_chanNotice d ch _ _
  rw [hsent]
  obtain ⟨x, hread⟩ := reelIssue_changes { d with fab := f, clip := k } _ _ _ _ _
  rw [Core.reelRead, hread, ← hd]
  exact ⟨⟨fun m hm => Core.chan_setChan_other c ch m _ hm, rfl, rfl, rfl, rfl⟩, rfl⟩

end Open

/-! The end of the DCLK of a close (R239, R241) -/

/-- The record whose header write was acknowledged in the DCLK of the close: it counts as delivered. -/
def ChanEnd.got (k : ChanEnd) : List RxRec := (k.rx.recs.take 1).filter fun x => x.stage == .written

/-- The records that were neither delivered nor acknowledged. -/
def ChanEnd.lost (k : ChanEnd) : List RxRec := k.rx.recs.filter fun x => x.stage != .handler && x.stage != .written

theorem counted_eq (h : Chan) (x : RxRec) : ∃ a b, h.counted x = { h with rxMsgs := a, rxBytes := b } := by
  unfold Chan.counted
  split
  · exact ⟨_, _, rfl⟩
  · exact ⟨h.rxMsgs, h.rxBytes, rfl⟩

theorem foldl_counted_eq (l : List RxRec) (h : Chan) : ∃ a b, l.foldl Chan.counted h = { h with rxMsgs := a, rxBytes := b } := by
  induction l generalizing h with
  | nil => exact ⟨h.rxMsgs, h.rxBytes, rfl⟩
  | cons x l ih =>
    obtain ⟨a, b, hx⟩ := counted_eq h x
    rw [List.foldl_cons, hx]
    exact ih _

/-- A channel that has discarded j more records. -/
def Chan.discards : Nat → Chan → Chan
  | 0, h => h
  | j + 1, h => Chan.discards j h.discardOne

/-- Discards change their count and the flags alone. -/
theorem discards_eq (j : Nat) (h : Chan) : ∃ a e, h.discards j = { h with discarded := a, evt := e } := by
  induction j generalizing h with
  | zero => exact ⟨h.discarded, h.evt, rfl⟩
  | succ j ih => rw [Chan.discards]; exact ih _

theorem discarded_discards (j : Nat) {h : Chan} (hlt : h.discarded < 2 ^ 32) :
    (h.discards j).discarded = min (h.discarded + j) (2 ^ 32 - 1) := by
  induction j generalizing h with
  | zero => exact (Nat.min_eq_left (Nat.le_of_lt_succ hlt)).symm
  | succ j ih =>
    have hone : h.discardOne.discarded = min (h.discarded + 1) (2 ^ 32 - 1) := rfl
    rw [Chan.discards, ih (by omega), hone]
    omega

theorem chan_foldl_discards {α : Type} {n : Nat} {step : Core → α → Core} (hstep : ∀ d x, (step d x).chan n = (d.chan n).discardOne)
    (l : List α) (c : Core) : (l.foldl step c).chan n = (c.chan n).discards l.length := by
  induction l generalizing c with
  | nil => rfl
  | cons x l ih => rw [List.foldl_cons, ih, hstep, List.length_cons, Chan.discards]

theorem closeEnd_none {c : Core} {n : Nat} (h : (c.chan n).closing = none) : c.closeEnd n = c := by
  simp only [Core.closeEnd, h]

theorem onlyChan_closeEnd (c : Core) (n : Nat) : OnlyChan n c (c.closeEnd n) := by
  unfold Core.closeEnd
  dsimp only
  split
  next => exact .refl n c
  next k _ =>
    refine .trans ?_ ((sentFrom_chanNotice ..).onlyChan n)
    refine .trans ?_ (.foldl (fun _ _ => onlyChan_chanDiscard ..) k.late _)
    refine .trans ?_ (.foldl (fun _ _ => onlyChan_chanDiscard ..) k.lost _)
    exact (onlyChan_setChan ..).trans ((sentFrom_chanNotice ..).onlyChan n)

section Closing
variable {c : Core} {n : Nat} {k : ChanEnd} (hk : (c.chan n).closing = some k)
include hk

/-- What a close leaves of its channel: the record delivered counts, and every record lost or late is discarded. -/
theorem chan_closeEnd : (c.closeEnd n).chan n
    = ((k.got.foldl Chan.counted { c.chan n with closing := none }).discards k.lost.length).discards k.late.length := by
  simp only [Core.closeEnd, hk]
  rw [(sentFrom_chanNotice ..).chan, chan_foldl_discards (fun d m => chan_chanDiscard ..),
    chan_foldl_discards (fun d _ => chan_chanDiscard ..), (sentFrom_chanNotice ..).chan, Core.chan_setChan]
  rfl

theorem closeEnd_ends : ((c.closeEnd n).chan n).rx = (c.chan n).rx ∧ ((c.closeEnd n).chan n).tx = (c.chan n).tx := by
  rw [chan_closeEnd hk]
  obtain ⟨a, b, hgot⟩ := foldl_counted_eq k.got { c.chan n with closing := none }
  obtain ⟨d, e, hlost⟩ := discards_eq k.lost.length (k.got.foldl Chan.counted { c.chan n with closing := none })
  obtain ⟨d', e', hlate⟩ := discards_eq k.late.length
    ((k.got.foldl Chan.counted { c.chan n with closing := none }).discards k.lost.length)
  rw [hlate, hlost, hgot]
  exact ⟨rfl, rfl⟩

theorem discarded_closeEnd (hlt : (c.chan n).discarded < 2 ^ 32) :
    ((c.closeEnd n).chan n).discarded = min ((c.chan n).discarded + k.late.length + k.lost.length) (2 ^ 32 - 1) := by
  obtain ⟨a, b, hgot⟩ := foldl_counted_eq k.got { c.chan n with closing := none }
  have hlost : ((k.got.foldl Chan.counted { c.chan n with closing := none }).discards k.lost.length).discarded
      = min ((c.chan n).discarded + k.lost.length) (2 ^ 32 - 1) := by
    rw [discarded_discards _ (by rw [hgot]; exact hlt), hgot]
  rw [chan_closeEnd hk, discarded_discards _ (by omega), hlost]
  omega

theorem closeEnd_empty (hrecs : k.rx.recs = []) (hlate : k.late = []) : c.closeEnd n
    = ((c.setChan n { c.chan n with closing := none }).chanNotice n k.rx
        (.credit k.epoch k.rx.consumed k.rx.dlvd)).chanNotice n k.rx (.closeNotice k.reason) := by
  simp only [Core.closeEnd, hk, hrecs, hlate]
  rfl

end Closing

/-! CHAN_CLOSE and CHAN_RESET (R87) -/

theorem ownedBy_self {α : Type} {x : Option α} {f : α → Nat} {a : α} {n : Nat} (h : x = some a) (hf : f a = n) :
    ownedBy (x.map f) n = .ok () := by
  rw [h]
  exact if_pos (beq_iff_eq.mpr hf)

section Close
variable {c : Core} {n : Nat} {p : Packet}

theorem chanClose_receive {r : ChanRx} (hfields : passes (step9 p []) = true) (hrecv : pb p 2 16 = true)
    (hrx : (c.chan (pf p 2 0 12)).rx = some r) (hctx : r.ctx = n) :
    c.chanClose n p = .ok (.done vOk (c.closeRx (pf p 2 0 12) 1)) := by
  refine bind_of_ok (passes_unit hfields) ((if_pos hrecv).trans ?_)
  exact bind_of_ok (ownedBy_self hrx hctx) rfl

theorem chanClose_send {t : ChanTx} (hfields : passes (step9 p []) = true) (hsend : pb p 2 16 = false)
    (htx : (c.chan (pf p 2 0 12)).tx = some t) (hctx : t.ctx = n) :
    c.chanClose n p = .ok (.done vOk (c.closeSend (pf p 2 0 12))) := by
  refine bind_of_ok (passes_unit hfields) ((if_neg (by rw [hsend]; exact Bool.false_ne_true)).trans ?_)
  exact bind_of_ok (ownedBy_self htx hctx) rfl

theorem closeRx_idle {ch reason : Nat} {r : ChanRx} (hrx : (c.chan ch).rx = some r) (hclosing : (c.chan ch).closing = none) :
    c.closeRx ch reason = c.setChan ch { c.chan ch with
      rx := none, lastReason := reason, closing := some { rx := r, epoch := (c.chan ch).epoch, reason := reason, late := [] } } := by
  simp only [Core.closeRx, closeEnd_none hclosing, hrx]

theorem closeEnd_keepsEnds (c : Core) (ch : Nat) :
    ((c.closeEnd ch).chan ch).rx = (c.chan ch).rx ∧ ((c.closeEnd ch).chan ch).tx = (c.chan ch).tx := by
  cases hclosing : (c.chan ch).closing with
  | none => rw [closeEnd_none hclosing]; exact ⟨rfl, rfl⟩
  | some k => exact closeEnd_ends hclosing

/-- A receive end that closes is open no more, whatever a close before it still has to tell; its channel keeps the send end. -/
theorem closeRx_closes {ch : Nat} {r : ChanRx} (reason : Nat) (hrx : (c.chan ch).rx = some r) :
    ((c.closeRx ch reason).chan ch).rx = none ∧ ((c.closeRx ch reason).chan ch).lastReason = reason
      ∧ ((c.closeRx ch reason).chan ch).tx = (c.chan ch).tx ∧ OnlyChan ch c (c.closeRx ch reason) := by
  obtain ⟨hrx1, htx1⟩ := closeEnd_keepsEnds c ch
  simp only [Core.closeRx, hrx1, hrx, Core.chan_setChan]
  exact ⟨trivial, trivial, htx1, (onlyChan_closeEnd c ch).trans (onlyChan_setChan ..)⟩

/-- A send end with nothing still to send and nothing out closes alone (Table 09-4). -/
theorem closeSend_idle {ch : Nat} {t : ChanTx} (htx : (c.chan ch).tx = some t) (hslots : t.slots = []) (hwaiting : t.waiting = [])
    (hsent : t.sent = []) : c.closeSend ch = c.setChan ch { c.chan ch with tx := none } := by
  simp only [Core.closeSend, htx, hslots, hwaiting, hsent]
  rfl

/-- A receive end that is reset: closed, with its counters at zero. -/
def Core.resetRx (c : Core) (ch : Nat) : Core :=
  (c.closeRx ch 2).setChan ch { (c.closeRx ch 2).chan ch with rxMsgs := 0, rxBytes := 0, discarded := 0, held := 0 }

theorem chanReset_done {r : ChanRx} (hfields : passes (step9 p []) = true) (hrecv : pb p 2 16 = true)
    (hrx : (c.chan (pf p 2 0 12)).rx = some r) (hctx : r.ctx = n) :
    c.chanReset n p = .ok (.done vOk (c.resetRx (pf p 2 0 12))) :=
  bind_of_ok (passes_unit hfields) (bind_of_ok (ensure_of _ hrecv) (bind_of_ok (ownedBy_self hrx hctx) rfl))

end Close

/-! The obligation -/

/-- Settles O43: the open by its checks, the close and the reset by what a close leaves of its channel, and the end of the DCLK by the
records it discards. -/
theorem chanCommands : Obligations.ChanCommands := by
  unfold Obligations.ChanCommands
  refine ⟨?_, ?_, ?_⟩
  · intro s n p route ws ht c ch rl hfields hroute hwords hquota
    have hopen : OpenReads c n p route ws := ⟨hfields, hroute, hwords, hquota⟩
    refine ⟨?_, ?_⟩
    · intro ring cons hrecv hring hcons hfree hok e r d
      obtain ⟨⟨hothers, hmem, hgraph, -, -⟩, hctxs⟩ := openRx_keeps c n ch p ws ring cons
      refine ⟨?_, hothers, hgraph, hmem, hctxs⟩
      exact onCommand_done (run := fun _ c n p => c.chanOpen n p) ht (chanOpen_receive hopen hrecv hring hcons hfree hok)
    · intro area hsend harea hfree hok
      exact onCommand_done (run := fun _ c n p => c.chanOpen n p) ht (chanOpen_send hopen hsend harea hfree hok)
  · intro s n p c ch hfields
    refine ⟨?_, ?_, ?_⟩
    · intro r ht hrecv hrx hctx hclosing
      rw [← closeRx_idle hrx hclosing]
      exact onCommand_done (run := fun _ c n p => c.chanClose n p) ht (chanClose_receive hfields hrecv hrx hctx)
    · intro t ht hsend htx hctx
      exact ⟨onCommand_done (run := fun _ c n p => c.chanClose n p) ht (chanClose_send hfields hsend htx hctx), closeSend_idle htx⟩
    · intro r ht hrecv hrx hctx
      obtain ⟨hclosed, hreason, htx, honly⟩ := closeRx_closes 2 hrx
      obtain ⟨hothers, hmem, hgraph, -, -⟩ := honly.trans (onlyChan_setChan _ ch _)
      refine ⟨c.resetRx ch, onCommand_done (run := fun _ c n p => c.chanReset n p) ht (chanReset_done hfields hrecv hrx hctx),
        ?_, ?_, ?_, ?_, ?_, ?_, ?_, hothers, hmem, hgraph⟩ <;> rw [Core.resetRx, Core.chan_setChan]
      · exact hclosed
      · exact hreason
      · exact htx
  · intro c ch k hk
    exact ⟨closeEnd_empty hk, discarded_closeEnd hk⟩

end Sys2Proof.Machine
end

section
/-! PROOFS. The send end (O44): a slot read, a record that leaves or waits, and the stall it counts. -/

namespace Sys2Proof.Machine

section Send
variable {s : State} {n : Nat}

theorem exec_sendSlotRead (hn : n < 4096) (hr : s.running = true) :
    exec (.sendSlotRead n) s = .next (s.withCore (s.core.readSlot n)) := by
  change execSendSlotRead n s = _
  rw [execSendSlotRead, if_pos hn, onRun_running hr]

theorem exec_messageSend (hn : n < 4096) (hr : s.running = true) :
    exec (.messageSend n) s = .next (s.withCore (s.core.messageTurn n)) := by
  change execMessageSend n s = _
  rw [execMessageSend, if_pos hn, onRun_running hr]

end Send

section Slot
variable {c : Core} {n : Nat} {t : ChanTx} (htx : (c.chan n).tx = some t)
include htx

/-! Send slots (R242, R243) -/

section Read
variable {d : Nat} {ref : TaskRef} {rest : List (Nat × TaskRef)} (hslots : t.slots = (d, ref) :: rest) (hlater : d < c.dclk)
  (hturn : c.sendsBelow n ref = false)
include hslots hlater hturn

omit htx hslots in
theorem slot_inTurn : ¬(decide (c.dclk ≤ d) || c.sendsBelow n ref) = true := by simp [hturn, hlater]

theorem readSlot_ok {l : List MsgRec} (hread : c.slotRead t ref.node = .ok l) : c.readSlot n
    = (c.setChan n { c.chan n with tx := some { t with
        slots := rest, waiting := t.waiting ++ l.zipIdx.map fun m => TxRec.mk ref m.2 false false m.1 } }).undefer ref := by
  simp only [Core.readSlot, htx, hslots, hread]
  exact if_neg (slot_inTurn hlater hturn)

theorem readSlot_fault {st : Status} {k : Nat} (hread : c.slotRead t ref.node = .error (st, k))
    (hbad : st ≠ .faulted ∨ k ≠ heldCode) : c.readSlot n = c.faultPlain ref st k := by
  simp only [Core.readSlot, htx, hslots, hread]
  refine (if_neg (slot_inTurn hlater hturn)).trans (if_neg fun h => ?_)
  obtain ⟨hst, hk⟩ := Prod.mk.inj h
  exact hbad.elim (· hst) (· hk)

end Read

section Front
variable {w : TxRec} {rest : List TxRec} (hwaiting : t.waiting = w :: rest)
include hwaiting

/-! The record at the front (R237, R240, R244) -/

theorem messageTurn_noReader (hst : t.st = .noReader) : c.messageTurn n
    = c.setChan n { c.chan n with tx := some { t with waiting := { w with tried := true } :: rest } } := by
  have hstall : c.messageTurn n = c.stallSend n t w rest := by simp only [Core.messageTurn, htx, hwaiting, hst]
  exact hstall

/-- With an OPEN reader, room for the record and its pad, and no record of its task larger than the ring, it leaves. -/
theorem messageTurn_leaves (hst : t.st = .opened) (hring : t.ringLog2 ≠ 0)
    (hfits : (t.waiting.any fun x => x.task == w.task && decide (2 ^ t.ringLog2 < msgSize x.msg)) = false)
    (hroom : padFor (2 ^ t.ringLog2) t.wr (msgSize w.msg) + msgSize w.msg ≤ 2 ^ t.ringLog2 - diff64 t.wr t.consumed) :
    c.messageTurn n = c.sendRecord n t w rest (padFor (2 ^ t.ringLog2) t.wr (msgSize w.msg)) := by
  rw [hwaiting] at hfits
  simp only [Core.messageTurn, htx, hwaiting, hst]
  rw [if_neg hring, if_neg (by rw [hfits]; exact Bool.false_ne_true), if_pos hroom]

/-! Stalls at the end of the DCLK (R244) -/

theorem stallCount_counts (htried : w.tried = true) (hnew : w.stalled = false) :
    ((c.stallCount n).chan n).stalls = min ((c.chan n).stalls + 1) (2 ^ 32 - 1)
      ∧ ((c.stallCount n).chan n).tx = some { t with waiting := { w with stalled := true } :: rest } := by
  simp only [Core.stallCount, htx, hwaiting]
  rw [if_pos (by rw [htried, hnew]; rfl)]
  split
  · rw [chan_setChanEvt, Core.chan_setChan]; exact ⟨rfl, rfl⟩
  · rw [Core.chan_setChan]; exact ⟨rfl, rfl⟩

theorem stallCount_once (hno : w.tried = false ∨ w.stalled = true) : c.stallCount n = c := by
  simp only [Core.stallCount, htx, hwaiting]
  refine if_neg ?_
  rcases hno with h | h <;> simp [h]

end Front
end Slot

/-! The obligation -/

/-- Settles O44: the slot by its read, the record by the state of its send end, and the stall by whether it was counted. -/
theorem messagesAreSent : Obligations.MessagesAreSent := by
  unfold Obligations.MessagesAreSent
  refine ⟨?_, ?_⟩
  · intro s n t hn hr htx
    refine ⟨?_, ?_, ?_⟩
    · intro d ref rest hslots hlater hturn
      refine ⟨fun l hread => ?_, fun st k hread hbad => ?_⟩
      · rw [exec_sendSlotRead hn hr, readSlot_ok htx hslots hlater hturn hread]
      · rw [exec_sendSlotRead hn hr, readSlot_fault htx hslots hlater hturn hread hbad]
    · intro w rest hwaiting hst hring hfits pad hroom h c1
      rw [exec_messageSend hn hr, messageTurn_leaves htx hwaiting hst hring hfits hroom]
      simp only [Core.sendRecord, beq_iff_eq]
      rfl
    · intro w rest hwaiting hst
      rw [exec_messageSend hn hr, messageTurn_noReader htx hwaiting hst]
  · exact fun c n t w rest htx hwaiting => ⟨stallCount_counts htx hwaiting, stallCount_once htx hwaiting⟩

end Sys2Proof.Machine
end

section
/-! PROOFS. Records at the receive end (O45): their arrival and their place in the ring, delivery, signals, handler tasks, and the
consumed word. -/

namespace Sys2Proof.Machine

/-! Writing a record (R237, R238) -/

/-- A core that differs in the Reel port and in the free values drawn. -/
def WritesFrom (c d : Core) : Prop := ∃ r f, d = { c with reel := r, free := f }

theorem WritesFrom.refl (c : Core) : WritesFrom c c := ⟨c.reel, c.free, rfl⟩

theorem WritesFrom.trans {c d e : Core} (h : WritesFrom c d) (k : WritesFrom d e) : WritesFrom c e := by
  obtain ⟨r, f, rfl⟩ := h
  obtain ⟨r', f', rfl⟩ := k
  exact ⟨r', f', rfl⟩

theorem WritesFrom.chan {c d : Core} (h : WritesFrom c d) (n : Nat) : d.chan n = c.chan n := by
  obtain ⟨r, f, rfl⟩ := h
  rfl

theorem WritesFrom.onlyChan {c d : Core} (h : WritesFrom c d) (n : Nat) : OnlyChan n c d := by
  obtain ⟨r, f, rfl⟩ := h
  exact ⟨fun _ _ => rfl, rfl, rfl, rfl, rfl⟩

theorem writesFrom_reelWrite (c : Core) (addr : Nat) (bs : List Byte) (s : Serves) : WritesFrom c (c.reelWrite addr bs s) := by
  obtain ⟨r, h⟩ := reelWrite_changes c addr bs s
  exact ⟨r, c.free, h⟩

theorem writesFrom_unless {c d : Core} {q : Prop} [Decidable q] (h : WritesFrom c d) : WritesFrom c (if q then c else d) := by
  split
  · exact .refl c
  · exact h

theorem writesFrom_padHeader (c : Core) (pad epoch : Nat) (r : ChanRx) : WritesFrom c (c.padHeader pad epoch r).2 := ⟨c.reel, _, rfl⟩

/-- A core in which receive end n is r but for the stages of its records, and that has all of c but channel n. -/
structure Staged (n : Nat) (r : ChanRx) (c d : Core) : Prop where
  only : OnlyChan n c d
  chan : ∃ l, l.map RxRec.msg = r.recs.map RxRec.msg ∧ d.chan n = { c.chan n with rx := some { r with recs := l } }

theorem chan_rx_same {h : Chan} {r : ChanRx} (hrx : h.rx = some r) : { h with rx := some r } = h := by rw [← hrx]

theorem Staged.refl {n : Nat} {r : ChanRx} {c : Core} (hrx : (c.chan n).rx = some r) : Staged n r c c :=
  ⟨.refl n c, r.recs, rfl, (chan_rx_same hrx).symm⟩

theorem staged_setChan {n : Nat} (c : Core) (r : ChanRx) {l : List RxRec} (h : l.map RxRec.msg = r.recs.map RxRec.msg) :
    Staged n r c (c.setChan n { c.chan n with rx := some { r with recs := l } }) :=
  ⟨onlyChan_setChan .., l, h, Core.chan_setChan ..⟩

theorem staged_setHead {n : Nat} {r : ChanRx} {x y : RxRec} {rest : List RxRec} (c : Core) (hrecs : r.recs = x :: rest)
    (hmsg : y.msg = x.msg) : Staged n r c (c.setHead n r y rest) :=
  staged_setChan c r (by rw [hrecs, List.map_cons, List.map_cons, hmsg])

theorem Staged.trans {n : Nat} {r : ChanRx} {c d e : Core} (h : Staged n r c d)
    (k : ∀ q, (d.chan n).rx = some q → Staged n q d e) : Staged n r c e := by
  obtain ⟨honly, l, hl, hchan⟩ := h
  obtain ⟨konly, l', hl', kchan⟩ := k { r with recs := l } (by rw [hchan])
  exact ⟨honly.trans konly, l', hl'.trans hl, by rw [kchan, hchan]⟩

theorem Staged.writes {n : Nat} {r : ChanRx} {c d e : Core} (h : Staged n r c d) (k : WritesFrom d e) : Staged n r c e := by
  obtain ⟨honly, l, hl, hchan⟩ := h
  exact ⟨honly.trans (k.onlyChan n), l, hl, (k.chan n).trans hchan⟩

theorem staged_rxHeader {c : Core} {n : Nat} {r : ChanRx} (hrx : (c.chan n).rx = some r) : Staged n r c (c.rxHeader n) := by
  simp only [Core.rxHeader, hrx]
  split
  next => exact .refl hrx
  next x rest hrecs =>
    split
    next =>
      refine .writes ?_ (writesFrom_reelWrite ..)
      exact staged_setHead c hrecs rfl
    next => exact .refl hrx

/-- The record at the front begins: its pad, its payload and its header are written, and its end keeps its records. -/
theorem staged_rxStart {c : Core} {n : Nat} {r : ChanRx} (hrx : (c.chan n).rx = some r) : Staged n r c (c.rxStart n) := by
  simp only [Core.rxStart, hrx]
  split
  next => exact .refl hrx
  next x rest hrecs =>
    split
    next =>
      refine .trans ?_ fun q => staged_rxHeader
      refine .writes ?_ (writesFrom_unless (writesFrom_reelWrite ..))
      refine .writes ?_ (writesFrom_unless ((writesFrom_padHeader ..).trans (writesFrom_reelWrite ..)))
      exact staged_setHead c hrecs rfl
    next => exact .refl hrx

/-- The record at the front has been dealt with: the others stay. -/
theorem staged_rxNext {c : Core} {n : Nat} {r : ChanRx} (hrx : (c.chan n).rx = some r) :
    Staged n { r with recs := r.recs.drop 1 } c (c.rxNext n) := by
  have hnext : c.rxNext n = (c.setChan n { c.chan n with rx := some { r with recs := r.recs.drop 1 } }).rxStart n := by
    simp only [Core.rxNext, hrx, Option.map_some]
  rw [hnext]
  exact (staged_setChan c { r with recs := r.recs.drop 1 } rfl).trans fun q => staged_rxStart

/-! Arrival (R236, R237, R241) -/

/-- A frame that carries a record. -/
def ChanBody.isRecord (b : ChanBody) : Bool := match b with | .record _ _ _ _ => true | _ => false

theorem exec_channelRecord {s : State} {a : Arrival} {c : Core} {m : ChanMsg} {e pad i : Nat} {msg : MsgRec} (hr : s.running = true)
    (ha : a.wf = true) (harr : s.core.chanFrame ChanBody.isRecord a = (c, some m)) (hb : m.body = .record e pad msg i) :
    exec (.channelRecord a) s = .next (s.withCore (c.recordIn m e msg)) := by
  change execChannelRecord a s = _
  rw [execChannelRecord, if_pos ha, onRun_running hr]
  generalize hx : s.core.chanFrame _ a = x
  obtain rfl : x = (c, some m) := hx.symm.trans harr
  simp only [hb]

section Record
variable {c : Core} {m : ChanMsg} {e : Nat} {msg : MsgRec}

theorem recordIn_taken {r : ChanRx} (hrx : (c.chan m.toChan).rx = some r) (hrest : c.restoring r.ctx = false)
    (he : e = (c.chan m.toChan).epoch) (hpos : m.fromPos = r.srcPos) (hchan : m.fromChan = r.srcChan)
    (hsize : msgSize msg ≤ 2 ^ r.ringLog2) :
    Staged m.toChan (r.take msg) c (c.recordIn m e msg) := by
  have hcount := sentFrom_countChan c (some r.ctx)
  have htaken : c.recordIn m e msg = ((c.countChan (some r.ctx)).setChan m.toChan
      { (c.countChan (some r.ctx)).chan m.toChan with rx := some (r.take msg) }).rxStart m.toChan := by
    simp only [Core.recordIn, hrx, hrest, Bool.false_eq_true, if_false]
    exact if_pos ⟨he, hpos, hchan, hsize⟩
  rw [htaken]
  obtain ⟨honly, l, hl, hstart⟩ := (staged_setChan (n := m.toChan) (c.countChan (some r.ctx)) (r.take msg) rfl).trans
    fun q => staged_rxStart
  exact ⟨(hcount.onlyChan _).trans honly, l, hl, by rw [hstart, hcount.chan]⟩

theorem recordIn_closed (hrx : (c.chan m.toChan).rx = none) (hclosing : (c.chan m.toChan).closing = none) :
    (c.recordIn m e msg).chan m.toChan = (c.chan m.toChan).discardOne ∧ OnlyChan m.toChan c (c.recordIn m e msg) := by
  have hcount := sentFrom_countChan c none
  simp only [Core.recordIn, hrx, hclosing, chan_chanDiscard, hcount.chan, true_and]
  exact (hcount.onlyChan _).trans (onlyChan_chanDiscard ..)

end Record

/-! Delivery (R239, R245) -/

section Exec
variable {s : State} {n : Nat}

theorem exec_recordDelivered (hn : n < 4096) (hr : s.running = true) :
    exec (.recordDelivered n) s = .next (s.withCore (s.core.deliver n)) := by
  change execRecordDelivered n s = _
  rw [execRecordDelivered, if_pos hn, onRun_running hr]

theorem exec_signalApply (hn : n < 4096) (hr : s.running = true) :
    exec (.signalApply n) s = .next (s.withCore (s.core.applySignal n)) := by
  change execSignalApply n s = _
  rw [execSignalApply, if_pos hn, onRun_running hr]

theorem exec_handlerCreate (hn : n < 4096) (hr : s.running = true) :
    exec (.handlerCreate n) s = .next (s.withCore (s.core.handlerStep n)) := by
  change execHandlerCreate n s = _
  rw [execHandlerCreate, if_pos hn, onRun_running hr]

theorem exec_consumedWordRead {r : ChanRx} (hn : n < 4096) (hr : s.running = true) (hrx : (s.core.chan n).rx = some r)
    (hpoll : r.polling = true) (htime : r.nextPoll ≤ s.core.now) (howed : r.due = true ∨ r.consumed ≠ r.wr) :
    exec (.consumedWordRead n) s = .next (s.withCore (s.core.readConsumed n r)) := by
  change execConsumedWordRead n s = _
  rw [execConsumedWordRead, if_pos hn, onRun_running hr]
  simp only [hrx]
  rw [if_pos (by simpa [hpoll, htime] using howed)]

end Exec

section Front
variable {c : Core} {n : Nat} {r : ChanRx} {x : RxRec} {rest : List RxRec} (hrx : (c.chan n).rx = some r) (hrecs : r.recs = x :: rest)

/-- A receive end that has delivered the record at its front. -/
def ChanRx.delivered (r : ChanRx) (x : RxRec) (rest : List RxRec) : ChanRx :=
  { r with dlvd := r.dlvd + 1, recs := { x with stage := .handler } :: rest }

/-- A core in which the record at the front of end n has been delivered, and its sender told. -/
def Core.delivered (c : Core) (n : Nat) (r : ChanRx) (x : RxRec) (rest : List RxRec) : Core :=
  (c.setChan n ({ c.chan n with rx := some (r.delivered x rest) }.counted x)).chanNotice n (r.delivered x rest)
    (.credit (c.chan n).epoch (r.delivered x rest).consumed (r.delivered x rest).dlvd)

theorem chan_delivered (c : Core) (n : Nat) (r : ChanRx) (x : RxRec) (rest : List RxRec) :
    (c.delivered n r x rest).chan n = { c.chan n with rx := some (r.delivered x rest) }.counted x := by
  rw [Core.delivered, (sentFrom_chanNotice ..).chan, Core.chan_setChan]

theorem onlyChan_delivered (c : Core) (n : Nat) (r : ChanRx) (x : RxRec) (rest : List RxRec) :
    OnlyChan n c (c.delivered n r x rest) :=
  (onlyChan_setChan ..).trans ((sentFrom_chanNotice ..).onlyChan n)

theorem counted_withRx (h : Chan) (o : Option ChanRx) (x : RxRec) : { h.counted x with rx := o } = { h with rx := o }.counted x := by
  unfold Chan.counted
  split <;> rfl

theorem counted_data (h : Chan) {x : RxRec} (hk : x.msg.kind = 1) : (h.counted x).rxMsgs = min (h.rxMsgs + 1) (2 ^ 64 - 1)
    ∧ (h.counted x).rxBytes = min (h.rxBytes + x.msg.len) (2 ^ 64 - 1) := by
  rw [Chan.counted, if_pos hk]
  exact ⟨rfl, rfl⟩

theorem counted_other (h : Chan) {x : RxRec} (hk : x.msg.kind ≠ 1) : h.counted x = h := if_neg hk

include hrx hrecs

theorem deliver_written (hst : x.stage = .written) : c.deliver n
    = if x.msg.kind = 1 ∧ r.handlerOf x.msg = none then (c.delivered n r x rest).rxNext n else c.delivered n r x rest := by
  simp only [Core.deliver, hrx, hrecs, hst]
  simp only [if_true, Bool.and_eq_true, beq_iff_eq, Option.isNone_iff_eq_none]
  rfl

/-- What a delivery leaves of its channel: the counts, and the records of the end, the first of them gone where it has no handler. -/
theorem deliver_leaves (hst : x.stage = .written) : ∃ v, (c.deliver n).chan n = { c.chan n with rx := some v }.counted x
    ∧ v.dlvd = r.dlvd + 1 ∧ (x.msg.kind = 1 → r.handlerOf x.msg = none → v.recs.length = rest.length)
    ∧ ((x.msg.kind ≠ 1 ∨ r.handlerOf x.msg ≠ none) → v.recs = { x with stage := .handler } :: rest)
    ∧ OnlyChan n c (c.deliver n) := by
  have honly := onlyChan_delivered c n r x rest
  have hchan := chan_delivered c n r x rest
  rw [deliver_written hrx hrecs hst]
  split
  next hdone =>
    have hend : ((c.delivered n r x rest).chan n).rx = some (r.delivered x rest) := by
      rw [hchan]
      obtain ⟨a, b, hcount⟩ := counted_eq { c.chan n with rx := some (r.delivered x rest) } x
      rw [hcount]
    obtain ⟨hnext, l, hl, hafter⟩ := staged_rxNext hend
    refine ⟨_, by rw [hafter, hchan, counted_withRx], rfl, fun _ _ => ?_, fun h => ?_, honly.trans hnext⟩
    · simpa [ChanRx.delivered] using congrArg List.length hl
    · exact absurd hdone (Decidable.not_and_iff_not_or_not.mpr h)
  next hstays => exact ⟨_, hchan, rfl, fun hk hh => absurd ⟨hk, hh⟩ hstays, fun _ => rfl, honly⟩

/-! Signals (R245, R246) -/

section Signal
variable (hst : x.stage = .handler) (hkind : x.msg.kind = 2) (hfree : ∀ w, w ∈ c.stash.waiting → w.2 ≠ .chan n)
include hst hkind hfree

omit hrx hrecs in
theorem signal_front : (x.stage == .handler && x.msg.kind == 2 && !(c.stash.waiting.any fun w => w.2 == .chan n)) = true := by
  simpa [hst, hkind] using fun a b hw => hfree (a, b) hw

theorem applySignal_good {d : Nat} (hbad : c.signalBad r.ctx x.msg = none) (hmet : x.metAt = some d) (hlater : d < c.dclk) :
    c.applySignal n = (c.sigAdd x.msg.sig x.msg.value).rxNext n := by
  simp only [Core.applySignal, hrx, hrecs, hbad, hmet]
  rw [if_pos (signal_front hst hkind hfree), if_pos hlater]

/-- A bad signal sets the flag and goes to the stash; where it finds room there the next record begins. -/
theorem applySignal_bad (hbad : c.signalBad r.ctx x.msg ≠ none) : ∃ item,
    c.applySignal n = if ((c.setChanEvt n 4 r.ctx).stashPut item (.chan n)).2
      then ((c.setChanEvt n 4 r.ctx).stashPut item (.chan n)).1.rxNext n else ((c.setChanEvt n 4 r.ctx).stashPut item (.chan n)).1 := by
  obtain ⟨e, he⟩ := Option.ne_none_iff_exists'.mp hbad
  simp only [Core.applySignal, hrx, hrecs, he]
  exact ⟨_, if_pos (signal_front hst hkind hfree)⟩

end Signal

/-! Handlers (R247) -/

theorem handlerStep_creates {t : Nat} {q : Run} (hst : x.stage = .handler) (hhandler : r.handlerOf x.msg = some t)
    (hrun : c.handlerRun r = some q) :
    c.handlerStep n = (c.createDyn q.ctx q.tag .handler (t, x.offset, 0)).rxNext n := by
  simp only [Core.handlerStep, hrx, hrecs, hhandler, hst, hrun, if_true]

end Front

/-! What a signal leaves -/

theorem length_insertBy {α : Type} (before : α → α → Bool) (x : α) (l : List α) : (insertBy before x l).length = l.length + 1 := by
  induction l with
  | nil => rfl
  | cons a l ih =>
    rw [insertBy]
    split
    · rfl
    · rw [List.length_cons, ih, List.length_cons]

theorem length_aset_le {α : Type} (m : AMap α) (n : Nat) (v : α) : (aset m n v).length ≤ m.length + 1 := by
  induction m with
  | nil => exact Nat.le_refl 1
  | cons x m ih =>
    rw [aset]
    split
    · exact Nat.le_succ _
    · exact Nat.succ_le_succ ih

/-- Items held and items that wait. -/
def Stash.items (t : Stash) : Nat := t.ents.length + t.waiting.length

theorem stash_log (c : Core) (cls reason unit ctx status detail : Nat) (subject value : W64) :
    (c.log cls reason unit ctx status detail subject value).stash = c.stash := by
  obtain ⟨e, w, l, h⟩ := log_changes c cls reason unit ctx status detail subject value
  rw [h]

theorem stash_stashEnter (c : Core) (i : StashItem) : (c.stashEnter i).stash = { c.stash with
    ents := aset c.stash.ents (c.stash.wr % 64) (stashWords i c.gc.count), wr := (c.stash.wr + 1) % 2 ^ 32,
    status := setBit c.stash.status 0 true } := by
  rw [Core.stashEnter, stash_log, Core.mark_stash]

theorem stashPut_keeps (c : Core) (i : StashItem) (w : StashWaiter) : (c.stashPut i w).1.chans = c.chans
    ∧ (c.stashPut i w).1.graph = c.graph ∧ (c.stashPut i w).1.mem = c.mem ∧ (c.stashPut i w).1.fab = c.fab := by
  obtain ⟨t, e, f, l, h⟩ := stashPut_changes c i w
  rw [h]
  exact ⟨rfl, rfl, rfl, rfl⟩

theorem items_stashPut_le (c : Core) (i : StashItem) (w : StashWaiter) : (c.stashPut i w).1.stash.items ≤ c.stash.items + 1 := by
  unfold Core.stashPut
  split
  next =>
    rw [stash_stashEnter]
    have hents := length_aset_le c.stash.ents (c.stash.wr % 64) (stashWords i c.gc.count)
    simp only [Stash.items]
    omega
  next =>
    simp only [Core.mark_stash, Stash.items, length_insertBy]
    omega

theorem sig_sigAdd (c : Core) (k : Nat) (v : W64) : (c.sigAdd k v).sig k = c.sig k + v := agetD_aset_self ..

theorem sig_sigAdd_other (c : Core) {k j : Nat} (v : W64) (h : j ≠ k) : (c.sigAdd k v).sig j = c.sig j := agetD_aset_other _ _ _ _ _ h

section Signal
variable {c : Core} {n : Nat} {r : ChanRx} {x : RxRec} {rest : List RxRec} (hrx : (c.chan n).rx = some r) (hrecs : r.recs = x :: rest)
  (hst : x.stage = .handler) (hkind : x.msg.kind = 2) (hfree : ∀ w, w ∈ c.stash.waiting → w.2 ≠ .chan n)
include hrx hrecs hst hkind hfree

/-- A good signal adds to its word, and the next record begins. -/
theorem applySignal_adds {d : Nat} (hbad : c.signalBad r.ctx x.msg = none) (hmet : x.metAt = some d) (hlater : d < c.dclk) :
    (∃ v, ((c.applySignal n).chan n).rx = some v ∧ v.recs.length = rest.length)
    ∧ (c.applySignal n).sig x.msg.sig = c.sig x.msg.sig + x.msg.value
    ∧ (∀ k, k ≠ x.msg.sig → (c.applySignal n).sig k = c.sig k) ∧ (∀ k, k ≠ n → (c.applySignal n).chan k = c.chan k)
    ∧ (c.applySignal n).mem = c.mem := by
  rw [applySignal_good hrx hrecs hst hkind hfree hbad hmet hlater]
  have hrx' : ((c.sigAdd x.msg.sig x.msg.value).chan n).rx = some r := hrx
  obtain ⟨⟨hothers, hmem, hgraph, -, -⟩, l, hl, hchan⟩ := staged_rxNext hrx'
  have hsig : ∀ k, ((c.sigAdd x.msg.sig x.msg.value).rxNext n).sig k = (c.sigAdd x.msg.sig x.msg.value).sig k := fun k => by
    rw [Core.sig, hgraph, Core.sig]
  refine ⟨⟨_, by rw [hchan], ?_⟩, ?_, fun k hk => ?_, hothers, hmem⟩
  · simpa [hrecs] using congrArg List.length hl
  · rw [hsig, sig_sigAdd]
  · rw [hsig, sig_sigAdd_other _ _ hk]

/-- A bad signal sets the flag of its channel, and at most one item more is in the stash or waits for it. -/
theorem applySignal_stashes (hbad : c.signalBad r.ctx x.msg ≠ none) :
    bitAt ((c.applySignal n).chan n).evt 4 = true ∧ (c.applySignal n).graph = c.graph
    ∧ (c.applySignal n).stash.items ≤ c.stash.items + 1 ∧ (c.applySignal n).mem = c.mem := by
  obtain ⟨item, hput⟩ := applySignal_bad hrx hrecs hst hkind hfree hbad
  have hflag := onlyChan_setChanEvt c n 4 r.ctx
  have hitems := items_stashPut_le (c.setChanEvt n 4 r.ctx) item (.chan n)
  obtain ⟨hchans, hgraph, hmem, -⟩ := stashPut_keeps (c.setChanEvt n 4 r.ctx) item (.chan n)
  rw [hput]
  generalize ((c.setChanEvt n 4 r.ctx).stashPut item (.chan n)).1 = d at hchans hgraph hmem hitems ⊢
  rw [hflag.stash] at hitems
  rw [hflag.graph] at hgraph
  rw [hflag.mem] at hmem
  have hchan : d.chan n = { c.chan n with evt := setBit (c.chan n).evt 4 true } := by
    rw [Core.chan, hchans]
    exact chan_setChanEvt ..
  have hevt : bitAt (setBit (c.chan n).evt 4 true) 4 = true := bitAt_setBit_self _ _ (by omega)
  split
  next =>
    obtain ⟨honly, l, -, hnext⟩ := staged_rxNext (c := d) (n := n) (r := r) (by rw [hchan]; exact hrx)
    refine ⟨?_, honly.graph.trans hgraph, by rw [honly.stash]; exact hitems, honly.mem.trans hmem⟩
    rw [hnext, hchan]; exact hevt
  next => exact ⟨by rw [hchan]; exact hevt, hgraph, hitems, hmem⟩

end Signal

/-! The obligation -/

/-- Settles O45: the arrival, the delivery and the signal by what they leave of the end and its records, the handler task and the
consumed word by their own equations. -/
theorem recordsReceivedAndServed : Obligations.RecordsReceivedAndServed := by
  unfold Obligations.RecordsReceivedAndServed
  refine ⟨⟨?_, ?_⟩, ?_⟩
  · intro s a c m e pad i msg hr ha harr hb
    have hexec := exec_channelRecord hr ha harr hb
    refine ⟨fun r hrx hrest he hpos hfrom hsize => ?_, fun hrx hclosing => ?_⟩
    · obtain ⟨⟨hothers, hmem, -, hqueues, -⟩, l, hl, hchan⟩ := recordIn_taken hrx hrest he hpos hfrom hsize
      have hlength : l.length = r.recs.length + 1 := by simpa [ChanRx.take] using congrArg List.length hl
      have hlast : l[r.recs.length]?.map RxRec.msg = some msg := by
        rw [← List.getElem?_map, hl]; simp [ChanRx.take]
      exact ⟨_, { r.take msg with recs := l }, hexec, by rw [State.withCore_core, hchan], rfl, hlength, rfl, rfl, hlast,
        by rw [State.withCore_core, hchan], hothers, hmem, hqueues⟩
    · obtain ⟨hchan, honly⟩ := recordIn_closed (e := e) (msg := msg) hrx hclosing
      refine ⟨_, hexec, ?_, ?_, ?_, honly.others, honly.mem⟩ <;> rw [State.withCore_core, hchan]
      · exact hrx
      · rfl
      · exact bitAt_setBit_self _ _ (by omega)
  · intro s n r x rest hn hr hrx hrecs hst
    obtain ⟨v, hchan, hdlvd, hdone, hstays, honly⟩ := deliver_leaves hrx hrecs hst
    refine ⟨_, v, exec_recordDelivered hn hr, ?_, hdlvd, fun hk => ?_, fun hk => ?_, hdone, hstays, honly.others, honly.mem,
      honly.graph⟩ <;> rw [State.withCore_core, hchan]
    · obtain ⟨a, b, hcount⟩ := counted_eq { s.core.chan n with rx := some v } x
      rw [hcount]
    · exact counted_data _ hk
    · rw [counted_other _ hk]; exact ⟨rfl, rfl⟩
  · intro s n r hn hr hrx
    refine ⟨fun x rest hrecs hst hkind hfree => ⟨fun d hmet hlater hbad => ?_, fun hbad => ?_⟩, ?_, ?_⟩
    · obtain ⟨⟨v, hv, hlength⟩, hsig, hsigs, hothers, hmem⟩ := applySignal_adds hrx hrecs hst hkind hfree hbad hmet hlater
      exact ⟨_, v, exec_signalApply hn hr, hsig, hsigs, hv, hlength, hothers, hmem⟩
    · obtain ⟨hevt, hgraph, hitems, hmem⟩ := applySignal_stashes hrx hrecs hst hkind hfree hbad
      exact ⟨_, exec_signalApply hn hr, hevt, hgraph, hitems, hmem⟩
    · intro x rest t q hrecs hst hhandler hrun
      rw [exec_handlerCreate hn hr, handlerStep_creates hrx hrecs hst hhandler hrun]
    · intro hpoll htime howed hno
      rw [exec_consumedWordRead hn hr hrx hpoll htime howed, Core.readConsumed, if_neg (by rw [hno]; exact Bool.false_ne_true)]

end Sys2Proof.Machine
end

section
/-! PROOFS. Notices at a send end, and ring adds to signal words (O46). -/

namespace Sys2Proof.Machine

/-! Notices (R239 to R241) -/

/-- A frame that carries an OPEN notice. -/
def ChanBody.isOpenNotice (b : ChanBody) : Bool := match b with | .openNotice _ _ => true | _ => false
/-- A frame that carries a CLOSE notice. -/
def ChanBody.isCloseNotice (b : ChanBody) : Bool := match b with | .closeNotice _ => true | _ => false
/-- A frame that carries a credit. -/
def ChanBody.isCredit (b : ChanBody) : Bool := match b with | .credit _ _ _ => true | _ => false
/-- A frame that carries a refusal. -/
def ChanBody.isRefusal (b : ChanBody) : Bool := match b with | .refusal _ _ => true | _ => false

section Notice
variable {s : State} {a : Arrival} {c : Core} {m : ChanMsg} (hr : s.running = true) (ha : a.wf = true)
include hr ha

theorem exec_openNotice {e l : Nat} (harr : s.core.chanFrame ChanBody.isOpenNotice a = (c, some m)) (hb : m.body = .openNotice e l) :
    exec (.openNotice a) s = .next (s.withCore (c.onNotice m fun d _ t =>
      if t.st = .opened ∧ e = t.epoch then d else d.openIn m.toChan e l t)) := by
  change execOpenNotice a s = _
  rw [execOpenNotice, if_pos ha, onRun_running hr]
  generalize hx : s.core.chanFrame _ a = x
  obtain rfl : x = (c, some m) := hx.symm.trans harr
  simp only [hb]

theorem exec_closeNotice {r : Nat} (harr : s.core.chanFrame ChanBody.isCloseNotice a = (c, some m)) (hb : m.body = .closeNotice r) :
    exec (.closeNotice a) s = .next (s.withCore (c.onNotice m fun d h t =>
      if t.st = .opened then d.setChan m.toChan { h with tx := some { t with st := .closed, reason := r } } else d)) := by
  change execCloseNotice a s = _
  rw [execCloseNotice, if_pos ha, onRun_running hr]
  generalize hx : s.core.chanFrame _ a = x
  obtain rfl : x = (c, some m) := hx.symm.trans harr
  simp only [hb]

theorem exec_creditNotice {e k dl : Nat} (harr : s.core.chanFrame ChanBody.isCredit a = (c, some m)) (hb : m.body = .credit e k dl) :
    exec (.creditNotice a) s = .next (s.withCore (c.onNotice m fun d h t =>
      if e = t.epoch then d.creditIn m.toChan h t k dl else d)) := by
  change execCreditNotice a s = _
  rw [execCreditNotice, if_pos ha, onRun_running hr]
  generalize hx : s.core.chanFrame _ a = x
  obtain rfl : x = (c, some m) := hx.symm.trans harr
  simp only [hb]

theorem exec_sendRefusal {e r : Nat} (harr : s.core.chanFrame ChanBody.isRefusal a = (c, some m)) (hb : m.body = .refusal e r) :
    exec (.sendRefusal a) s = .next (s.withCore (c.onNotice m fun d h t => d.refusalIn m.toChan h t e r)) := by
  change execSendRefusal a s = _
  rw [execSendRefusal, if_pos ha, onRun_running hr]
  generalize hx : s.core.chanFrame _ a = x
  obtain rfl : x = (c, some m) := hx.symm.trans harr
  simp only [hb]

end Notice

/-- A notice from the receive end that the route names is counted and handed over. -/
theorem onNotice_named {c : Core} {m : ChanMsg} {t : ChanTx} (f : Core → Chan → ChanTx → Core) (htx : (c.chan m.toChan).tx = some t)
    (hrest : c.restoring t.ctx = false) (hpos : m.fromPos = t.destPos) (hchan : m.fromChan = t.destChan) :
    c.onNotice m f = f (c.countChan (some t.ctx)) (c.chan m.toChan) t := by
  simp only [Core.onNotice, htx, hrest, hpos, hchan, Bool.false_eq_true, if_false, and_self, if_true]

/-- A send end that is not OPEN opens with epoch, ring size and whole credit (R240). -/
theorem openIn_unopened {c : Core} {n : Nat} {t : ChanTx} (epoch ringLog2 : Nat) (htx : (c.chan n).tx = some t) (hst : t.st ≠ .opened) :
    c.openIn n epoch ringLog2 t = c.setChan n { c.chan n with tx := some { t with
      st := .opened, epoch := epoch, ringLog2 := ringLog2, wr := 0, consumed := 0, delivered := 0, sentRecs := 0 } } := by
  simp only [Core.openIn, hst, false_and, if_false, htx, Option.map_some]

/-- A credit that reports no further delivery takes up what is consumed, where that is no older (R239). -/
theorem creditIn_undelivered (c : Core) (n : Nat) (h : Chan) (t : ChanTx) (consumed : Nat) {delivered : Nat}
    (hle : delivered ≤ t.delivered) : c.creditIn n h t consumed delivered = c.setChan n { h with tx := some { t with
      consumed := if diff64 consumed t.consumed ≤ diff64 t.wr t.consumed then consumed else t.consumed,
      sent := (t.sent.filter fun y => y.1 != t.epoch) ++ t.sent.filter fun y => y.1 == t.epoch } } := by
  simp only [Core.creditIn, Nat.sub_eq_zero_of_le hle, Nat.max_eq_left hle, List.drop_zero, List.take_zero, List.foldl_nil]

theorem refusalIn_oldest (c : Core) (n : Nat) (h : Chan) {t : ChanTx} {epoch : Nat} {x : Nat × TxRec} (reason : Nat)
    (hx : t.sent.find? (fun y => y.1 == epoch) = some x) : c.refusalIn n h t epoch reason
    = (c.setChan n { h with tx := some { t with sent := removeFirst (fun y => y.1 == epoch) t.sent } }).refuseSend n t.ctx
        x.2.task x.2.index reason := by
  simp only [Core.refusalIn, hx]

/-! Ring adds (R312, R347) -/

/-- A frame that carries a ring add. -/
def Payload.isSigadd (p : Payload) : Bool := match p with | .sigadd _ _ => true | _ => false

/-- Where a ring add waits that finds the stash full (R335): at its port, or at none. -/
def arrivalWaiter (a : Arrival) : StashWaiter := match a with | .link p _ => .port p | .here => .port 8

/-- A frame has arrived for the slice: it counts where some context is bound (R347). -/
def Core.countedRx (c : Core) : Core := if c.anyBound then { c with clip := { c.clip with rx := c.clip.rx + 1 } } else c

theorem exec_sigaddFrame {s : State} {a : Arrival} {c : Core} {f : Frame} {n : Nat} {v : W64} (hr : s.running = true) (ha : a.wf = true)
    (harr : s.core.arrive Payload.isSigadd a = (c, some f)) (hf : f.payload = .sigadd n v)
    (hrest : ∀ k, k < 64 → ¬(c.restoring k = true ∧ c.sigIn k n = true)) :
    exec (.sigaddFrame a) s = .next (s.withCore (c.countedRx.ringAdd f.src n v (arrivalWaiter a))) := by
  have hnone : ((List.range 64).any fun k => c.restoring k && c.sigIn k n) = false := by
    simpa using hrest
  change execSigaddFrame a s = _
  unfold execSigaddFrame
  rw [if_pos ha, onRun_running hr]
  generalize hx : s.core.arrive _ a = x
  obtain rfl : x = (c, some f) := hx.symm.trans harr
  simp only [hf, hnone, Bool.false_eq_true, if_false]
  rfl

/-- Some context bound to the slice has the word in its signal range. -/
def Core.sigTaken (c : Core) (n : Nat) : Prop := ∃ k, k < 64 ∧ c.bound k = true ∧ c.sigIn k n = true

theorem sigTaken_iff (c : Core) (n : Nat) : ((List.range 64).any fun k => c.bound k && c.sigIn k n) = true ↔ c.sigTaken n := by
  simp [Core.sigTaken]

theorem ringAdd_taken {c : Core} {n : Nat} (src : Nat) (v : W64) (w : StashWaiter) (h : c.sigTaken n) :
    c.ringAdd src n v w = c.sigAdd n v := if_pos ((sigTaken_iff c n).mpr h)

theorem countedRx_bound {c : Core} {k : Nat} (hk : k < 64) (hbound : c.bound k = true) :
    c.countedRx = { c with clip := { c.clip with rx := c.clip.rx + 1 } } :=
  if_pos (List.any_eq_true.mpr ⟨k, List.mem_range.mpr hk, hbound⟩)

theorem countedRx_changes (c : Core) : ∃ k, c.countedRx = { c with clip := k } := by
  unfold Core.countedRx
  split
  · exact ⟨_, rfl⟩
  · exact ⟨c.clip, rfl⟩

theorem sigTaken_countedRx (c : Core) (n : Nat) : c.countedRx.sigTaken n ↔ c.sigTaken n := by
  obtain ⟨k, h⟩ := countedRx_changes c
  rw [h]
  exact Iff.rfl

/-- A flag of the fabric changes its register, the log, and what is kept of sets. -/
theorem setFab_changes (c : Core) (bit port : Nat) : ∃ e w l, c.setFab bit port
    = { c with fab := { c.fab with evt := satAdd (setBit c.fab.evt bit true) 48 16 1 }, evt := e, watch := w, sets := l } := by
  unfold Core.setFab
  exact log_changes ..

/-- A remote add that the stash of this chip takes (R312, Table 13-7). -/
def remoteItem (src n : Nat) (v : W64) : StashItem :=
  { tag := 0, status := .badParam, reason := 2, source := 7, ctx := 0, target := w64 (src * 2 ^ 48 + n), value := v }

/-- The registers of the fabric after a remote add that no context takes. -/
def Fabric.remoteStash (f : Fabric) : Fabric :=
  { f with cnt := satAdd f.cnt 32 32 1, evt := satAdd (setBit f.evt 5 true) 48 16 1 }

/-- A core that has counted a remote add that no context takes. -/
def Core.remoteCounted (c : Core) : Core := { c with fab := { c.fab with cnt := satAdd c.fab.cnt 32 32 1 } }

/-- A remote add that no context takes: it counts and sets remote_stash, and goes to the stash. -/
theorem ringAdd_untaken {c : Core} {n : Nat} (src : Nat) (v : W64) (w : StashWaiter) (h : ¬c.sigTaken n) :
    ∃ d : Core, c.ringAdd src n v w = (d.stashPut (remoteItem src n v) w).1 ∧ d.fab = c.fab.remoteStash ∧ d.stash = c.stash
      ∧ d.gc = c.gc ∧ d.graph = c.graph ∧ d.mem = c.mem ∧ d.chans = c.chans := by
  refine ⟨c.remoteCounted.setFab 5 w.linkPort, if_neg (mt (sigTaken_iff c n).mp h), ?_⟩
  obtain ⟨e, f, l, hflag⟩ := setFab_changes c.remoteCounted 5 w.linkPort
  rw [hflag]
  exact ⟨rfl, rfl, rfl, rfl, rfl, rfl⟩

theorem remoteStash_cnt (f : Fabric) : fld f.remoteStash.cnt 32 32 = min (fld f.cnt 32 32 + 1) (2 ^ 32 - 1) :=
  fld_satAdd_self _ _ (by omega)

theorem remoteStash_flag (f : Fabric) : bitAt f.remoteStash.evt 5 = true :=
  (bitAt_satAdd_outside _ _ (by omega)).trans (bitAt_setBit_self _ _ (by omega))

/-- With room in the stash and nothing waiting for it, an item takes the next entry (R334). -/
theorem stash_stashPut_room {c : Core} (i : StashItem) (w : StashWaiter) (hroom : c.stashHeld < 64) (hnone : c.stash.waiting = []) :
    (c.stashPut i w).1.stash = { c.stash with ents := aset c.stash.ents (c.stash.wr % 64) (stashWords i c.gc.count),
                                              wr := (c.stash.wr + 1) % 2 ^ 32, status := setBit c.stash.status 0 true } := by
  rw [Core.stashPut, if_pos ⟨hroom, hnone⟩, stash_stashEnter]

/-- What a remote add that no context takes leaves (R312). -/
theorem ringAdd_stashes {c : Core} {n : Nat} (src : Nat) (v : W64) (w : StashWaiter) (h : ¬c.sigTaken n) :
    fld (c.ringAdd src n v w).fab.cnt 32 32 = min (fld c.fab.cnt 32 32 + 1) (2 ^ 32 - 1)
    ∧ bitAt (c.ringAdd src n v w).fab.evt 5 = true ∧ (c.ringAdd src n v w).graph = c.graph ∧ (c.ringAdd src n v w).mem = c.mem
    ∧ (c.ringAdd src n v w).chans = c.chans
    ∧ (c.stashHeld < 64 → c.stash.waiting = [] → (c.ringAdd src n v w).stash.wr = (c.stash.wr + 1) % 2 ^ 32
        ∧ aget (c.ringAdd src n v w).stash.ents (c.stash.wr % 64) = some (stashWords (remoteItem src n v) c.gc.count)) := by
  obtain ⟨d, hput, hfab, hstash, hgc, hgraph, hmem, hchans⟩ := ringAdd_untaken src v w h
  obtain ⟨pchans, pgraph, pmem, pfab⟩ := stashPut_keeps d (remoteItem src n v) w
  rw [hput, pfab, hfab]
  refine ⟨remoteStash_cnt _, remoteStash_flag _, pgraph.trans hgraph, pmem.trans hmem, pchans.trans hchans, fun hroom hnone => ?_⟩
  have hroom' : d.stashHeld < 64 := by rw [Core.stashHeld, hstash]; exact hroom
  rw [stash_stashPut_room _ _ hroom' (by rw [hstash]; exact hnone), hstash, hgc]
  exact ⟨rfl, aget_aset_self ..⟩

/-! The obligation -/

/-- Settles O46: each notice by what it does to the send end that its route names, the ring add by whether a bound context takes it. -/
theorem noticesAndRingAdds : Obligations.NoticesAndRingAdds := by
  unfold Obligations.NoticesAndRingAdds
  refine ⟨?_, ?_⟩
  · intro s a c m t hr ha htx hrest hpos hchan d put
    have htx' : (d.chan m.toChan).tx = some t := by rw [(sentFrom_countChan ..).chan]; exact htx
    refine ⟨?_, ?_, ?_, ?_⟩
    · intro e l harr hb
      rw [exec_openNotice hr ha harr hb, onNotice_named _ htx hrest hpos hchan]
      refine ⟨fun hst => ?_, fun hst he => by rw [if_pos ⟨hst, he⟩]⟩
      rw [if_neg fun h => hst h.1, openIn_unopened e l htx' hst, (sentFrom_countChan ..).chan]
    · intro r harr hb
      rw [exec_closeNotice hr ha harr hb, onNotice_named _ htx hrest hpos hchan]
      exact ⟨fun hst => by rw [if_pos hst], fun hst => by rw [if_neg hst]⟩
    · intro e k dl harr hb
      rw [exec_creditNotice hr ha harr hb, onNotice_named _ htx hrest hpos hchan]
      refine ⟨fun he => by rw [if_neg he], fun he => by rw [if_pos he], fun he hle => ?_⟩
      rw [if_pos he, creditIn_undelivered _ _ _ _ _ hle]
    · intro e r x harr hb hx
      rw [exec_sendRefusal hr ha harr hb, onNotice_named _ htx hrest hpos hchan, refusalIn_oldest _ _ _ _ hx]
  · intro s a c f n v hr ha harr hf hrest
    have hexec := exec_sigaddFrame hr ha harr hf hrest
    refine ⟨fun htaken => ?_, fun hno => ?_⟩
    · obtain ⟨k, hk, hbound, hin⟩ := htaken
      rw [ringAdd_taken _ _ _ ((sigTaken_countedRx c n).mpr ⟨k, hk, hbound, hin⟩), countedRx_bound hk hbound] at hexec
      exact ⟨_, hexec, rfl, sig_sigAdd .., fun j hj => sig_sigAdd_other _ _ hj⟩
    · have hleaves := ringAdd_stashes f.src v (arrivalWaiter a)
        (mt (sigTaken_countedRx c n).mp fun ⟨k, hk, h⟩ => hno k hk h)
      obtain ⟨x, hcount⟩ := countedRx_changes c
      rw [hcount] at hexec hleaves
      exact ⟨_, hexec, hleaves⟩

end Sys2Proof.Machine
end

section
/-! PROOFS. A collective from its start to its end (O50): where a start leads by its turn and its binding, what an exchange sends, the
writes of the outputs with their counts, the end, and the count of the page at the end of the DCLK. -/

namespace Sys2Proof.Machine

/-! The commands (R259, R260) -/

section Exec
variable {s : State} {n k : Nat} (hn : n < 64) (hk : k < 64) (hr : s.running = true)
include hn hk hr

theorem exec_collectiveStart : exec (.collectiveStart n k) s = .next (s.withCore (s.core.collStart n k)) := by
  change execCollectiveStart n k s = _
  rw [execCollectiveStart, if_pos ⟨hn, hk⟩, onRun_running hr]

theorem exec_collectiveExchange : exec (.collectiveExchange n k) s = .next (s.withCore (s.core.collExchange n k)) := by
  change execCollectiveExchange n k s = _
  rw [execCollectiveExchange, if_pos ⟨hn, hk⟩, onRun_running hr]

theorem exec_collectiveWrite : exec (.collectiveWrite n k) s = .next (s.withCore (s.core.collWrite n k)) := by
  change execCollectiveWrite n k s = _
  rw [execCollectiveWrite, if_pos ⟨hn, hk⟩, onRun_running hr]

theorem exec_collectiveDone : exec (.collectiveDone n k) s = .next (s.withCore (s.core.collDone n k)) := by
  change execCollectiveDone n k s = _
  rw [execCollectiveDone, if_pos ⟨hn, hk⟩, onRun_running hr]

end Exec

/-! IDLE to LOCAL (R259, R265) -/

/-- A core in which the collective of a slot is in a state with its working data. -/
def Core.collAt (c : Core) (n k : Nat) (st : CollSt) (w : CollWork) : Core :=
  c.setCollRun n k { c.collRun n k with st := st, work := some w }

theorem collRun_setCollRun (c : Core) (n k : Nat) (x : CollRun) : (c.setCollRun n k x).collRun n k = x := by
  rw [Core.collRun, Core.setCollRun, Core.plyPage_setPlyPage, agetD_aset_self]

theorem collStart_waits {c : Core} {n k : Nat} (hwait : c.collFirst (.inl (n, k)) = false) : c.collStart n k = c := by
  rw [Core.collStart, hwait]; rfl

section Parts
variable {c : Core} {n k : Nat} {sl : Slot} {g : GroupEnt} {r : Run} {w : CollWork} (hparts : c.collParts n k = some (sl, g, r, w))
include hparts

section Turn
variable (hturn : c.collFirst (.inl (n, k)) = true)
include hturn

theorem collStart_unbound (hen : sl.bindEn = false) : c.collStart n k = c.collAt n k .loc { w with len := sl.count } := by
  simp only [Core.collStart, hturn, hparts, hen]; rfl

theorem collStart_binds (hen : sl.bindEn = true) (hbind : c.bindOk sl.table sl.expert r = true) :
    c.collStart n k = c.collAt n k .loc { w with
      absent := (c.table sl.table).accepted sl.expert == 0, len := min sl.count ((c.table sl.table).accepted sl.expert) } := by
  simp only [Core.collStart, hturn, hparts, hen, hbind]; rfl

theorem collStart_misses (hen : sl.bindEn = true) (hbind : c.bindOk sl.table sl.expert r = false) :
    c.collStart n k = (c.collAt n k .loc { w with absent := true, len := 0 }).moeUnbound sl.table n (w64 (2 ^ 63 + k)) := by
  simp only [Core.collStart, hturn, hparts, hen, hbind]; rfl

end Turn

/-! LOCAL to EXCHANGE (R260) -/

section Local
variable (hst : (c.collRun n k).st = .loc)
include hst

theorem collExchange_sends {l : List PlyData × List (List Partial)} (hdata : c.collData r sl g w = .ok l) : c.collExchange n k
    = (c.collAt n k .exchange { w with own := l.2 }).plyEnter n (c.plyKey n k) (plyParams sl g) l.1 := by
  simp only [Core.collExchange, hparts, hdata]
  exact if_neg (not_not_intro hst)

theorem collExchange_fails {e : Status × Nat} (hdata : c.collData r sl g w = .error e) (he : e ≠ (.faulted, heldCode)) :
    c.collExchange n k = c.collFails n k e.1 e.2 := by
  simp only [Core.collExchange, hparts, hdata]
  rw [if_neg (not_not_intro hst), if_neg he]

end Local

/-! EXCHANGE to WRITE (R260, R266) -/

/-- The working data of a collective that writes its outputs; whether a status line is to follow is the slot's. -/
def CollWork.writing (w : CollWork) (o : CollOut) (status : Bool) : CollWork :=
  { w with oob := o.oob, flags := o.flags, empties := o.empties, collide := o.collide, status := status }

/-- A core that has counted the outputs of a collective, taken it to WRITE and issued its outputs to an address. -/
def Core.outputsIssued (c : Core) (n k : Nat) (w : CollWork) (o : CollOut) (status : Bool) (dst : Nat) : Core :=
  o.writes.foldl (fun d y => d.reelWrite (dst + y.1) y.2 (.collWrite n k))
    ((c.plyCount n o).setCollRun n k { c.collRun n k with st := .write, work := some (w.writing o status) })

theorem collWrite_issues {a : Nat × Nat} (hst : (c.collRun n k).st = .exchange)
    (hready : collReady sl g (c.heldFor (c.plyKey n k) (plyParams sl g)) = true) (hregions : c.collRegions r sl g = .ok a) :
    let o := collOut sl g w.own (c.heldFor (c.plyKey n k) (plyParams sl g))
    c.collWrite n k = ((presWrites sl g o).foldl (fun d y => d.reelWrite (a.2 + y.1) y.2 (.collWrite n k))
      (c.outputsIssued n k w o sl.presEn a.1)).collStatus n k := by
  simp only [Core.collWrite, hparts, hregions]
  exact if_pos ⟨hst, hready⟩

end Parts

theorem writesFrom_reelWrites (c : Core) (at_ : Nat) (l : List (Nat × List Byte)) (s : Serves) :
    WritesFrom c (l.foldl (fun d y => d.reelWrite (at_ + y.1) y.2 s) c) :=
  List.foldlRecOn l _ (.refl c) fun _ h _ _ => h.trans (writesFrom_reelWrite ..)

theorem WritesFrom.collRun {c d : Core} (h : WritesFrom c d) (n k : Nat) : d.collRun n k = c.collRun n k := by
  obtain ⟨r, f, rfl⟩ := h
  rfl

/-- A core that differs in the Ply pages and in what the records of flags change. -/
def FlagsFrom (c d : Core) : Prop := ∃ p e w l, d = { c with ply := p, evt := e, watch := w, sets := l }

theorem FlagsFrom.refl (c : Core) : FlagsFrom c c := ⟨c.ply, c.evt, c.watch, c.sets, rfl⟩

theorem FlagsFrom.trans {c d e : Core} (h : FlagsFrom c d) (k : FlagsFrom d e) : FlagsFrom c e := by
  obtain ⟨_, _, _, _, rfl⟩ := h
  obtain ⟨p, v, w, l, rfl⟩ := k
  exact ⟨p, v, w, l, rfl⟩

theorem FlagsFrom.keeps {c d : Core} (h : FlagsFrom c d) : d.mem = c.mem ∧ d.graph = c.graph ∧ d.queues = c.queues := by
  obtain ⟨p, e, w, l, rfl⟩ := h
  exact ⟨rfl, rfl, rfl⟩

theorem flagsFrom_setPlyPage (c : Core) (n : Nat) (x : PlyPage) : FlagsFrom c (c.setPlyPage n x) := ⟨_, c.evt, c.watch, c.sets, rfl⟩

theorem flagsFrom_setPlyFlag (c : Core) (n bit : Nat) : FlagsFrom c (c.setPlyFlag n bit) := by
  obtain ⟨e, w, l, h⟩ := setPlyFlag_changes c n bit
  exact ⟨_, e, w, l, h⟩

/-- The counts and flags of a collective change the Ply pages and the records of flags alone (R272). -/
theorem flagsFrom_plyCount (c : Core) (n : Nat) (o : CollOut) : FlagsFrom c (c.plyCount n o) := by
  refine List.foldlRecOn _ _ (flagsFrom_setPlyPage ..) fun d h b _ => ?_
  split
  · exact h.trans (flagsFrom_setPlyFlag ..)
  · exact h

theorem outputsIssued_keeps (c : Core) (n k : Nat) (w : CollWork) (o : CollOut) (status : Bool) (dst : Nat) :
    (c.outputsIssued n k w o status dst).mem = c.mem ∧ (c.outputsIssued n k w o status dst).graph = c.graph
    ∧ (c.outputsIssued n k w o status dst).queues = c.queues := by
  obtain ⟨q, f, hissued⟩ := writesFrom_reelWrites ((c.plyCount n o).setCollRun n k
    { c.collRun n k with st := .write, work := some (w.writing o status) }) dst o.writes (.collWrite n k)
  rw [Core.outputsIssued, hissued]
  exact (flagsFrom_plyCount c n o).keeps

theorem collRun_outputsIssued (c : Core) (n k : Nat) (w : CollWork) (o : CollOut) (status : Bool) (dst : Nat) :
    (c.outputsIssued n k w o status dst).collRun n k
    = { c.collRun n k with st := .write, work := some (w.writing o status) } :=
  ((writesFrom_reelWrites ..).collRun n k).trans (collRun_setCollRun ..)

theorem collParts_work {c : Core} {n k : Nat} {sl : Slot} {g : GroupEnt} {r : Run} {w : CollWork}
    (hparts : c.collParts n k = some (sl, g, r, w)) : (c.collRun n k).work = some w := by
  rw [Core.collParts] at hparts
  split at hparts
  next => exact nomatch hparts
  next v hwork =>
    split at hparts
    next => cases hparts; exact hwork
    next => exact nomatch hparts

/-- A collective that has no status line to write is left as it was. -/
theorem collStatus_none {c : Core} {n k : Nat} {w : CollWork} (hwork : (c.collRun n k).work = some w) (hno : w.status = false) :
    c.collStatus n k = c := by
  rw [Core.collStatus]
  split
  next => rfl
  next sl g r v hparts =>
    have hv : v = w := Option.some.inj ((collParts_work hparts).symm.trans hwork)
    exact if_neg (by simp [hv, hno])

/-- A slot without presence writes neither presence fields nor a status line (R266). -/
theorem outputsIssued_last (c : Core) (n k : Nat) {sl : Slot} (g : GroupEnt) (w : CollWork) (o : CollOut) (a : Nat × Nat)
    (hno : sl.presEn = false) :
    ((presWrites sl g o).foldl (fun d y => d.reelWrite (a.2 + y.1) y.2 (.collWrite n k))
      (c.outputsIssued n k w o sl.presEn a.1)).collStatus n k = c.outputsIssued n k w o sl.presEn a.1 := by
  have hpres : presWrites sl g o = [] := by rw [presWrites, hno]; rfl
  rw [hpres, List.foldl_nil]
  exact collStatus_none (congrArg CollRun.work (collRun_outputsIssued ..)) hno

/-! WRITE to DONE (R260) -/

theorem collDone_settles {c : Core} {n k : Nat} {w : CollWork} (hwork : (c.collRun n k).work = some w)
    (hst : (c.collRun n k).st = .write) (hstatus : w.status = false) (hacked : (c.reelServing fun y => y == .collWrite n k) = false) :
    c.collDone n k
    = ((c.collAt n k .done { w with endedAt := some c.dclk }).undefer w.task).settle w.task.ctx w.task.tag := by
  simp only [Core.collDone, hwork, hst, hstatus, hacked]
  rfl

/-! The count of the page (R272) -/

/-- How many collectives of a page ended in a DCLK. -/
def PlyPage.ended (g : PlyPage) (now : Nat) : Nat :=
  (g.runs.filter fun x => x.2.st == .done && (x.2.work.any fun w => w.endedAt == some now)).length

/-- A page that has counted the collectives that ended in a DCLK. -/
def PlyPage.counted (g : PlyPage) (now : Nat) : PlyPage :=
  { g with cnt3 := w64 (min (g.cnt3.toNat + g.ended now) (2 ^ 64 - 1)) }

/-- A core in which the page of a context has counted. -/
def Core.countPage (now : Nat) (c : Core) (n : Nat) : Core :=
  if (c.plyPage n).ended now = 0 then c else c.setPlyPage n ((c.plyPage n).counted now)

theorem collCounts_eq (c : Core) : c.collCounts = (c.ply.map Prod.fst).foldl (Core.countPage c.dclk) c := rfl

theorem counted_of_none_ended {g : PlyPage} {now : Nat} (h : g.ended now = 0) : g.counted now = g := by
  have hcnt : min (g.cnt3.toNat + 0) (2 ^ 64 - 1) = g.cnt3.toNat := by have := g.cnt3.isLt; omega
  rw [PlyPage.counted, h, hcnt, w64, BitVec.ofNat_toNat, BitVec.setWidth_eq]

theorem plyPage_countPage (now : Nat) (c : Core) (n : Nat) : (c.countPage now n).plyPage n = (c.plyPage n).counted now := by
  rw [Core.countPage]
  split
  next h => exact (counted_of_none_ended h).symm
  next => exact Core.plyPage_setPlyPage ..

theorem plyPage_countPage_other (now : Nat) (c : Core) {n j : Nat} (h : j ≠ n) : (c.countPage now n).plyPage j = c.plyPage j := by
  rw [Core.countPage]
  split
  · rfl
  · exact Core.plyPage_setPlyPage_other _ _ _ _ h

theorem plyPage_countPages_other (now : Nat) (c : Core) {l : List Nat} {n : Nat} (h : n ∉ l) :
    (l.foldl (Core.countPage now) c).plyPage n = c.plyPage n :=
  List.foldlRecOn (motive := fun d => d.plyPage n = c.plyPage n) l _ rfl fun d hd _ hm =>
    (plyPage_countPage_other now d (ne_of_mem_of_not_mem hm h).symm).trans hd

/-- Each page of a list without repetitions counts once. -/
theorem plyPage_countPages (now : Nat) (c : Core) {l : List Nat} {n : Nat} (hl : l.Nodup) (h : n ∈ l) :
    (l.foldl (Core.countPage now) c).plyPage n = (c.plyPage n).counted now := by
  induction l generalizing c with
  | nil => exact absurd h List.not_mem_nil
  | cons m l ih =>
    obtain ⟨hml, hl⟩ := List.nodup_cons.mp hl
    rw [List.foldl_cons]
    by_cases hm : n = m
    · subst hm
      rw [plyPage_countPages_other now _ hml, plyPage_countPage]
    · rw [ih _ hl ((List.mem_cons.mp h).resolve_left hm), plyPage_countPage_other now c hm]

/-- A page that is not there reads as after reset. -/
theorem plyPage_absent {c : Core} {n : Nat} (h : n ∉ c.ply.map Prod.fst) : c.plyPage n = .reset := by
  rw [Core.plyPage, agetD]
  cases hpage : aget c.ply n with
  | none => rfl
  | some x => exact absurd (List.mem_map_of_mem (mem_of_aget hpage)) h

theorem plyPage_collCounts {c : Core} (n : Nat) (hl : (c.ply.map Prod.fst).Nodup) :
    c.collCounts.plyPage n = (c.plyPage n).counted c.dclk := by
  rw [collCounts_eq]
  by_cases h : n ∈ c.ply.map Prod.fst
  · exact plyPage_countPages c.dclk c hl h
  · rw [plyPage_countPages_other c.dclk c h, counted_of_none_ended (by rw [plyPage_absent h]; rfl)]

theorem flagsFrom_collCounts (c : Core) : FlagsFrom c c.collCounts := by
  rw [collCounts_eq]
  refine List.foldlRecOn _ _ (.refl c) fun d h n _ => ?_
  rw [Core.countPage]
  split
  · exact h
  · exact h.trans (flagsFrom_setPlyPage ..)

/-! The obligation -/

/-- Settles O50: each command by what its step of the slot's run does, and the count of a page by the fold over the pages. -/
theorem collectiveRuns : Obligations.CollectiveRuns := by
  unfold Obligations.CollectiveRuns
  refine ⟨?_, ?_⟩
  · intro s n k sl g r w hn hk hr hparts x
    refine ⟨fun hwait => ?_, ?_, fun hst => ⟨fun l hdata => ?_, fun e hdata he => ?_⟩, ?_, fun hst hstatus hacked => ?_⟩
    · rw [exec_collectiveStart hn hk hr, collStart_waits hwait]; rfl
    · intro hturn put a
      rw [exec_collectiveStart hn hk hr]
      refine ⟨fun hen => ?_, fun hen hbind => ?_, fun hen hbind => ?_⟩
      · rw [collStart_unbound hparts hturn hen]; rfl
      · rw [collStart_binds hparts hturn hen hbind]; rfl
      · rw [collStart_misses hparts hturn hen hbind]; rfl
    · rw [exec_collectiveExchange hn hk hr, collExchange_sends hparts hst hdata]; rfl
    · rw [exec_collectiveExchange hn hk hr, collExchange_fails hparts hst hdata he]
    · intro a hst hs o hready hregions d
      rw [exec_collectiveWrite hn hk hr, collWrite_issues hparts hst hready hregions]
      exact ⟨rfl, fun hno => by rw [outputsIssued_last _ n k g w _ a hno]; rfl, outputsIssued_keeps ..⟩
    · rw [exec_collectiveDone hn hk hr, collDone_settles (collParts_work hparts) hst hstatus hacked]; rfl
  · intro c n hl
    obtain ⟨hmem, hgraph, -⟩ := (flagsFrom_collCounts c).keeps
    exact ⟨plyPage_collCounts n hl, hmem, hgraph⟩

end Sys2Proof.Machine
end

section
/-! PROOFS. Link ports: what sending on them leaves of their training, of the count and of memory, so that the statements of chapter 12
cite one frame for all of it. -/

namespace Sys2Proof.Machine

/-! What a port's training shows -/

/-- What training has made of a port (Table 12-6): its state with what it observed, took and measured, and nothing of its lanes,
its role and its counters. -/
def Link.training (l : Link) : Link :=
  { Link.reset with st := l.st, kind := l.kind, obsPos := l.obsPos, obsPort := l.obsPort, taken := l.taken, farTaken := l.farTaken,
                    latency := l.latency }

section Training
variable {x y : Link} (h : x.training = y.training)
include h

theorem st_of_training : x.st = y.st := congrArg Link.st (a₁ := x.training) (a₂ := y.training) h
theorem kind_of_training : x.kind = y.kind := congrArg Link.kind (a₁ := x.training) (a₂ := y.training) h
theorem obsPos_of_training : x.obsPos = y.obsPos := congrArg Link.obsPos (a₁ := x.training) (a₂ := y.training) h
theorem obsPort_of_training : x.obsPort = y.obsPort := congrArg Link.obsPort (a₁ := x.training) (a₂ := y.training) h
theorem taken_of_training : x.taken = y.taken := congrArg Link.taken (a₁ := x.training) (a₂ := y.training) h
theorem farTaken_of_training : x.farTaken = y.farTaken := congrArg Link.farTaken (a₁ := x.training) (a₂ := y.training) h
theorem latency_of_training : x.latency = y.latency := congrArg Link.latency (a₁ := x.training) (a₂ := y.training) h

end Training

@[simp] theorem training_setLane (l : Link) (vl : Nat) (a : LinkLane) : (l.setLane vl a).training = l.training := by
  unfold Link.setLane
  split <;> rfl

/-- A frame takes up an acknowledgement that is due and keeps its payload; the port only owes one less. -/
theorem stamp_changes (l : Link) (f : Frame) :
    (l.stamp f).1.payload = f.payload ∧ ∃ due since, (l.stamp f).2 = { l with ackDue := due, ackSince := since } := by
  unfold Link.stamp
  split
  · exact ⟨rfl, l.ackDue, l.ackSince, rfl⟩
  · exact ⟨rfl, _, _, rfl⟩

@[simp] theorem training_stamp (l : Link) (f : Frame) : (l.stamp f).2.training = l.training := by
  obtain ⟨-, due, since, h⟩ := stamp_changes l f
  rw [h]; rfl

@[simp] theorem training_transmit (l : Link) (now vl : Nat) (f : Frame) : (l.transmit now vl f).training = l.training :=
  (training_setLane ..).trans (training_stamp l f)

@[simp] theorem training_pumpLane (now vl n : Nat) (l : Link) : (l.pumpLane now vl n).training = l.training := by
  induction n generalizing l with
  | zero => rfl
  | succ n ih =>
    rw [Link.pumpLane]
    split
    · rfl
    · split
      · rfl
      · rw [ih, training_transmit, training_setLane]

@[simp] theorem training_pump (l : Link) (now : Nat) : (l.pump now).training = l.training :=
  List.foldlRecOn (motive := fun x : Link => x.training = l.training) _ _ rfl fun _ h _ _ => (training_pumpLane ..).trans h

/-! Sending -/

/-- A core whose ports have the training of another's, with its memory, graph and count, and no flag of the fabric cleared: what
sending on the ports leaves. -/
structure CarriedFrom (c d : Core) : Prop where
  training : ∀ q, (d.link q).training = (c.link q).training
  mem      : d.mem = c.mem
  graph    : d.graph = c.graph
  gc       : d.gc = c.gc
  flags    : ∀ i, i < 48 → bitAt c.fab.evt i = true → bitAt d.fab.evt i = true

theorem CarriedFrom.refl (c : Core) : CarriedFrom c c := ⟨fun _ => rfl, rfl, rfl, rfl, fun _ _ h => h⟩

theorem CarriedFrom.trans {c d e : Core} (h : CarriedFrom c d) (k : CarriedFrom d e) : CarriedFrom c e :=
  ⟨fun q => (k.training q).trans (h.training q), k.mem.trans h.mem, k.graph.trans h.graph, k.gc.trans h.gc,
    fun i hi hset => k.flags i hi (h.flags i hi hset)⟩

theorem CarriedFrom.foldl {α : Type} {step : Core → α → Core} (hstep : ∀ d x, CarriedFrom d (step d x)) (l : List α) (c : Core) :
    CarriedFrom c (l.foldl step c) :=
  List.foldlRecOn l step (.refl c) fun d h x _ => h.trans (hstep d x)

theorem CarriedFrom.st {c d : Core} (h : CarriedFrom c d) (q : Nat) : (d.link q).st = (c.link q).st := st_of_training (h.training q)

theorem carriedFrom_withHeld (c : Core) (held : List (Nat × Nat × Frame)) :
    CarriedFrom c { c with fab := { c.fab with held := held } } := ⟨fun _ => rfl, rfl, rfl, rfl, fun _ _ h => h⟩

theorem carriedFrom_withTl (c : Core) (tl : TestPart) : CarriedFrom c { c with tl := tl } :=
  ⟨fun _ => rfl, rfl, rfl, rfl, fun _ _ h => h⟩

theorem carriedFrom_setLink {c : Core} {p : Nat} {x : Link} (h : x.training = (c.link p).training) : CarriedFrom c (c.setLink p x) := by
  refine ⟨fun q => ?_, rfl, rfl, rfl, fun _ _ h => h⟩
  by_cases hq : q = p
  · subst hq; rw [Core.link_setLink, h]
  · rw [Core.link_setLink_other c p q x hq]

/-- Flags of the fabric with one more set and counted (Table 12-15). -/
theorem bitAt_fabFlag_self (w : W64) {bit : Nat} (h : bit < 48) : bitAt (satAdd (setBit w bit true) 48 16 1) bit = true :=
  (bitAt_satAdd_outside _ _ (by omega)).trans (bitAt_setBit_self _ _ (by omega))

theorem bitAt_fabFlag_of_set (w : W64) (bit : Nat) {i : Nat} (h : i < 48) (hset : bitAt w i = true) :
    bitAt (satAdd (setBit w bit true) 48 16 1) i = true := by
  by_cases hi : i = bit
  · subst hi; exact bitAt_fabFlag_self w h
  · rw [bitAt_satAdd_outside _ _ (by omega), bitAt_setBit_other _ _ hi, hset]

theorem carriedFrom_setFab (c : Core) (bit port : Nat) : CarriedFrom c (c.setFab bit port) := by
  obtain ⟨e, w, l, h⟩ := setFab_changes c bit port
  rw [h]
  exact ⟨fun _ => rfl, rfl, rfl, rfl, fun i hi hset => bitAt_fabFlag_of_set _ _ hi hset⟩

theorem bitAt_setFab (c : Core) {bit : Nat} (port : Nat) (h : bit < 48) : bitAt (c.setFab bit port).fab.evt bit = true := by
  obtain ⟨e, w, l, hfab⟩ := setFab_changes c bit port
  rw [hfab]
  exact bitAt_fabFlag_self _ h

theorem carriedFrom_enqueue (c : Core) (p vl : Nat) (f : Frame) : CarriedFrom c (c.enqueue p vl f) :=
  carriedFrom_setLink (by rw [training_pump, training_setLane])

theorem carriedFrom_pleachLost (c : Core) (p n : Nat) : CarriedFrom c (c.pleachLost p n) := by
  rw [Core.pleachLost]
  split
  · exact .refl c
  · exact (carriedFrom_setLink (by rfl)).trans (carriedFrom_setFab ..)

theorem carriedFrom_sendPleach (c : Core) (p role : Nat) (f : Frame) : CarriedFrom c (c.sendPleach p role f) := by
  rw [Core.sendPleach]
  split
  · exact carriedFrom_pleachLost ..
  · split
    · exact carriedFrom_pleachLost ..
    · exact (carriedFrom_setLink (by rfl)).trans (carriedFrom_enqueue ..)

theorem carriedFrom_sendRole (c : Core) (role vl : Nat) (resumed : Bool) (f : Frame) : CarriedFrom c (c.sendRole role vl resumed f) := by
  rw [Core.sendRole]
  split
  · exact carriedFrom_withHeld ..
  · split
    · split
      · exact carriedFrom_pleachLost ..
      · split
        · exact carriedFrom_sendPleach ..
        · exact carriedFrom_enqueue ..
    · exact carriedFrom_enqueue ..

theorem carriedFrom_retryHeld (c : Core) : CarriedFrom c c.retryHeld :=
  (carriedFrom_withHeld c []).trans (.foldl (fun d (h : Nat × Nat × Frame) => carriedFrom_sendRole d h.1 h.2.1 false h.2.2) _ _)

theorem carriedFrom_pleachBegin (c : Core) (p : Nat) : CarriedFrom c (c.pleachBegin p) := by
  rw [Core.pleachBegin]
  split
  · refine CarriedFrom.trans ?_ (.foldl (fun d g => carriedFrom_sendPleach d p _ g) _ _)
    have hflag (x : Link) (hx : x.training = (c.link p).training) : CarriedFrom c ((c.setLink p x).setFab 3 p) :=
      (carriedFrom_setLink hx).trans (carriedFrom_setFab ..)
    split
    · exact (hflag _ (by rfl)).trans (carriedFrom_enqueue ..)
    · exact hflag _ rfl
  · exact .refl c

theorem carriedFrom_testFill (p n : Nat) (c : Core) : CarriedFrom c (Core.testFill p n c) := by
  induction n generalizing c with
  | zero => exact .refl c
  | succ n ih =>
    rw [Core.testFill]
    dsimp only
    split
    · exact .refl c
    · refine CarriedFrom.trans ?_ (ih _)
      exact CarriedFrom.trans (carriedFrom_setLink (by exact training_stamp ..)) (carriedFrom_withTl ..)

/-! Roles (R306) -/

theorem carriedFrom_setRole (c : Core) (p role : Nat) : CarriedFrom c (c.setRole p role) := by
  rw [Core.setRole]
  dsimp only
  split
  · exact .refl c
  · exact (carriedFrom_setLink (by rfl)).trans (carriedFrom_withHeld ..)

theorem carriedFrom_giveRole (c : Core) (p role : Nat) : CarriedFrom c (c.giveRole p role) :=
  (CarriedFrom.foldl (fun d q => carriedFrom_setRole d q 0xF) _ c).trans (carriedFrom_setRole ..)

/-! Frames of the link itself (Table 12-5) -/

/-- A core that differs in its ports and in the free values drawn. -/
def LinksFrom (c d : Core) : Prop := ∃ ports n, d = { c with fab := { c.fab with ports := ports }, free := n }

theorem LinksFrom.refl (c : Core) : LinksFrom c c := ⟨c.fab.ports, c.free, rfl⟩

theorem LinksFrom.trans {c d e : Core} (h : LinksFrom c d) (k : LinksFrom d e) : LinksFrom c e := by
  obtain ⟨m, i, rfl⟩ := h
  obtain ⟨n, j, rfl⟩ := k
  exact ⟨n, j, rfl⟩

theorem LinksFrom.keeps {c d : Core} (h : LinksFrom c d) : d.mem = c.mem ∧ d.graph = c.graph := by
  obtain ⟨ports, n, rfl⟩ := h
  exact ⟨rfl, rfl⟩

theorem linksFrom_setLink (c : Core) (p : Nat) (x : Link) : LinksFrom c (c.setLink p x) := ⟨_, c.free, rfl⟩

theorem linksFrom_sendLocal (c : Core) (p : Nat) (pl : Payload) : LinksFrom c (c.sendLocal p pl) := linksFrom_setLink ..

theorem link_sendLocal_other (c : Core) {p q : Nat} (pl : Payload) (h : q ≠ p) : (c.sendLocal p pl).link q = c.link q :=
  Core.link_setLink_other _ _ _ _ h

/-- A frame of the link leaves its port as the last one, and the port stays in its state. -/
theorem link_sendLocal (c : Core) (p : Nat) (pl : Payload) :
    ((c.sendLocal p pl).link p).st = (c.link p).st
    ∧ ∃ g, ((c.sendLocal p pl).link p).ctlOut = (c.link p).ctlOut ++ [g] ∧ g.payload = pl := by
  obtain ⟨hpay, due, since, hlink⟩ := stamp_changes (c.link p) { c.mkFrame 0 0 pl with vl := 2 }
  rw [Core.sendLocal, Core.link_setLink]
  dsimp only
  rw [hlink]
  exact ⟨rfl, _, rfl, hpay⟩

end Sys2Proof.Machine
end

section
/-! PROOFS. Beacons, probes and the time of the domain (O54): an identity taken or held, the parent and the count that its beacon gives,
probes and the latency they measure, and BEACON_SEND over the ports. -/

namespace Sys2Proof.Machine

/-! Frames of the link that arrive (R303, Table 12-5) -/

theorem onLink_running {s : State} {p : Nat} (hr : s.running = true) (hp : p < s.core.cfg.linkPorts) (f : Core → Link → Core) :
    onLink s p f = .next (s.withCore (f s.core (s.core.link p))) := by
  rw [onLink, onRun_running hr, Core.isLink, if_pos (decide_eq_true hp)]

/-- A good frame with no acknowledgement reaches a port that takes frames: it changes nothing by itself. -/
theorem localFrame_unacked {c : Core} {p : Nat} {f : Frame} (hcrc : crcOk f = true) (hack : f.ackValid = false)
    (hst : (c.link p).st = .ident ∨ (c.link p).st = .held ∨ (c.link p).st = .measure ∨ (c.link p).st = .active) :
    c.localFrame p f = (c, true) := by
  have hrefl : c.reflecting p = false := by
    unfold Core.reflecting
    rcases hst with h | h | h | h <;> simp [h]
  have htake : c.takeAck p f = c := by rw [Core.takeAck, hack]; rfl
  simp only [Core.localFrame, hrefl, hcrc, htake]
  rcases hst with h | h | h | h <;> simp [h]

section Exec
variable {s : State} {p : Nat} {f : Frame} (hr : s.running = true) (hp : p < s.core.cfg.linkPorts)
include hr hp

section Frame
variable (hwf : f.wf = true) (hcrc : crcOk f = true) (hack : f.ackValid = false)
include hwf hcrc hack

theorem exec_beaconFrame {b : Beacon} (hb : f.payload = .beacon b) (hst : (s.core.link p).st = .ident ∨ (s.core.link p).st = .held
      ∨ (s.core.link p).st = .measure ∨ (s.core.link p).st = .active) :
    exec (.beaconFrame p f) s = .next (s.withCore (s.core.beaconTaken p b)) := by
  change execBeaconFrame p f s = _
  rw [execBeaconFrame, if_pos hwf, onLink_running hr hp]
  simp only [hb, localFrame_unacked hcrc hack hst]

theorem exec_freshProbe {id : Nat} (hb : f.payload = .probe (.fresh id)) (hst : (s.core.link p).st = .ident
      ∨ (s.core.link p).st = .held ∨ (s.core.link p).st = .measure ∨ (s.core.link p).st = .active) :
    exec (.probeFrame p f) s = .next (s.withCore (s.core.returnProbe p id f.src)) := by
  change execProbeFrame p f s = _
  rw [execProbeFrame, if_pos hwf, onLink_running hr hp]
  simp only [hb, localFrame_unacked hcrc hack hst]

theorem exec_returnedProbe {id farIn farOut sentAt gotAt : Nat} (hb : f.payload = .probe (.returned id farIn farOut sentAt gotAt))
    (hst : (s.core.link p).st = .measure) :
    exec (.probeFrame p f) s = .next (s.withCore (s.core.probeBack p id farIn farOut sentAt gotAt)) := by
  change execProbeFrame p f s = _
  rw [execProbeFrame, if_pos hwf, onLink_running hr hp]
  simp only [hb, localFrame_unacked hcrc hack (.inr (.inr (.inl hst)))]

end Frame

theorem exec_latencyMeasured (hst : (s.core.link p).st = .measure)
    (hsent : (s.core.link p).probeNext = 1024) (hback : (s.core.link p).probes ≠ []) :
    exec (.latencyMeasured p) s = .next (s.withCore (s.core.enterActive p)) := by
  change execLatencyMeasured p s = _
  rw [execLatencyMeasured, onLink_running hr hp, if_pos ⟨hst, hsent, by simpa using hback⟩]

end Exec

/-! Identities (R305) -/

/-- A beacon was heard: it is noted, and holdover ends (R276). -/
def Core.heard (c : Core) : Core := { c with gc := { c.gc with lastBeacon := c.now, status := setBit c.gc.status 1 false } }

/-- A port with the beacon that it heard in IDENT. -/
def Link.hears (l : Link) (b : Beacon) : Link := { l with beacon := some b, farTaken := b.taken, obsPos := b.self, obsPort := b.port }

/-- A core in which a port has heard a beacon in IDENT. -/
def Core.hearsOn (c : Core) (p : Nat) (b : Beacon) : Core := c.heard.setLink p ((c.link p).hears b)

theorem link_hearsOn (c : Core) (p : Nat) (b : Beacon) : (c.hearsOn p b).link p = (c.link p).hears b := Core.link_setLink ..

theorem link_hearsOn_other (c : Core) {p q : Nat} (b : Beacon) (h : q ≠ p) : (c.hearsOn p b).link q = c.link q :=
  Core.link_setLink_other _ _ _ _ h

theorem beaconTaken_ident {c : Core} {p : Nat} (b : Beacon) (hst : (c.link p).st = .ident) :
    c.beaconTaken p b = (c.hearsOn p b).identifyAll := by
  rw [Core.beaconTaken]
  split
  next => rfl
  next h => exact nomatch h.symm.trans hst
  next h => exact nomatch h.symm.trans hst
  next h => exact nomatch h.symm.trans hst
  next hident _ _ _ => exact absurd hst hident

section Loops
variable {c : Core} {p : Nat} {x : Link} (h : x.looped = (c.link p).looped)
include h

/-- What is expected of the ports rests on the plan and on which ports loop, not on what they hold. -/
theorem selfLooped_setLink (q : Nat) : (c.setLink p x).selfLooped q = c.selfLooped q := by
  have hloop : ((c.setLink p x).link q).looped = (c.link q).looped := by
    by_cases hq : q = p
    · rw [hq, Core.link_setLink, h]
    · rw [Core.link_setLink_other c p q x hq]
  rw [Core.selfLooped, hloop, Core.selfLooped, Core.setLink_tl]

theorem expected_setLink (q : Nat) : (c.setLink p x).expected q = c.expected q := by
  rw [Core.expected, selfLooped_setLink h]; rfl

theorem otherPort_setLink (q : Nat) (ident : Nat × Nat) : (c.setLink p x).otherPort q ident = c.otherPort q ident := by
  simp only [Core.otherPort, selfLooped_setLink h, expected_setLink h, Core.setLink_cfg]

end Loops

theorem expected_hearsOn (c : Core) (p : Nat) (b : Beacon) : (c.hearsOn p b).expected p = c.expected p :=
  expected_setLink (c := c.heard) (by rfl) p

theorem otherPort_hearsOn (c : Core) (p : Nat) (b : Beacon) (ident : Nat × Nat) :
    (c.hearsOn p b).otherPort p ident = c.otherPort p ident := otherPort_setLink (c := c.heard) (by rfl) p ident

theorem identify_idle {c : Core} {q : Nat} (h : (c.link q).st ≠ .ident) : c.identify q = c := by
  rw [Core.identify]
  dsimp only
  split
  next hst _ => exact absurd hst h
  next => rfl

theorem foldl_identify_idle {c : Core} {l : List Nat} (h : ∀ q ∈ l, (c.link q).st ≠ .ident) :
    l.foldl (fun d q => d.identify q) c = c :=
  List.foldlRecOn (motive := fun d => d = c) l _ rfl fun d hd q hq => by rw [hd]; exact identify_idle (h q hq)

/-- A list without repetitions parts at one of its members, which stands in neither part. -/
theorem append_of_mem_nodup {α : Type} {a : α} {l : List α} (hl : l.Nodup) (h : a ∈ l) :
    ∃ before after, l = before ++ a :: after ∧ a ∉ before ∧ a ∉ after := by
  obtain ⟨before, after, rfl⟩ := List.append_of_mem h
  obtain ⟨-, hright, hapart⟩ := List.nodup_append.mp hl
  exact ⟨before, after, rfl, fun ha => hapart a ha a List.mem_cons_self rfl, (List.nodup_cons.mp hright).1⟩

/-- With no other port in IDENT, before and after, one port alone is looked at. -/
theorem identifyAll_alone {c : Core} {p : Nat} (hp : p < c.cfg.linkPorts) (hbefore : ∀ q, q ≠ p → (c.link q).st ≠ .ident)
    (hafter : ∀ q, q ≠ p → ((c.identify p).link q).st ≠ .ident) : c.identifyAll = c.identify p := by
  obtain ⟨l, r, hlr, hpl, hpr⟩ := append_of_mem_nodup List.nodup_range (List.mem_range.mpr hp)
  rw [Core.identifyAll, hlr, List.foldl_append, List.foldl_cons,
    foldl_identify_idle fun q hq => hbefore q (ne_of_mem_of_not_mem hq hpl),
    foldl_identify_idle fun q hq => hafter q (ne_of_mem_of_not_mem hq hpr)]

section Plan
variable {c : Core} {p : Nat} {b : Beacon} {pl : Plan} (hst : (c.link p).st = .ident) (hb : (c.link p).beacon = some b)
  (hplan : c.fab.plan = some pl) (hdom : b.domainId = pl.domain) (hrev : b.planRev = pl.rev)
include hst hb hplan hdom hrev

/-- The expected identity of this plan is taken. -/
theorem identify_expected (he : c.expected p = some (b.self, b.port)) : ∃ d, CarriedFrom c d
    ∧ c.identify p = d.setLink p { d.link p with taken := true, peerPort := 0, kind := 0 } := by
  have hkind : c.takenKind p (beaconIdent b) = 0 := by rw [Core.takenKind, he]; simp [beaconIdent]
  have hrole (r k : Nat) : CarriedFrom c (if r = k then c else c.giveRole p r) := by
    split
    · exact .refl c
    · exact carriedFrom_giveRole ..
  rw [Core.identify]
  simp only [hst, hb, hplan, he, beaconIdent, Option.map_some, Option.getD_some, hdom, hrev, ne_eq, not_true_eq_false, if_false,
    true_or, if_true]
  rw [show c.takenKind p (b.self, b.port) = 0 from hkind]
  exact ⟨_, hrole _ _, rfl⟩

/-- An identity that is neither expected nor accepted, nor expected of another port, is HELD. -/
theorem identify_unexpected (he : c.expected p ≠ some (b.self, b.port)) (hacc : (c.link p).accepted ≠ some (b.self, b.port))
    (hother : c.otherPort p (b.self, b.port) = none) :
    c.identify p = c.identHold p (if (c.expected p).map Prod.fst = some b.self then 4 else 3) 0 := by
  rw [Core.identify]
  simp only [hst, hb, hplan, he, hacc, hother, beaconIdent, Option.map_some, Option.getD_some, hdom, hrev, ne_eq, not_true_eq_false,
    if_false, or_self]

end Plan

/-- What a port that is HELD leaves: its kind, mismatch set, and the training of the other ports. -/
theorem identHold_holds (c : Core) (p kind peer : Nat) :
    ((c.identHold p kind peer).link p).training = { c.link p with st := .held, kind := kind, taken := false }.training
    ∧ (∀ q, q ≠ p → ((c.identHold p kind peer).link q).st = (c.link q).st) ∧ bitAt (c.identHold p kind peer).fab.evt 2 = true
    ∧ (c.identHold p kind peer).mem = c.mem ∧ (c.identHold p kind peer).graph = c.graph := by
  rw [Core.identHold, Core.linkHold]
  generalize hd : (c.setLink p { c.link p with taken := false, peerPort := peer }) = d
  have hflag : CarriedFrom (d.setLink p { d.link p with st := .held, kind := kind, since := d.now })
      ((d.setLink p { d.link p with st := .held, kind := kind, since := d.now }).setFab 2 p) := carriedFrom_setFab ..
  have hpleach := carriedFrom_pleachBegin ((d.setLink p { d.link p with st := .held, kind := kind, since := d.now }).setFab 2 p) p
  have hall := hflag.trans hpleach
  refine ⟨?_, fun q hq => ?_, hpleach.flags 2 (by omega) (bitAt_setFab _ _ (by omega)), ?_, ?_⟩
  · rw [hall.training, Core.link_setLink, ← hd, Core.link_setLink]; rfl
  · rw [hall.st, Core.link_setLink_other _ _ _ _ hq, ← hd, Core.link_setLink_other _ _ _ _ hq]
  · rw [hall.mem, Core.setLink_mem, ← hd, Core.setLink_mem]
  · rw [hall.graph, Core.setLink_graph, ← hd, Core.setLink_graph]

section Ident
variable {c : Core} {p : Nat} {b : Beacon} {pl : Plan} (hp : p < c.cfg.linkPorts) (hst : (c.link p).st = .ident)
  (hplan : c.fab.plan = some pl) (hdom : b.domainId = pl.domain) (hrev : b.planRev = pl.rev)
  (halone : ∀ q, q ≠ p → (c.link q).st ≠ .ident)
include hp hst hplan hdom hrev halone

/-- A beacon of the expected identity: the port takes it, stays in IDENT and notes whether the far end took its own. -/
theorem beaconTaken_expected (he : c.expected p = some (b.self, b.port)) :
    ((c.beaconTaken p b).link p).training = { (c.link p).hears b with taken := true, kind := 0 }.training
    ∧ bitAt (c.beaconTaken p b).gc.status 1 = false ∧ (c.beaconTaken p b).gc.count = c.gc.count
    ∧ (c.beaconTaken p b).mem = c.mem ∧ (c.beaconTaken p b).graph = c.graph := by
  have hself := link_hearsOn c p b
  obtain ⟨d, hcarried, hident⟩ := identify_expected (c := c.hearsOn p b) (p := p) (by rw [hself]; exact hst) (by rw [hself]; rfl)
    hplan hdom hrev ((expected_hearsOn c p b).trans he)
  have hall : (c.hearsOn p b).identifyAll = (c.hearsOn p b).identify p := by
    refine identifyAll_alone hp (fun q hq => by rw [link_hearsOn_other c b hq]; exact halone q hq) fun q hq => ?_
    rw [hident, Core.link_setLink_other _ _ _ _ hq, hcarried.st, link_hearsOn_other c b hq]
    exact halone q hq
  have htrain := hcarried.training p
  rw [hself] at htrain
  have hgc : d.gc = c.heard.gc := hcarried.gc
  rw [beaconTaken_ident b hst, hall, hident, Core.link_setLink, Core.setLink_gc, hgc]
  exact ⟨congrArg (fun l : Link => { l with taken := true, kind := 0 }) htrain, bitAt_setBit_self _ _ (by omega), rfl,
    hcarried.mem, hcarried.graph⟩

/-- A beacon of another identity: the port is HELD, with what it observes and mismatch set. -/
theorem beaconTaken_unexpected (he : c.expected p ≠ some (b.self, b.port)) (hacc : (c.link p).accepted ≠ some (b.self, b.port))
    (hother : c.otherPort p (b.self, b.port) = none) :
    ((c.beaconTaken p b).link p).training = { (c.link p).hears b with
      st := .held, kind := if (c.expected p).map Prod.fst = some b.self then 4 else 3, taken := false }.training
    ∧ bitAt (c.beaconTaken p b).fab.evt 2 = true ∧ (c.beaconTaken p b).mem = c.mem ∧ (c.beaconTaken p b).graph = c.graph := by
  have hself := link_hearsOn c p b
  have hident := identify_unexpected (c := c.hearsOn p b) (p := p) (by rw [hself]; exact hst) (by rw [hself]; rfl)
    hplan hdom hrev (by rw [expected_hearsOn]; exact he) (by rw [hself]; exact hacc) ((otherPort_hearsOn ..).trans hother)
  rw [expected_hearsOn] at hident
  obtain ⟨htrain, hst', hevt, hmem, hgraph⟩ := identHold_holds (c.hearsOn p b) p
    (if (c.expected p).map Prod.fst = some b.self then 4 else 3) 0
  have hall : (c.hearsOn p b).identifyAll = (c.hearsOn p b).identify p := by
    refine identifyAll_alone hp (fun q hq => by rw [link_hearsOn_other c b hq]; exact halone q hq) fun q hq => ?_
    rw [hident, hst' q hq, link_hearsOn_other c b hq]
    exact halone q hq
  rw [hself] at htrain
  rw [beaconTaken_ident b hst, hall, hident]
  exact ⟨htrain, hevt, hmem, hgraph⟩

end Ident

/-! Entry to MEASURE (R303, R321) -/

/-- A port at the beginning of a DCLK: in MEASURE once both ends took the identity. -/
def Link.entered (l : Link) (now : Nat) : Link :=
  if l.st = .ident ∧ l.taken ∧ l.farTaken then { l with st := .measure, since := now, probes := [], probeNext := 0 } else l

/-- What the beginning of a DCLK does to one port. -/
def Core.measurePort (c : Core) (p : Nat) : Core :=
  let l := (c.link p).entered c.now
  if l.st = .measure ∧ l.probeNext < 1024 then
    (c.setLink p { l with probeNext := l.probeNext + 1 }).sendLocal p (.probe (.fresh l.probeNext))
  else c

theorem measureTick_eq (c : Core) : c.measureTick = (c.fab.ports.map Prod.fst).foldl Core.measurePort c := rfl

theorem link_measurePort_other (c : Core) {p q : Nat} (h : q ≠ p) : (c.measurePort p).link q = c.link q := by
  rw [Core.measurePort]
  split
  · rw [link_sendLocal_other _ _ h, Core.link_setLink_other _ _ _ _ h]
  · rfl

/-- A port that enters MEASURE or is in it. -/
def Link.measures (l : Link) : Prop := (l.st = .ident ∧ l.taken = true ∧ l.farTaken = true) ∨ l.st = .measure

theorem st_measurePort {c : Core} {p : Nat} (h : (c.link p).measures) : ((c.measurePort p).link p).st = .measure := by
  rw [Core.measurePort]
  rcases h with ⟨hst, htaken, hfar⟩ | hst
  · have hentered : (c.link p).entered c.now = { c.link p with st := .measure, since := c.now, probes := [], probeNext := 0 } :=
      if_pos ⟨hst, htaken, hfar⟩
    rw [hentered, if_pos ⟨rfl, Nat.zero_lt_succ 1023⟩, (link_sendLocal ..).1, Core.link_setLink]
  · have hentered : (c.link p).entered c.now = c.link p := if_neg fun h => by simp [hst] at h
    rw [hentered]
    split
    · rw [(link_sendLocal ..).1, Core.link_setLink]; exact hst
    · exact hst

theorem measures_measurePort {c : Core} {p : Nat} (q : Nat) (h : (c.link p).measures) : ((c.measurePort q).link p).measures := by
  by_cases hq : p = q
  · subst hq; exact .inr (st_measurePort h)
  · rw [link_measurePort_other c hq]; exact h

/-- Any other port in IDENT is left as it is. -/
theorem measurePort_unready {c : Core} {p : Nat} (hst : (c.link p).st = .ident)
    (h : ¬((c.link p).taken = true ∧ (c.link p).farTaken = true)) : c.measurePort p = c := by
  have hentered : (c.link p).entered c.now = c.link p := if_neg fun hboth => h hboth.2
  rw [Core.measurePort, hentered]
  exact if_neg fun hm => by simp [hst] at hm

/-- A port that is not there reads as parked. -/
theorem link_absent {c : Core} {p : Nat} (h : p ∉ c.fab.ports.map Prod.fst) : c.link p = .reset := by
  rw [Core.link, agetD]
  cases hget : aget c.fab.ports p with
  | none => rfl
  | some x => exact absurd (List.mem_map_of_mem (mem_of_aget hget)) h

theorem measureTick_enters {c : Core} {p : Nat} (hst : (c.link p).st = .ident)
    (h : (c.link p).taken = true ∧ (c.link p).farTaken = true) : (c.measureTick.link p).st = .measure := by
  have hmem : p ∈ c.fab.ports.map Prod.fst := Decidable.byContradiction fun hno => by
    rw [link_absent hno] at hst
    exact nomatch hst
  have hkeeps (l : List Nat) (d : Core) (hd : (d.link p).measures) : ((l.foldl Core.measurePort d).link p).measures :=
    List.foldlRecOn (motive := fun e : Core => (e.link p).measures) l _ hd fun _ he q _ => measures_measurePort q he
  obtain ⟨l, r, hlr⟩ := List.append_of_mem hmem
  rw [measureTick_eq, hlr, List.foldl_append, List.foldl_cons]
  have hin : (((l.foldl Core.measurePort c).measurePort p).link p).st = .measure := st_measurePort (hkeeps l c (.inl ⟨hst, h⟩))
  refine List.foldlRecOn (motive := fun e : Core => (e.link p).st = .measure) r _ hin fun e he q _ => ?_
  by_cases hq : p = q
  · subst hq; exact st_measurePort (.inr he)
  · rw [link_measurePort_other e hq]; exact he

theorem measureTick_unready {c : Core} {p : Nat} (hst : (c.link p).st = .ident)
    (h : ¬((c.link p).taken = true ∧ (c.link p).farTaken = true)) : c.measureTick.link p = c.link p := by
  rw [measureTick_eq]
  refine List.foldlRecOn (motive := fun d : Core => d.link p = c.link p) _ _ rfl fun d hd q _ => ?_
  by_cases hq : p = q
  · subst hq; rw [measurePort_unready (by rw [hd]; exact hst) (by rw [hd]; exact h), hd]
  · rw [link_measurePort_other d hq, hd]

/-! The parent and the count (R314, R315) -/

theorem bestParent_only {c : Core} {p : Nat} {b : Beacon} (hp : p < c.cfg.linkPorts) (hoff : (c.link p).offer = some b)
    (honly : ∀ q, q ≠ p → (c.link q).offer = none) : c.bestParent = some (p, b) := by
  have hmem (x : Nat × Beacon) : x ∈ (List.range c.cfg.linkPorts).filterMap (fun q => (c.link q).offer.map fun y => (q, y))
      ↔ x = (p, b) := by
    rw [List.mem_filterMap]
    constructor
    · rintro ⟨q, -, hq⟩
      by_cases hqp : q = p
      · subst hqp; rw [hoff] at hq; exact (Option.some.inj hq).symm
      · rw [honly q hqp] at hq; exact nomatch hq
    · rintro rfl
      exact ⟨p, List.mem_range.mpr hp, by rw [hoff]; rfl⟩
  have hhead (l : List (Nat × Beacon)) (h : ∀ x, x ∈ l ↔ x = (p, b)) : l.head? = some (p, b) := by
    cases l with
    | nil => exact absurd ((h _).mpr rfl) List.not_mem_nil
    | cons x r => rw [List.head?_cons, (h x).mp List.mem_cons_self]
  exact hhead _ fun x => (mem_sortBy _ x _).trans (hmem x)

theorem offer_active {l : Link} {b : Beacon} (hst : l.st = .active) (hloop : l.looped = false) (hb : l.beacon = some b)
    (hal : b.aligned = true) (hhops : b.hops < 128) : l.offer = some b := by
  rw [Link.offer, if_pos ⟨hst, by rw [hloop]; rfl⟩, hb]
  exact if_pos ⟨hal, hhops⟩

theorem offer_inactive {l : Link} (hst : l.st ≠ .active) : l.offer = none := if_neg fun h => hst h.1

theorem noteOffer_changes (c : Core) (p : Nat) : ∃ t, c.noteOffer p = { c with fab := { c.fab with refQuiet := t } } := by
  rw [Core.noteOffer]
  split
  · split
    · exact ⟨_, rfl⟩
    · exact ⟨c.fab.refQuiet, rfl⟩
  · exact ⟨c.fab.refQuiet, rfl⟩

/-- The fabric with a parent. -/
def Fabric.under (f : Fabric) (p : Nat) (b : Beacon) : Fabric :=
  { f with isRef := false, parent := some p, hops := b.hops + 1, refIdx := b.refIdx }

/-- The best offer makes its port the parent, and no offset measured on another one stays. -/
theorem chooseParent_takes {c : Core} {p : Nat} {b : Beacon} (hbest : c.bestParent = some (p, b)) (href : c.fab.isRef = false)
    (hoffs : c.fab.parent ≠ some p ∨ c.gc.offsets = []) :
    c.chooseParent = { c with fab := c.fab.under p b, gc := { c.gc with offsets := [] } } := by
  rw [Core.chooseParent]
  simp only [hbest, href, Bool.false_and, Bool.false_eq_true, if_false]
  split
  next hpar => rw [← hoffs.resolve_left fun h => h hpar]; rfl
  next => rfl

/-- The offset that a beacon gives from the own count and phase (R315). -/
def Core.beaconOffset (c : Core) (p : Nat) (b : Beacon) : Int :=
  ((b.count : Int) - (c.gc.count : Int)) * 256 + b.phase + (c.link p).latency - ((Config.freeWord c.free).toNat % 256 : Nat)

/-- A core with its first offset of a domain. -/
def Core.firstOffset (c : Core) (off : Int) : Core :=
  { c with free := c.free + 1,
           gc := { c.gc with offsets := [off], status := setFld c.gc.status 32 16 (offsetField (roundOffset [off])) } }

theorem firstOffset_unaligned {c : Core} (off : Int) (h : bitAt c.gc.status 0 = false) :
    bitAt (c.firstOffset off).gc.status 0 = false := (bitAt_setFld_outside _ _ (by omega)).trans h

/-- An unaligned count with no earlier offset acquires the domain's value from the first. -/
theorem countBeacon_acquires {c : Core} {p : Nat} (b : Beacon) (hal : bitAt c.gc.status 0 = false) (hre : c.gc.realign = false)
    (hoffs : c.gc.offsets = []) :
    c.countBeacon p b = (c.firstOffset (c.beaconOffset p b)).acquire (roundOffset [c.beaconOffset p b]) := by
  have hun := firstOffset_unaligned (c.beaconOffset p b) hal
  simp only [Core.firstOffset, Core.beaconOffset] at hun
  simp only [Core.countBeacon, Core.drawWord, hoffs, List.take_succ_cons, List.take_nil, hun, hre, Bool.false_eq_true, if_false]
  rfl

/-- A count that is acquired: a value at or above the own is taken, and for one below it the count is held. -/
theorem acquire_ahead (c : Core) {avg : Int} (h : 0 ≤ evenOffset avg) :
    (c.acquire avg).gc.count = (c.gc.count + (evenOffset avg).toNat) % 2 ^ 64 ∧ bitAt (c.acquire avg).gc.status 0 = true := by
  rw [Core.acquire, if_pos h]
  exact ⟨rfl, bitAt_setBit_self _ _ (by omega)⟩

theorem acquire_behind (c : Core) {avg : Int} (h : evenOffset avg < 0) : (c.acquire avg).gc.count = c.gc.count
    ∧ (c.acquire avg).gc.hold = (-evenOffset avg).toNat ∧ (c.acquire avg).gc.status = c.gc.status := by
  rw [Core.acquire, if_neg (by omega)]
  exact ⟨rfl, rfl, rfl⟩

theorem acquire_keeps (c : Core) (avg : Int) :
    (c.acquire avg).fab = c.fab ∧ (c.acquire avg).mem = c.mem ∧ (c.acquire avg).graph = c.graph := by
  rw [Core.acquire]
  split
  · exact ⟨rfl, rfl, rfl⟩
  · exact ⟨rfl, rfl, rfl⟩

/-- A core in which a port has heard a beacon in ACTIVE. -/
def Core.hearsActive (c : Core) (p : Nat) (b : Beacon) : Core :=
  c.heard.setLink p { c.link p with beacon := some b, farTaken := b.taken }

/-- A beacon on the port that is chosen as parent gives the count. -/
theorem beaconTaken_active {c d : Core} {p : Nat} {b : Beacon} (hst : (c.link p).st = .active)
    (hchoose : ((c.hearsActive p b).noteOffer p).chooseParent = d) (hpar : d.fab.parent = some p) (href : d.fab.isRef = false) :
    c.beaconTaken p b = d.countBeacon p b := by
  rw [Core.beaconTaken]
  split
  next h => exact nomatch h.symm.trans hst
  next h => exact nomatch h.symm.trans hst
  next h => exact nomatch h.symm.trans hst
  next =>
    subst hchoose
    exact if_pos ⟨hpar, href⟩
  next _ _ _ hactive => exact absurd hst hactive

/-- A core that has heard a beacon in ACTIVE and takes its port as parent; `t` is when the time of R314 last began. -/
def Core.follows (c : Core) (p : Nat) (b : Beacon) (t : Nat) : Core :=
  { c.hearsActive p b with fab := { (c.hearsActive p b).fab with refQuiet := t }.under p b, gc := { c.heard.gc with offsets := [] } }

/-- The aligned beacon of the only ACTIVE port makes it the parent, and gives the count. -/
theorem beaconTaken_only {c : Core} {p : Nat} {b : Beacon} (hp : p < c.cfg.linkPorts) (hst : (c.link p).st = .active)
    (hloop : (c.link p).looped = false) (hal : b.aligned = true) (hhops : b.hops < 128) (href : c.fab.isRef = false)
    (honly : ∀ q, q ≠ p → (c.link q).st ≠ .active) (hoffs : c.fab.parent ≠ some p ∨ c.gc.offsets = []) :
    ∃ t, c.beaconTaken p b = (c.follows p b t).countBeacon p b := by
  obtain ⟨t, hnote⟩ := noteOffer_changes (c.hearsActive p b) p
  have hself : (c.hearsActive p b).link p = { c.link p with beacon := some b, farTaken := b.taken } := Core.link_setLink ..
  have hbest : ((c.hearsActive p b).noteOffer p).bestParent = some (p, b) := by
    rw [hnote]
    refine bestParent_only hp ?_ fun q hq => ?_
    · change ((c.hearsActive p b).link p).offer = _
      rw [hself]
      exact offer_active hst hloop rfl hal hhops
    · change ((c.hearsActive p b).link q).offer = _
      rw [Core.hearsActive, Core.link_setLink_other _ _ _ _ hq]
      exact offer_inactive (honly q hq)
  have hchoose : ((c.hearsActive p b).noteOffer p).chooseParent = c.follows p b t := by
    rw [chooseParent_takes hbest (by rw [hnote]; exact href) (by rw [hnote]; exact hoffs), hnote]
    rfl
  exact ⟨t, beaconTaken_active hst hchoose rfl rfl⟩

/-- The beacon's offset is that of the count, the phase and the latency before it was heard. -/
theorem beaconOffset_follows (c : Core) (p : Nat) (b : Beacon) (t : Nat) :
    (c.follows p b t).beaconOffset p b = c.beaconOffset p b := by
  have hlink : (c.follows p b t).link p = { c.link p with beacon := some b, farTaken := b.taken } :=
    Core.link_setLink c.heard p _
  rw [Core.beaconOffset, hlink]
  rfl

/-- What the only ACTIVE port's aligned beacon makes of an unaligned core: the parent, and the count or how long it is held. -/
theorem beaconTaken_parent {c : Core} {p : Nat} {b : Beacon} (hp : p < c.cfg.linkPorts) (hst : (c.link p).st = .active)
    (hloop : (c.link p).looped = false) (hal : b.aligned = true) (hhops : b.hops < 128) (href : c.fab.isRef = false)
    (honly : ∀ q, q ≠ p → (c.link q).st ≠ .active) (hun : bitAt c.gc.status 0 = false) (hre : c.gc.realign = false)
    (hoffs : c.fab.parent ≠ some p ∨ c.gc.offsets = []) :
    let d := c.beaconTaken p b
    let o := evenOffset (roundOffset [c.beaconOffset p b])
    d.fab.parent = some p ∧ d.fab.hops = b.hops + 1 ∧ d.fab.refIdx = b.refIdx
    ∧ (0 ≤ o → d.gc.count = (c.gc.count + o.toNat) % 2 ^ 64 ∧ bitAt d.gc.status 0 = true)
    ∧ (o < 0 → d.gc.count = c.gc.count ∧ d.gc.hold = (-o).toNat ∧ bitAt d.gc.status 0 = false)
    ∧ d.mem = c.mem ∧ d.graph = c.graph := by
  intro d o
  obtain ⟨t, htaken⟩ := beaconTaken_only hp hst hloop hal hhops href honly hoffs
  have hun' : bitAt (c.follows p b t).gc.status 0 = false := (bitAt_setBit_other _ _ (by omega)).trans hun
  have hacquires : d = ((c.follows p b t).firstOffset (c.beaconOffset p b)).acquire (roundOffset [c.beaconOffset p b]) := by
    rw [← beaconOffset_follows c p b t, ← countBeacon_acquires b hun' hre rfl]
    exact htaken
  obtain ⟨hfab, hmem, hgraph⟩ := acquire_keeps ((c.follows p b t).firstOffset (c.beaconOffset p b)) (roundOffset [c.beaconOffset p b])
  rw [hacquires, hfab, hmem, hgraph]
  refine ⟨rfl, rfl, rfl, acquire_ahead _, fun hneg => ?_, rfl, rfl⟩
  obtain ⟨hcount, hhold, hstatus⟩ := acquire_behind ((c.follows p b t).firstOffset (c.beaconOffset p b)) hneg
  exact ⟨hcount, hhold, by rw [hstatus]; exact firstOffset_unaligned _ hun'⟩

/-! Probes (R313) -/

/-- A fresh probe is returned on its port, with the time at which it came. -/
theorem returnProbe_returns {c : Core} {p : Nat} (id src : Nat) (hloop : c.selfLooped p = false) :
    ∃ (g : Frame) (tin tout : Nat), ((c.returnProbe p id src).link p).ctlOut = (c.link p).ctlOut ++ [g]
      ∧ g.payload = .probe (.returned id tin tout 0 0) ∧ tin / 256 = c.gc.count ∧ tin ≤ tout
      ∧ ((c.returnProbe p id src).link p).st = (c.link p).st := by
  rw [Core.returnProbe, if_neg fun h => by simp [hloop] at h]
  obtain ⟨hst, g, hout, hpay⟩ := link_sendLocal c.drawWord.2.drawWord.2 p (.probe (.returned id
    (c.gc.count * 256 + c.drawWord.1.toNat % 256) (c.gc.count * 256 + c.drawWord.1.toNat % 256 + c.drawWord.2.drawWord.1.toNat) 0 0))
  exact ⟨g, _, _, hout, hpay, by omega, Nat.le_add_right .., hst⟩

theorem link_returnProbe_other {c : Core} {p q : Nat} (id src : Nat) (h : q ≠ p) : (c.returnProbe p id src).link q = c.link q := by
  rw [Core.returnProbe]
  split
  · rfl
  · exact link_sendLocal_other _ _ h

theorem linksFrom_drawWord (c : Core) : LinksFrom c c.drawWord.2 := ⟨c.fab.ports, _, rfl⟩

theorem linksFrom_returnProbe (c : Core) (p id src : Nat) : LinksFrom c (c.returnProbe p id src) := by
  rw [Core.returnProbe]
  split
  · exact .refl c
  · exact ((linksFrom_drawWord c).trans (linksFrom_drawWord _)).trans (linksFrom_sendLocal ..)

theorem probeBack_measures {c : Core} {p id : Nat} (farIn farOut sentAt gotAt : Nat) (hst : (c.link p).st = .measure)
    (hid : id < (c.link p).probeNext) (hroom : (c.link p).probes.length < 1024) :
    c.probeBack p id farIn farOut sentAt gotAt
    = c.setLink p { c.link p with probes := (c.link p).probes ++ [(gotAt - sentAt) - (farOut - farIn)] } :=
  if_pos ⟨hst, hid, hroom⟩

/-- A measured port as it enters ACTIVE. -/
def Core.measured (c : Core) (p : Nat) : Link :=
  let l := c.link p
  { l with st := .active, since := c.now, latency := c.latencyOf p, wasActive := l.wasActive || !l.looped,
           cnt0 := satAdd l.cnt0 0 32 l.unacked, unackAt := if l.unacked = 0 then none else some c.now }

theorem enterActive_eq (c : Core) (p : Nat) :
    c.enterActive p = Core.testFill p 122 (c.setLink p ((c.measured p).pump c.now)).retryHeld := rfl

/-- A measured port is ACTIVE with the latency that its probes give, whatever is sent on it next. -/
theorem enterActive_enters (c : Core) (p : Nat) :
    ((c.enterActive p).link p).st = .active ∧ ((c.enterActive p).link p).latency = c.latencyOf p
    ∧ (c.enterActive p).mem = c.mem ∧ (c.enterActive p).graph = c.graph := by
  have hcarried := (carriedFrom_retryHeld (c.setLink p ((c.measured p).pump c.now))).trans (carriedFrom_testFill p 122 _)
  have htrain := hcarried.training p
  rw [Core.link_setLink, training_pump] at htrain
  rw [enterActive_eq]
  exact ⟨st_of_training htrain, latency_of_training htrain, hcarried.mem, hcarried.graph⟩

/-! BEACON_SEND (R304) -/

/-- A port that sends beacons: from IDENT onward. -/
def Link.speaks (l : Link) : Prop := l.st = .ident ∨ l.st = .held ∨ l.st = .measure ∨ l.st = .active ∨ l.st = .failed

theorem sendBeacon_silent {c : Core} {p : Nat} (h : ¬(c.link p).speaks) : c.sendBeacon p = c := if_neg h

theorem sendBeacon_speaks {c : Core} {p : Nat} (h : (c.link p).speaks) :
    c.sendBeacon p = c.drawWord.2.sendLocal p (.beacon (c.drawWord.2.beaconOf p (c.drawWord.1.toNat % 256))) := if_pos h

theorem linksFrom_sendBeacon (c : Core) (p : Nat) : LinksFrom c (c.sendBeacon p) := by
  by_cases h : (c.link p).speaks
  · rw [sendBeacon_speaks h]; exact (linksFrom_drawWord c).trans (linksFrom_sendLocal ..)
  · rw [sendBeacon_silent h]; exact .refl c

theorem link_sendBeacon_other (c : Core) {p q : Nat} (h : q ≠ p) : (c.sendBeacon p).link q = c.link q := by
  by_cases hp : (c.link p).speaks
  · rw [sendBeacon_speaks hp]; exact link_sendLocal_other _ _ h
  · rw [sendBeacon_silent hp]

theorem link_sendBeacons_other (c : Core) {l : List Nat} {p : Nat} (h : p ∉ l) :
    (l.foldl (fun e q => e.sendBeacon q) c).link p = c.link p :=
  List.foldlRecOn (motive := fun e : Core => e.link p = c.link p) l _ rfl fun e he _ hq =>
    (link_sendBeacon_other e (ne_of_mem_of_not_mem hq h).symm).trans he

theorem linksFrom_sendBeacons (c : Core) (l : List Nat) : LinksFrom c (l.foldl (fun e q => e.sendBeacon q) c) :=
  List.foldlRecOn l _ (.refl c) fun e he q _ => he.trans (linksFrom_sendBeacon e q)

/-- Each port of a list without repetitions sends its own beacon, in a core that differs in what the ports before it sent. -/
theorem link_sendBeacons (c : Core) {l : List Nat} {p : Nat} (hl : l.Nodup) (h : p ∈ l) : ∃ d, LinksFrom c d ∧ d.link p = c.link p
    ∧ (l.foldl (fun e q => e.sendBeacon q) c).link p = (d.sendBeacon p).link p := by
  obtain ⟨before, after, rfl, hbefore, hafter⟩ := append_of_mem_nodup hl h
  refine ⟨_, linksFrom_sendBeacons c before, link_sendBeacons_other c hbefore, ?_⟩
  rw [List.foldl_append, List.foldl_cons, link_sendBeacons_other _ hafter]

/-- A core that has sent its beacons. -/
def Core.beaconed (c : Core) : Core :=
  let d := (List.range c.cfg.linkPorts).foldl (fun e q => e.sendBeacon q) c
  { d with fab := { d.fab with beaconAt := some (c.gc.count / 4096) } }

/-- The beacon that a port sends carries the count, its own identity and whether it took its neighbour's. -/
theorem sendBeacon_carries {c d : Core} {p : Nat} (hd : LinksFrom c d) (hlink : d.link p = c.link p) (h : (c.link p).speaks) :
    ((d.sendBeacon p).link p).st = (c.link p).st
    ∧ ∃ (g : Frame) (b : Beacon), ((d.sendBeacon p).link p).ctlOut = (c.link p).ctlOut ++ [g]
      ∧ g.payload = .beacon b ∧ b.count = c.gc.count ∧ b.taken = (c.link p).taken ∧ b.port = p ∧ b.self = c.self
      ∧ b.aligned = bitAt c.gc.status 0 := by
  rw [sendBeacon_speaks (by rw [hlink]; exact h)]
  obtain ⟨hst, g, hout, hpay⟩ := link_sendLocal d.drawWord.2 p (.beacon (d.drawWord.2.beaconOf p (d.drawWord.1.toNat % 256)))
  have hlink' : d.drawWord.2.link p = c.link p := hlink
  rw [hlink'] at hst hout
  refine ⟨hst, g, _, hout, hpay, ?_⟩
  have htaken : (d.drawWord.2.link p).taken = (c.link p).taken := by rw [hlink']
  obtain ⟨ports, n, rfl⟩ := hd
  exact ⟨rfl, htaken, rfl, rfl, rfl⟩

/-! The commands of the time (R274, R276, R304, R314) -/

section Time
variable {s : State} (hr : s.running = true)
include hr

theorem exec_beaconSend_again (h : s.core.fab.beaconAt = some (s.core.gc.count / 4096)) : exec .beaconSend s = .next s := by
  change execBeaconSend s = _
  rw [execBeaconSend, onRun_running hr]
  simp only [h, if_true]
  rfl

theorem exec_beaconSend (h : s.core.fab.beaconAt ≠ some (s.core.gc.count / 4096)) :
    exec .beaconSend s = .next (s.withCore s.core.beaconed) := by
  change execBeaconSend s = _
  rw [execBeaconSend, onRun_running hr]
  simp only [h, if_false]
  rfl

theorem exec_holdover {pl : Plan} (hplan : s.core.fab.plan = some pl) (hpresent : pl.present ≠ []) (hmany : 1 < pl.product)
    (hlate : max s.core.gc.lastBeacon s.core.fab.planAt + 2 ^ 20 * 3 ≤ s.core.now) : exec .holdover s
    = .next (s.withCore { s.core with gc := { s.core.gc with status := setBit s.core.gc.status 1 true } }) := by
  change execHoldover s = _
  have hhere : (!pl.present.isEmpty) = true := by simpa using hpresent
  rw [execHoldover, onRun_running hr]
  simp only [hplan]
  rw [if_pos ⟨hhere, hmany, hlate⟩]

theorem exec_referenceCandidate {i : Nat} (hcand : s.core.candidate_ = some i) (hi : 0 < i) (href : s.core.fab.isRef = false)
    (hquiet : s.core.fab.refQuiet + 2 ^ 20 * 3 ≤ s.core.now) :
    exec .referenceCandidate s = .next (s.withCore (s.core.beReference i)) := by
  change execReferenceCandidate s = _
  have hno : (!s.core.fab.isRef) = true := by rw [href]; rfl
  rw [execReferenceCandidate, onRun_running hr]
  simp only [hcand]
  rw [if_pos ⟨hi, hno, hquiet⟩]

end Time

/-! The obligation -/

/-- Settles O54: a beacon in IDENT by the one port that is looked at, in ACTIVE by the parent that it makes, BEACON_SEND by its fold over
the ports, the rest by what each command does. -/
theorem beaconsProbesAndTime : Obligations.BeaconsProbesAndTime := by
  unfold Obligations.BeaconsProbesAndTime
  refine ⟨?_, ?_, ?_⟩
  · intro s p f hr hp hwf hcrc hack l
    refine ⟨?_, ?_, ?_, ?_, ?_⟩
    · intro b pl hb hst hplan hdom hrev halone
      have hexec := exec_beaconFrame hr hp hwf hcrc hack hb (.inl hst)
      refine ⟨fun he => ?_, fun he hacc hother => ?_⟩
      · obtain ⟨htrain, hhold, hcount, hmem, hgraph⟩ := beaconTaken_expected hp hst hplan hdom hrev halone he
        exact ⟨_, hexec, taken_of_training htrain, kind_of_training htrain, (st_of_training htrain).trans hst,
          farTaken_of_training htrain, hhold, hcount, hmem, hgraph⟩
      · obtain ⟨htrain, hevt, hmem, hgraph⟩ := beaconTaken_unexpected hp hst hplan hdom hrev halone he hacc hother
        exact ⟨_, hexec, st_of_training htrain, obsPos_of_training htrain, obsPort_of_training htrain, hevt,
          kind_of_training htrain, hmem, hgraph⟩
    · intro b hb hst hloop hal hhops href honly hun hre hoffs o
      exact ⟨_, exec_beaconFrame hr hp hwf hcrc hack hb (.inr (.inr (.inr hst))),
        beaconTaken_parent hp hst hloop hal hhops href honly hun hre hoffs⟩
    · intro id hb hst hloop
      have hexec := exec_freshProbe hr hp hwf hcrc hack hb hst
      obtain ⟨g, tin, tout, hout, hpay, htin, hle, hst'⟩ := returnProbe_returns id f.src hloop
      exact ⟨_, g, tin, tout, hexec, hout, hpay, htin, hle, hst', fun q hq => link_returnProbe_other id f.src hq,
        (linksFrom_returnProbe s.core p id f.src).keeps⟩
    · intro id farIn farOut sentAt gotAt hb hst hid hroom
      rw [exec_returnedProbe hr hp hwf hcrc hack hb hst, probeBack_measures farIn farOut sentAt gotAt hst hid hroom]
    · intro hst hsent hback
      exact ⟨_, exec_latencyMeasured hr hp hst hsent hback, enterActive_enters s.core p⟩
  · intro c p hst
    exact ⟨measureTick_enters hst, measureTick_unready hst⟩
  · intro s hr
    refine ⟨exec_beaconSend_again hr, fun h => ?_, ?_, ?_⟩
    · obtain ⟨hmem, hgraph⟩ := (linksFrom_sendBeacons s.core (List.range s.core.cfg.linkPorts)).keeps
      refine ⟨_, exec_beaconSend hr h, rfl, hmem, hgraph, fun p hp => ?_⟩
      intro l speaks
      obtain ⟨d, hd, hlink, hsent⟩ := link_sendBeacons s.core List.nodup_range (List.mem_range.mpr hp)
      have hsent' : s.core.beaconed.link p = (d.sendBeacon p).link p := hsent
      rw [State.withCore_core, hsent']
      refine ⟨fun hsilent => ?_, sendBeacon_carries hd hlink⟩
      rw [sendBeacon_silent (by rw [hlink]; exact hsilent), hlink]
    · intro pl hplan hpresent hmany hlate
      exact exec_holdover hr hplan hpresent hmany hlate
    · intro i hcand hi href hquiet
      exact ⟨_, exec_referenceCandidate hr hcand hi href hquiet, rfl, rfl, rfl, bitAt_setBit_self _ _ (by omega), rfl, rfl, rfl, rfl⟩

end Sys2Proof.Machine
end

section
/-! PROOFS. What a command is to the lifecycle part and to the queue of commands (O1, O3, O6): every command but those of reset, boot,
Hedge and the test port leaves both, and those leave the queue. -/

namespace Sys2Proof.Machine

/-! The commands that leave the lifecycle part -/

/-- An outcome that is a next state with the core alone replaced. -/
def CoreOnly (s : State) (o : Host.Outcome State Fault Refusal) : Prop := ∃ c, o = .next (s.withCore c)

theorem coreOnly_refl (s : State) : CoreOnly s (.next s) := ⟨s.core, rfl⟩

/-- A condition that does not hold leaves the state as it is (notes/assumptions/3). -/
theorem CoreOnly.guarded {s : State} {o : Host.Outcome State Fault Refusal} {q : Prop} [Decidable q] (h : CoreOnly s o) :
    CoreOnly s (if q then o else .next s) := by
  split
  · exact h
  · exact coreOnly_refl s

theorem coreOnly_onRun (s : State) (f : Sys → Core → Core) : CoreOnly s (onRun s f) := onRun_next s f
theorem coreOnly_onLink (s : State) (p : Nat) (f : Core → Link → Core) : CoreOnly s (onLink s p f) := onRun_next s _
theorem coreOnly_onBootRun (s : State) (f : Sys → Core → Core) : CoreOnly s (onBootRun s f) := onBootRun_next s f
theorem coreOnly_onWrite (s : State) (off : Nat) (v : W64) (acc : Access) (f : Sys → Core → Option Core) :
    CoreOnly s (onWrite s off v acc f) := onWrite_next s off v acc f
theorem coreOnly_onCommand (s : State) (op : Nat) (run : Sys → Core → Nat → Packet → Except Verdict CpRes) :
    CoreOnly s (onCommand s op run) := onCommand_next s op run

/-- The commands of reset, boot, Hedge and the test port, with DEVICE_RESET. -/
inductive LifecycleCommand : Instr → Prop
  | powerOnReset : LifecycleCommand .powerOnReset
  | porstNDeassert : LifecycleCommand .porstNDeassert
  | sysRstN : LifecycleCommand .sysRstN
  | lockLoss : LifecycleCommand .lockLoss
  | lockRegained : LifecycleCommand .lockRegained
  | clkStart : LifecycleCommand .clkStart
  | drainEnd : LifecycleCommand .drainEnd
  | keyRead (code : Nat) (slots : List (Nat × W32)) : LifecycleCommand (.keyRead code slots)
  | memInit : LifecycleCommand .memInit
  | deviceReset : LifecycleCommand .deviceReset
  | deviceResetEntry : LifecycleCommand .deviceResetEntry
  | fwLoad : LifecycleCommand .fwLoad
  | debugUnlock : LifecycleCommand .debugUnlock
  | hedgeSelftestEnd (pass : Bool) : LifecycleCommand (.hedgeSelftestEnd pass)
  | healthTestFail : LifecycleCommand .healthTestFail
  | tsScanMode : LifecycleCommand .tsScanMode
  | selftestEnd (o : TestOutcome) : LifecycleCommand (.selftestEnd o)
  | bistInstrument (o : TestOutcome) : LifecycleCommand (.bistInstrument o)

/-- A doorbell's stores are visible before its write is looked at (R102). -/
theorem coreOnly_doorbell (n : Nat) (v : W64) (acc : Access) (stores : List Host.Cell) (s : State) :
    CoreOnly s (exec (.doorbell n v acc stores) s) := by
  obtain ⟨c, hc⟩ := CoreOnly.guarded (q := n < 64) (onWrite_next (s.withCore (s.core.store stores)) (0x100000 + 0x1000 * n) v acc
    fun _ c => some (c.doorbell n v))
  exact ⟨c, hc⟩

theorem coreOnly_throttleFall (s : State) : CoreOnly s (exec .throttleFall s) := by
  change CoreOnly s (execThrottleFall s)
  unfold execThrottleFall
  dsimp only
  split
  · exact ⟨_, rfl⟩
  · exact ⟨_, rfl⟩

/-- A clip register is written under the checks of a write, whichever it is. -/
theorem coreOnly_clipCtrlCut (which : ClipReg) (v : W64) (acc : Access) (s : State) : CoreOnly s (exec (.clipCtrlCut which v acc) s) := by
  change CoreOnly s (if which.wf then _ else _)
  refine CoreOnly.guarded ?_
  cases which with
  | clipCtrl => exact onWrite_next ..
  | cut n k => exact onWrite_next ..

/-- A response is answered in the core, unless it is one that DRAIN waits for or one that came after DRAIN's time (R58). -/
theorem reelResponse_cases (chan tag : Nat) (write : Bool) (status : Nat) (stores : List Host.Cell) (bad : List (Nat × Nat)) (s : State) :
    let o := exec (.reelResponse chan tag write status stores bad) s
    CoreOnly s o
    ∨ (s.sys.drainOwed ≠ [] ∧ ∃ owed c, o = .next { s with core := c, sys := { s.sys with drainOwed := owed } })
    ∨ (s.sys.drainLate ≠ [] ∧ ∃ late c, o = .next { s with core := c, sys := { s.sys with drainLate := late } }) := by
  intro o
  have hold {l : List (Nat × Nat)} (h : l.contains (chan, tag) = true) : l ≠ [] := fun hl => by simp [hl] at h
  change CoreOnly s (execReelResponse chan tag write status stores s bad) ∨ (_ ∧ ∃ owed c, execReelResponse chan tag write status stores s bad = _)
    ∨ (_ ∧ ∃ late c, execReelResponse chan tag write status stores s bad = _)
  unfold execReelResponse
  dsimp only
  split
  · exact .inl (coreOnly_refl s)
  · split
    · exact .inl ⟨_, rfl⟩
    · split
      next howed => exact .inr (.inl ⟨hold howed, _, _, rfl⟩)
      next =>
        split
        next hlate => exact .inr (.inr ⟨hold hlate, _, _, rfl⟩)
        next => exact .inl ⟨_, rfl⟩

/-- Every command is one of the lifecycle, a response of the Reel port, or leaves the lifecycle part and the queue as they are: a host
command, an effect in RUN, one in BOOT and RUN, a register write, or one of these under a condition on its operands. -/
theorem exec_cases (i : Instr) (s : State) : LifecycleCommand i ∨ (∃ chan tag write status stores bad, i = .reelResponse chan tag write status stores bad)
    ∨ CoreOnly s (exec i s) := by
  cases i with
  | powerOnReset => exact .inl .powerOnReset
  | porstNDeassert => exact .inl .porstNDeassert
  | sysRstN => exact .inl .sysRstN
  | lockLoss => exact .inl .lockLoss
  | lockRegained => exact .inl .lockRegained
  | clkStart => exact .inl .clkStart
  | drainEnd => exact .inl .drainEnd
  | keyRead code slots => exact .inl (.keyRead code slots)
  | memInit => exact .inl .memInit
  | deviceReset => exact .inl .deviceReset
  | deviceResetEntry => exact .inl .deviceResetEntry
  | fwLoad => exact .inl .fwLoad
  | debugUnlock => exact .inl .debugUnlock
  | hedgeSelftestEnd pass => exact .inl (.hedgeSelftestEnd pass)
  | healthTestFail => exact .inl .healthTestFail
  | tsScanMode => exact .inl .tsScanMode
  | selftestEnd o => exact .inl (.selftestEnd o)
  | bistInstrument o => exact .inl (.bistInstrument o)
  | reelResponse chan tag write status stores bad => exact .inr (.inl ⟨chan, tag, write, status, stores, bad, rfl⟩)
  | doorbell n v acc stores => exact .inr (.inr (coreOnly_doorbell n v acc stores s))
  | clipCtrlCut which v acc => exact .inr (.inr (coreOnly_clipCtrlCut which v acc s))
  | throttleRise => exact .inr (.inr ⟨_, rfl⟩)
  | throttleFall => exact .inr (.inr (coreOnly_throttleFall s))
  | ctxOpen | ctxClose | handleFlush | nop | skeinLoad | skeinUnload | skeinPatch | launchAt | cancel | resume | syncSet | syncWait
  | syncAlloc | syncFree | chanOpen | chanClose | chanReset | moeTableLoad | moeTableUnload | moeStats | fabricPlanLoad | routeLoad
  | spareMap | linkAccept | clipAt | clipAbort | restore | loopbackSet | selftest | query =>
    unfold exec
    exact .inr (.inr (coreOnly_onCommand ..))
  | launch | replay | stopAt | instanceStart | delayListRelease | spindleSelection | recordPresentation | rampWindow | rampGrant
  | yieldRequest | sliceEnd | engDone | engYielded | engSaved | taskCompletion | deviceSideEnqueue | completionEdges | polledWaitRead
  | syncObjectEvaluation | pageRefill | deadline | grantVerified | beaconSend | holdover | referenceCandidate | clipCount | roundAResult
  | instanceCut | roundBStart | roundBResult | clipSaveDone | roundCResult | continueCount | drainLimit | restoreApply | resumeCount
  | powerRequest | powerRequestDue | powerGrant | watchPeriodEnd | engineWireTimeout | engineStart =>
    unfold exec
    exact .inr (.inr (coreOnly_onRun ..))
  | linkLockLoss | phyUpLocked | phyUpTimeout | codewordLock | alignTimeout | identTimeout | measureTimeout | failedRetry
  | latencyMeasured | ackTimer | unacknowledgedTimeout | psyncTimeout | uncorrectableCodeword =>
    unfold exec
    exact .inr (.inr (coreOnly_onLink ..))
  | fetcherGrant | fetchAttempt | fetchSliceEnd | checkEnd | driftWindow | refAbsent | worstDiffRead =>
    unfold exec
    exact .inr (.inr (coreOnly_onBootRun ..))
  | szSmGrant | manualRead | manualSet | manualAdd | manualSignal | stashPtrs | evtPtrs | watchCtrl | rampCtrl | slackDefault =>
    unfold exec
    exact .inr (.inr (coreOnly_onWrite ..))
  | engFault | stopCount | stepExchange | stepDecide | stepCommit | stepRouted | collectiveStart | collectiveExchange | collectiveWrite
  | collectiveDone | plyFrame | messageSend | sendSlotRead | channelRecord | recordDelivered | signalApply | handlerCreate | openNotice
  | closeNotice | creditNotice | sendRefusal | consumedWordRead | sigaddFrame | psyncFrame | clipFrame =>
    unfold exec
    exact .inr (.inr (CoreOnly.guarded (coreOnly_onRun ..)))
  | beaconFrame | probeFrame | ackFrame =>
    unfold exec
    exact .inr (.inr (CoreOnly.guarded (coreOnly_onLink ..)))
  | frontEndChecks | haltReply | replyWrite =>
    unfold exec
    exact .inr (.inr (CoreOnly.guarded (coreOnly_onBootRun ..)))
  | rplFree | ringConfiguration | signalWordWrite | retrain | oos | cxPeerSigrange | flowrangeDlyCtrl | plySlot | testLoopbackRegisters
  | registerWrite =>
    unfold exec
    exact .inr (.inr (CoreOnly.guarded (coreOnly_onWrite ..)))

end Sys2Proof.Machine
end

section
/-! PROOFS. The commands of the lifecycle (O5): what each makes of a legal lifecycle state, in the order of Table 02-5 and of chapter 15,
and that every step keeps a legal one. -/

namespace Sys2Proof.Machine

/-! Legal states, by the state of reset -/

theorem hedgeFits_early {y : Sys} (h : y.phase.early = true) : y.hedgeFits ↔ y.blank := by
  unfold Sys.hedgeFits
  cases hp : y.phase <;> simp [hp, Phase.early] at h ⊢

theorem hedgeFits_memInit {y : Sys} (h : y.phase = .memInit) : y.hedgeFits ↔ (y.hg = .keys ∨ y.hg = .dead) := by
  simp only [Sys.hedgeFits, h]

theorem hedgeFits_boot {y : Sys} (h : y.phase = .boot) : y.hedgeFits ↔ (y.hg ≠ .keys ∧ y.hg ≠ .booted) := by
  simp only [Sys.hedgeFits, h]

theorem hedgeFits_run {y : Sys} (h : y.phase = .run) : y.hedgeFits ↔ (y.hg = .booted ∨ y.hg = .error) := by
  simp only [Sys.hedgeFits, h]

section Legal
variable {y : Sys} (h : y.Legal)
include h

theorem Sys.Legal.noReset (hp : y.phase ≠ .run) : y.devResetAt = none := by
  by_contra hd
  exact hp (h.pendingReset hd)

theorem Sys.Legal.noneOwed (hhold : y.phase ≠ .hold) (hdrain : y.phase ≠ .drain) : y.drainOwed = [] := by
  by_contra ho
  exact (h.owedInDrain ho).elim hhold hdrain

theorem Sys.Legal.noPorst (hp : y.phase ≠ .hold) : y.porst = false :=
  Bool.eq_false_iff.mpr fun hporst => hp (h.porstHolds hporst).1

theorem Sys.Legal.noLock (hp : y.phase ≠ .hold) : y.holdLock = false :=
  Bool.eq_false_iff.mpr fun hlock => hp (h.lockHolds hlock)

theorem Sys.Legal.blank (hp : y.phase.early = true) : y.blank := (hedgeFits_early hp).mp h.hedge

/-- A chip that is not DECOMMISSIONED stays legal as Hedge moves to a state that fits. -/
theorem Sys.Legal.withHedge {g : HgState} (hlive : y.lcs ≠ .decommissioned) (hfits : ({ y with hg := g } : Sys).hedgeFits) :
    ({ y with hg := g } : Sys).Legal :=
  { h with hedge := hfits, decommissioned := fun hd => absurd hd hlive }

theorem Sys.Legal.alive (hg : y.hg ≠ .dead) : y.lcs ≠ .decommissioned := fun hd => hg (h.decommissioned hd).1

/-- After KEY_READ, what unlocks and what a test repaired or found is held without more. -/
theorem Sys.Legal.withTests {n : Nat} {r : Option (Bool × Nat)} (hp : y.phase = .boot) :
    ({ y with repairs := n, bistResult := r } : Sys).Legal :=
  { h with hedge := (hedgeFits_boot (by exact hp)).mpr ((hedgeFits_boot hp).mp h.hedge) }

/-- The state of reset moves on, from outside HOLD and RUN, and what no state but these may hold stays away. -/
theorem Sys.Legal.moves {x : Sys} (hfrom : y.phase ≠ .hold) (hidle : y.phase ≠ .run) (hto : x.phase ≠ .hold)
    (hsame : x.porst = y.porst ∧ x.holdLock = y.holdLock ∧ x.devResetAt = y.devResetAt ∧ x.resetCount = y.resetCount
      ∧ x.bootFails = y.bootFails) (howed : x.drainOwed = []) (hhedge : x.hedgeFits)
    (hdec : x.lcs = .decommissioned → x.hg = .dead ∧ x.keys = .zero) (hscan : x.scanned = true → x.keys = .zero) : x.Legal := by
  obtain ⟨hporst, hlock, hdev, hcount, hfails⟩ := hsame
  exact {
    porstHolds := fun hp => by rw [hporst, h.noPorst hfrom] at hp; exact nomatch hp
    holdHasCause := fun hp => absurd hp hto
    lockHolds := fun hl => by rw [hlock, h.noLock hfrom] at hl; exact nomatch hl
    hedge := hhedge
    decommissioned := hdec
    scanned := hscan
    owedInDrain := fun ho => absurd howed ho
    pendingReset := fun hd => absurd (hdev.trans (h.noReset hidle)) hd
    countFits := hcount ▸ h.countFits
    failsFit := hfails ▸ h.failsFit }

/-! Reset (R53 to R58) -/

theorem legal_porstNDeassert (now : Nat) (hp : y.phase = .hold) (hporst : y.porst = true) :
    ({ y with porst := false, phase := .clkStart, since := now } : Sys).Legal :=
  { h with
    porstHolds := nofun
    holdHasCause := nofun
    lockHolds := fun hl => absurd (h.porstHolds hporst).2.1 (by simpa using hl)
    hedge := h.blank (hp ▸ rfl)
    owedInDrain := fun ho => absurd (h.porstHolds hporst).2.2 ho
    pendingReset := fun hd => absurd (h.noReset (hp ▸ nofun)) hd }

theorem legal_lockRegained (now : Nat) (hp : y.phase = .hold) (hlock : y.holdLock = true) :
    ({ y with holdLock := false, phase := .drain, since := now } : Sys).Legal :=
  { h with
    porstHolds := fun hporst => absurd (h.porstHolds hporst).2.1 (by simp [hlock])
    holdHasCause := nofun
    lockHolds := nofun
    hedge := h.blank (hp ▸ rfl)
    owedInDrain := fun _ => .inr rfl
    pendingReset := fun hd => absurd (h.noReset (hp ▸ nofun)) hd }

theorem legal_clkStart (now : Nat) (hp : y.phase = .clkStart) : ({ y with phase := .keyRead, since := now } : Sys).Legal :=
  h.moves (hp ▸ nofun) (hp ▸ nofun) nofun ⟨rfl, rfl, rfl, rfl, rfl⟩ (h.noneOwed (hp ▸ nofun) (hp ▸ nofun)) (h.blank (hp ▸ rfl))
    h.decommissioned h.scanned

theorem legal_drainEnd (now : Nat) (late : List (Nat × Nat)) (hp : y.phase = .drain) :
    ({ y with phase := .keyRead, since := now, drainOwed := [], drainLate := late } : Sys).Legal :=
  h.moves (hp ▸ nofun) (hp ▸ nofun) nofun ⟨rfl, rfl, rfl, rfl, rfl⟩ rfl (h.blank (hp ▸ rfl)) h.decommissioned h.scanned

/-- KEY_READ samples the lifecycle state: a DECOMMISSIONED chip has Hedge DEAD, and neither it nor a scanned one reads keys. -/
theorem legal_keyRead (now : Nat) (lcs : Lcs) (slots : AMap W32) (hp : y.phase = .keyRead) :
    ({ y with phase := .memInit, since := now, lcs := lcs, keys := keysRead y lcs slots,
              hg := if lcs = .decommissioned then .dead else .keys } : Sys).Legal := by
  refine h.moves (hp ▸ nofun) (hp ▸ nofun) nofun ⟨rfl, rfl, rfl, rfl, rfl⟩ (h.noneOwed (hp ▸ nofun) (hp ▸ nofun))
    ((hedgeFits_memInit rfl).mpr ?_) (fun (hd : lcs = .decommissioned) => ⟨if_pos hd, if_pos (by simp [hd])⟩)
    (fun (hs : y.scanned = true) => if_pos (by simp [hs]))
  dsimp only
  split
  · exact .inr rfl
  · exact .inl rfl

theorem legal_memInit (now : Nat) (hp : y.phase = .memInit) :
    ({ y with phase := .boot, since := now, hg := if y.hg = .dead ∨ y.bootFails ≥ 8 then .dead else .selftest } : Sys).Legal := by
  refine h.moves (hp ▸ nofun) (hp ▸ nofun) nofun ⟨rfl, rfl, rfl, rfl, rfl⟩ (h.noneOwed (hp ▸ nofun) (hp ▸ nofun))
    ((hedgeFits_boot rfl).mpr ?_) (fun hd => ⟨if_pos (.inl (h.decommissioned hd).1), (h.decommissioned hd).2⟩) h.scanned
  dsimp only
  split
  · exact ⟨nofun, nofun⟩
  · exact ⟨nofun, nofun⟩

/-- Reset entry clears what the lifecycle part holds; only a lock that is lost keeps the block in HOLD (R53, R55). -/
theorem legal_resetEntry (now cause : Nat) (owed : List (Nat × Nat)) (hporst : y.porst = false) : (y.resetEntry now cause owed).Legal where
  porstHolds hp := absurd hporst (by simp [show y.porst = true from hp])
  holdHasCause hp := by
    by_cases hl : (y.holdLock || cause == 4) = true
    · exact .inr hl
    · exact nomatch (if_neg hl).symm.trans hp
  lockHolds hl := if_pos hl
  hedge := by
    refine (hedgeFits_early ?_).mpr (resetEntry_blank ..)
    rw [resetEntry_phase]
    split <;> rfl
  decommissioned hd := nomatch hd
  scanned _ := rfl
  owedInDrain _ := by
    rw [resetEntry_phase]
    split
    · exact .inl rfl
    · exact .inr rfl
  pendingReset hd := absurd rfl hd
  countFits := Nat.min_le_right ..
  failsFit := h.failsFit

/-- A second source of the SCLK of a reset changes its cause, and a loss of the lock leads back to HOLD (R55). -/
theorem legal_joins (now cause : Nat) (hporst : y.porst = false) (hj : y.joins now = true) :
    ({ y with lastCause := cause, holdLock := y.holdLock || cause == 4, phase := if cause = 4 then .hold else y.phase } : Sys).Legal := by
  have hphase : y.phase = .hold ∨ y.phase = .drain ∨ y.phase = .keyRead := by
    simpa [Sys.joins, or_assoc] using (Bool.and_eq_true_iff.mp hj).2
  have hearly : y.phase.early = true := by rcases hphase with hp | hp | hp <;> rw [hp] <;> rfl
  have hidle : y.phase ≠ .run := fun hrun => by simp [hrun] at hphase
  by_cases hc : cause = 4
  · subst hc
    exact { h with
      porstHolds := fun hp => absurd hporst (by simp [show y.porst = true from hp])
      holdHasCause := fun _ => .inr (Bool.or_true _)
      lockHolds := fun _ => rfl
      hedge := h.blank hearly
      owedInDrain := fun _ => .inl rfl
      pendingReset := fun hd => absurd (h.noReset hidle) hd }
  · have hlock : (y.holdLock || cause == 4) = y.holdLock := by simp [hc]
    rw [hlock, if_neg hc]
    exact { h with hedge := (hedgeFits_early (by exact hearly)).mpr (h.blank hearly) }

/-! Hedge (R367 to R372) -/

/-- A scanned chip holds no keys (R367). -/
theorem legal_scanned : ({ y with keys := .zero, scanned := true, scanRise := none } : Sys).Legal :=
  { h with
    hedge := by
      have hfits := h.hedge
      unfold Sys.hedgeFits at hfits ⊢
      cases hp : y.phase <;> simp only [hp, Sys.blank] at hfits ⊢ <;> tauto
    decommissioned := fun hd => ⟨(h.decommissioned hd).1, rfl⟩
    scanned := fun _ => rfl }

theorem legal_hedgeSelftestEnd {g : HgState} (hhg : y.hg = .selftest) (hp : y.phase = .boot) (hg : g = .ready ∨ g = .error) :
    ({ y with hg := g } : Sys).Legal :=
  h.withHedge (h.alive (by simp [hhg])) ((hedgeFits_boot (by exact hp)).mpr (by rcases hg with rfl | rfl <;> exact ⟨nofun, nofun⟩))

/-- Hedge enters ERROR from READY, which it is in BOOT only, or from BOOTED, which it is in RUN only. -/
theorem legal_hedgeError (hhg : y.hg = .ready ∨ y.hg = .booted) : ({ y with hg := .error } : Sys).Legal := by
  refine h.withHedge (h.alive (by rcases hhg with hg | hg <;> simp [hg])) ?_
  have hfits := h.hedge
  unfold Sys.hedgeFits at hfits ⊢
  cases hp : y.phase <;> rcases hhg with hg | hg <;> simp [hp, hg, Sys.blank] at hfits ⊢

theorem legal_fwFail (c : Core) (p : Packet) (v : Verdict) (hp : y.phase = .boot) : (fwFail y c p v).1.Legal := by
  have hfits := (hedgeFits_boot hp).mp h.hedge
  exact { h with
    hedge := (hedgeFits_boot (by exact hp)).mpr (by
      change (if _ then HgState.dead else y.hg) ≠ .keys ∧ (if _ then HgState.dead else y.hg) ≠ .booted
      split
      · exact ⟨nofun, nofun⟩
      · exact hfits)
    decommissioned := fun hd => by
      have hdead := (h.decommissioned hd).1
      exact ⟨(if_neg (by simp [hdead])).trans hdead, (h.decommissioned hd).2⟩
    failsFit := Nat.min_le_right .. }

/-- RUN is entered with Hedge BOOTED, on a chip that is not DECOMMISSIONED. -/
theorem legal_fwAdmit (c : Core) (p : Packet) (img : List Byte) (hp : y.phase = .boot) (hlive : y.lcs ≠ .decommissioned) :
    (fwAdmit y c p img).1.Legal :=
  h.moves (hp ▸ nofun) (hp ▸ nofun) nofun ⟨rfl, rfl, rfl, rfl, rfl⟩ (h.noneOwed (hp ▸ nofun) (hp ▸ nofun))
    ((hedgeFits_run rfl).mpr (.inl rfl)) (fun hd => absurd hd hlive) h.scanned

theorem legal_fwLoad (c : Core) (p : Packet) (hp : y.phase = .boot) : (fwLoad y c p).1.Legal := by
  unfold fwLoad
  dsimp only
  split
  · exact h
  next hpre =>
    have hlive : y.lcs ≠ .decommissioned := by
      intro hd
      simp [hd, ensure, bind, Except.bind] at hpre
    split
    · split
      · exact h
      · exact legal_fwFail h _ p _ hp
    · split
      · exact legal_fwAdmit h _ p _ hp hlive
      · exact h

theorem legal_unlocked (c : Core) (hp : y.phase = .run) : (y.unlocked c).Legal := by
  have hfits := (hedgeFits_run hp).mp h.hedge
  unfold Sys.unlocked
  split
  · exact h
  · split
    · exact { h with hedge := (hedgeFits_run (by exact hp)).mpr hfits }
    · exact h

theorem legal_selftestEnd (c : Core) (r : SelfRun) (o : TestOutcome) (hp : y.phase = .run) : (selftestEnd y c r o).1.Legal := by
  have hfits := (hedgeFits_run hp).mp h.hedge
  have hlive : y.lcs ≠ .decommissioned := h.alive (by rcases hfits with hg | hg <;> simp [hg])
  refine { h with hedge := (hedgeFits_run (by exact hp)).mpr ?_, decommissioned := fun hd => absurd hd hlive }
  change (if _ then HgState.error else y.hg) = .booted ∨ (if _ then HgState.error else y.hg) = .error
  split
  · exact .inr rfl
  · exact hfits

theorem legal_deviceReset (t : Nat) (hp : y.phase = .run) : ({ y with devResetAt := some t } : Sys).Legal :=
  { h with hedge := (hedgeFits_run (by exact hp)).mpr ((hedgeFits_run hp).mp h.hedge), pendingReset := fun _ => hp }

/-- A response that DRAIN waits for is no longer owed (R58). -/
theorem legal_answered {owed : List (Nat × Nat)} (ho : y.drainOwed ≠ []) : ({ y with drainOwed := owed } : Sys).Legal := by
  have hphase := h.owedInDrain ho
  have hearly : y.phase.early = true := by rcases hphase with hp | hp <;> rw [hp] <;> rfl
  exact { h with
    porstHolds := fun hporst => absurd (h.porstHolds hporst).2.2 ho
    hedge := (hedgeFits_early (by exact hearly)).mpr (h.blank hearly)
    owedInDrain := fun _ => hphase }

end Legal

theorem legal_powerOnReset (now : Nat) : ({ Sys.reset with since := now } : Sys).Legal :=
  { reset_legal with hedge := (hedgeFits_early rfl).mpr (reset_legal.blank rfl) }

end Sys2Proof.Machine
end

section
/-! PROOFS. Every command answers a next state with the queue as it was (O3), changes the lifecycle part only where it is one of reset,
boot, Hedge and test (O6), and keeps a legal lifecycle state (O5); a step is the command in front of the queue (O1), or a tick. -/

namespace Sys2Proof.Machine

/-! Legal answers -/

/-- An outcome that is a next state with the same queue, and with a legal lifecycle state wherever there was one before. -/
def AnswersLegal (s : State) (o : Host.Outcome State Fault Refusal) : Prop :=
  ∃ y c, o = .next { s with sys := y, core := c } ∧ (s.sys.Legal → y.Legal)

theorem CoreOnly.answersLegal {s : State} {o : Host.Outcome State Fault Refusal} (h : CoreOnly s o) : AnswersLegal s o := by
  obtain ⟨c, hc⟩ := h
  exact ⟨s.sys, c, hc, id⟩

/-- An effect under a condition, which only has to be legal where the condition holds (notes/assumptions/3). -/
theorem answersLegal_guarded {s : State} {o : Host.Outcome State Fault Refusal} {q : Prop} [Decidable q] (h : q → AnswersLegal s o) :
    AnswersLegal s (if q then o else .next s) := by
  split
  next hq => exact h hq
  next => exact (coreOnly_refl s).answersLegal

theorem answersLegal_wholeReset (s : State) (cause : Nat) : AnswersLegal s (wholeReset s cause) := by
  rw [wholeReset]
  split
  · exact (coreOnly_refl s).answersLegal
  next hporst =>
    have hporst : s.sys.porst = false := Bool.not_eq_true _ ▸ hporst
    split
    next hj => exact answersLegal_guarded fun _ => ⟨_, _, rfl, fun h => legal_joins h _ cause hporst hj⟩
    next => exact ⟨_, _, rfl, fun h => legal_resetEntry h _ cause _ hporst⟩

theorem answersLegal_deviceReset (s : State) : AnswersLegal s (exec .deviceReset s) := by
  refine answersLegal_guarded fun hp => ⟨_, _, rfl, fun h => ?_⟩
  split
  · exact legal_deviceReset h _ hp
  · exact h

theorem answersLegal_deviceResetEntry (s : State) : AnswersLegal s (exec .deviceResetEntry s) := by
  change AnswersLegal s (execDeviceResetEntry s)
  rw [execDeviceResetEntry]
  split
  · exact answersLegal_guarded fun _ => answersLegal_wholeReset s 3
  · exact (coreOnly_refl s).answersLegal

theorem answersLegal_fwLoad (s : State) : AnswersLegal s (exec .fwLoad s) := by
  change AnswersLegal s (execFwLoad s)
  rw [execFwLoad]
  split
  next hp =>
    split
    · split
      · exact (coreOnly_refl s).answersLegal
      · exact ⟨_, _, rfl, fun h => legal_fwLoad h _ _ hp⟩
    · exact (coreOnly_refl s).answersLegal
  next => exact (coreOnly_onCommand ..).answersLegal

theorem answersLegal_hedgeSelftestEnd (pass : Bool) (s : State) : AnswersLegal s (exec (.hedgeSelftestEnd pass) s) := by
  refine answersLegal_guarded fun ⟨hhg, hp⟩ => ?_
  split
  · exact ⟨_, s.core, rfl, fun h => legal_hedgeSelftestEnd h hhg hp (.inl rfl)⟩
  · exact ⟨_, _, rfl, fun h => legal_hedgeSelftestEnd h hhg hp (.inr rfl)⟩

theorem answersLegal_selftestEnd (o : TestOutcome) (s : State) : AnswersLegal s (exec (.selftestEnd o) s) := by
  refine answersLegal_guarded fun hp => ?_
  split
  · exact ⟨_, _, rfl, fun h => legal_selftestEnd h _ _ o hp⟩
  · exact (coreOnly_refl s).answersLegal

/-- The rise that waits for an SCLK edge is no part of what makes a state legal (Table 15-7). -/
theorem answersLegal_tsScanMode (s : State) : AnswersLegal s (exec .tsScanMode s) := by
  change AnswersLegal s (execTsScanMode s)
  unfold execTsScanMode
  dsimp only
  split
  · exact ⟨_, _, rfl, legal_scanned⟩
  · exact ⟨_, s.core, rfl, fun h => { h with }⟩

/-- Every command of the lifecycle leads from a legal state to a legal one. -/
theorem LifecycleCommand.answersLegal {i : Instr} (h : LifecycleCommand i) (s : State) : AnswersLegal s (exec i s) := by
  cases h with
  | powerOnReset => exact ⟨_, _, rfl, fun _ => legal_powerOnReset _⟩
  | porstNDeassert => exact answersLegal_guarded fun hq => ⟨_, s.core, rfl, fun h => legal_porstNDeassert h _ hq.1 hq.2⟩
  | sysRstN => exact answersLegal_wholeReset s 2
  | lockLoss => exact answersLegal_wholeReset s 4
  | lockRegained => exact answersLegal_guarded fun hq => ⟨_, s.core, rfl, fun h => legal_lockRegained h _ hq.1 hq.2.1⟩
  | clkStart => exact answersLegal_guarded fun hq => ⟨_, s.core, rfl, fun h => legal_clkStart h _ hq.1⟩
  | drainEnd => exact answersLegal_guarded fun hq => ⟨_, s.core, rfl, fun h => legal_drainEnd h _ _ hq.1⟩
  | keyRead code slots => exact answersLegal_guarded fun hq => ⟨_, _, rfl, fun h => legal_keyRead h _ _ slots hq.1⟩
  | memInit => exact answersLegal_guarded fun hq => ⟨_, _, rfl, fun h => legal_memInit h _ hq.1⟩
  | deviceReset => exact answersLegal_deviceReset s
  | deviceResetEntry => exact answersLegal_deviceResetEntry s
  | fwLoad => exact answersLegal_fwLoad s
  | debugUnlock => exact answersLegal_guarded fun hp => ⟨_, _, rfl, fun h => legal_unlocked h s.core hp⟩
  | hedgeSelftestEnd pass => exact answersLegal_hedgeSelftestEnd pass s
  | healthTestFail => exact answersLegal_guarded fun hq => ⟨_, _, rfl, fun h => legal_hedgeError h hq⟩
  | tsScanMode => exact answersLegal_tsScanMode s
  | selftestEnd o => exact answersLegal_selftestEnd o s
  | bistInstrument o => exact answersLegal_guarded fun hq => ⟨_, _, rfl, fun h => h.withTests hq.1⟩

/-- Every command answers a next state with the same queue, and keeps a legal lifecycle state. -/
theorem exec_answersLegal (i : Instr) (s : State) : AnswersLegal s (exec i s) := by
  obtain hlife | ⟨chan, tag, write, status, stores, bad, rfl⟩ | hcore := exec_cases i s
  · exact hlife.answersLegal s
  · obtain hcore | ⟨ho, owed, c, hnext⟩ | ⟨-, late, c, hnext⟩ := reelResponse_cases chan tag write status stores bad s
    · exact hcore.answersLegal
    · exact ⟨_, c, hnext, fun h => legal_answered h ho⟩
    · exact ⟨_, c, hnext, fun h => { h with }⟩
  · exact hcore.answersLegal

/-- At an SCLK edge a rise of TS_SCAN_MODE may take effect (Table 15-7), and nothing else of the lifecycle part changes. -/
theorem sys_scanLate (s : State) :
    s.scanLate.sys = s.sys ∨ s.scanLate.sys = { s.sys with keys := .zero, scanned := true, scanRise := none } := by
  rw [State.scanLate]
  split
  · exact .inr rfl
  · exact .inl rfl

theorem sys_tick (s : State) :
    (tick s).sys = s.sys ∨ (tick s).sys = { s.sys with keys := .zero, scanned := true, scanRise := none } :=
  sys_scanLate _

/-! The obligations -/

/-- Settles O1: the step by the constructor of the queue. -/
theorem stepRunsFrontCommand : Obligations.StepRunsFrontCommand := by
  unfold Obligations.StepRunsFrontCommand
  intro s i rest h
  rw [step, h]

/-- Settles O3: a command of the lifecycle answers with its own next state, and every other leaves all but the core. -/
theorem everyCommandAnswersAndKeepsQueue : Obligations.EveryCommandAnswersAndKeepsQueue := by
  unfold Obligations.EveryCommandAnswersAndKeepsQueue
  intro i s
  obtain ⟨y, c, hnext, -⟩ := exec_answersLegal i s
  exact ⟨_, hnext, rfl⟩

/-- Settles O5: a command by what it makes of a legal state, a tick by whether scan is entered in it. -/
theorem legalLifecycleIsKept : Obligations.LegalLifecycleIsKept := by
  unfold Obligations.LegalLifecycleIsKept
  intro s t hlegal hstep
  rw [step] at hstep
  split at hstep
  · obtain rfl := Host.Outcome.next.inj hstep
    obtain hsame | hscan := sys_tick s
    · exact hsame ▸ hlegal
    · exact hscan ▸ legal_scanned hlegal
  next i rest _ =>
    obtain ⟨y, c, hnext, hkept⟩ := exec_answersLegal i { s with pending := rest }
    obtain rfl := Host.Outcome.next.inj (hnext.symm.trans hstep)
    exact hkept hlegal

/-- Settles O6: a command that is neither of the lifecycle nor a response leaves all but the core, and a response does where DRAIN waits
for none and none is late. -/
theorem onlyLifecycleCommandsChangeSys : Obligations.OnlyLifecycleCommandsChangeSys := by
  unfold Obligations.OnlyLifecycleCommandsChangeSys
  intro i s t hexec hsys
  have hnot : ¬CoreOnly s (exec i s) := by
    rintro ⟨c, hc⟩
    obtain rfl := Host.Outcome.next.inj (hc.symm.trans hexec)
    exact hsys rfl
  obtain hlife | ⟨chan, tag, write, status, stores, bad, rfl⟩ | hcore := exec_cases i s
  · cases hlife <;> simp
  · have howed : s.sys.drainOwed ≠ [] ∨ s.sys.drainLate ≠ [] :=
      (reelResponse_cases chan tag write status stores bad s).elim (absurd · hnot) (.imp And.left And.left)
    simp [howed]
  · exact absurd hcore hnot

end Sys2Proof.Machine
end

section
/-! PROOFS. A run of bytes written and read back (O7). -/

namespace Sys2Proof.Machine

theorem memBytes_memPutBytes {m : List Host.Cell} (a : Nat) (l : List Byte) (h : memWf m = true) :
    memBytes (memPutBytes m a l) a l.length = l := by
  induction l generalizing m a with
  | nil => rfl
  | cons b r ih =>
    rw [List.length_cons, memBytes, memPutBytes, memGet_memPutBytes_outside _ _ (.inl (Nat.lt_succ_self a)), memGet_memPut a b h,
      if_pos rfl, ih _ (memPut_wf a b h)]

/-- Settles O7: by induction on the bytes, each written before those above it. -/
theorem memoryRunWriteThenRead : Obligations.MemoryRunWriteThenRead := by
  unfold Obligations.MemoryRunWriteThenRead
  intro m a b l h
  exact ⟨memPutBytes_wf a l h, memBytes_memPutBytes a l h, memGet_memPutBytes_outside m l⟩

end Sys2Proof.Machine
end

section
/-! PROOFS. Hedge's self-test in BOOT, a failed health test, and scan (O13). -/

namespace Sys2Proof.Machine

/-- The flag of SZ_HG_EVT that is set reads 1, and its set is counted (Table 15-13). -/
theorem bitAt_hedgeFlag (c : Core) {bit : Nat} (h : bit < 48) : bitAt (c.hedgeFlag bit).hedge.evt bit = true :=
  bitAt_fabFlag_self _ h

/-- A flag of Hedge with its record changes Hedge's flags, the log, and where that is full the flags of SZ_FAULT_STATUS. -/
theorem setHedge_logHedge_changes (c : Core) (bit reason status detail ctx : Nat) :
    ∃ e w l, (c.setHedge bit).logHedge reason status detail ctx = { c.hedgeFlag bit with evt := e, watch := w, sets := l } := by
  obtain ⟨e, w, l, h⟩ := log_changes (c.setHedge bit) 0x0B reason 0 ctx status detail 0 0
  exact ⟨e, w, l, h⟩

/-- Hedge enters ERROR with its flag selftest_fail (R368, R369). -/
theorem hedgeError_leaves (c : Core) : bitAt c.hedgeError.hedge.evt 2 = true ∧ c.hedgeError.queues = c.queues
    ∧ c.hedgeError.graph = c.graph ∧ c.hedgeError.mem = c.mem := by
  obtain ⟨e, w, l, h⟩ := setHedge_logHedge_changes c 2 5 0 0 0
  rw [Core.hedgeError, h]
  exact ⟨bitAt_hedgeFlag c (by omega), rfl, rfl, rfl⟩

theorem scanEnter_leaves (s : State) : s.scanEnter.sys = { s.sys with keys := .zero, scanned := true, scanRise := none }
    ∧ bitAt s.scanEnter.core.hedge.evt 4 = true ∧ s.scanEnter.core.hedge.keyBlank = true
    ∧ s.scanEnter.core.queues = s.core.queues ∧ s.scanEnter.core.mem = s.core.mem := by
  obtain ⟨e, w, l, h⟩ := setHedge_logHedge_changes s.core 4 7 0 0 0
  rw [State.scanEnter, h]
  exact ⟨rfl, bitAt_hedgeFlag s.core (by omega), rfl, rfl, rfl⟩

/-- Where the lifecycle state permits scan and no unlock takes effect in this SCLK, scan is entered at once (Table 15-7). -/
theorem exec_tsScanMode_enters {s : State} (hok : s.sys.scanOk = true)
    (hnow : s.sys.lcs = .manufacture ∨ s.sys.unlockAt ≠ some (s.core.now / 48)) : exec .tsScanMode s = .next s.scanEnter :=
  if_pos (by simpa [hok] using hnow)

theorem exec_tsScanMode_waits {s : State}
    (h : s.sys.scanOk = false ∨ (s.sys.lcs = .development ∧ s.sys.unlockAt = some (s.core.now / 48))) :
    exec .tsScanMode s = .next { s with sys := { s.sys with scanRise := some (s.core.now / 48) } } :=
  if_neg (by rcases h with hno | ⟨hdev, hat⟩ <;> simp_all)

/-- Settles O13: a test of Hedge by what ERROR leaves, scan by whether the lifecycle state permits it now. -/
theorem hedgeTestsAndScan : Obligations.HedgeTestsAndScan := by
  unfold Obligations.HedgeTestsAndScan
  refine fun s => ⟨fun hhg hp => if_pos ⟨hhg, hp⟩, fun hhg hp => ?_, fun hhg => ?_, fun hp hlcs => ?_, exec_tsScanMode_waits⟩
  · exact ⟨_, if_pos ⟨hhg, hp⟩, rfl, (hedgeError_leaves s.core).1⟩
  · obtain ⟨hflag, hqueues, hgraph, hmem⟩ := hedgeError_leaves s.core
    exact ⟨_, if_pos hhg, rfl, hflag, hqueues, hgraph, hmem⟩
  · have hok : s.sys.scanOk = true := by
      obtain hman | ⟨hdev, hscan, -⟩ := hlcs
      · rcases hp with hp | hp | hp <;> simp [Sys.scanOk, hp, hman]
      · rcases hp with hp | hp | hp <;> simp [Sys.scanOk, hp, hdev, hscan]
    exact ⟨_, exec_tsScanMode_enters hok (hlcs.imp_right fun h => h.2.2), scanEnter_leaves s⟩

end Sys2Proof.Machine
end

section
/-! PROOFS. The event log and the stash (O28): where a record is inserted and what moves up for it, and the items that enter or wait. -/

namespace Sys2Proof.Machine

/-! The log (R325, R326) -/

/-- The record that a class and three words make now; its number is given when it is inserted. -/
def Core.record (c : Core) (cls : Nat) (w0 w1 w3 : W64) : EvtRec :=
  { cls := cls, num := c.evt.wr, w0 := w0, w1 := w1, w2 := w64 c.gc.count, w3 := w3, at_ := c.dclk }

/-- The record before another, in numbers modulo 2^32. -/
def prevNum (n : Nat) : Nat := (n + 2 ^ 32 - 1) % 2 ^ 32

/-- Wherever a record is inserted, it is the last one to be written there. -/
theorem logInsert_places (r : EvtRec) (held n : Nat) (recs : AMap EvtRec) :
    ∃ k moved, logInsert r held n recs = aset moved (k % 1024) { r with num := k } := by
  induction held generalizing n recs with
  | zero => exact ⟨n, recs, rfl⟩
  | succ held ih =>
    rw [logInsert]
    split
    · exact ⟨n, recs, rfl⟩
    · split
      · exact ih ..
      · exact ⟨n, recs, rfl⟩

/-- An insertion that may go back over `held` records leaves every entry but those and its own. -/
theorem logInsert_leaves {r : EvtRec} {held n j : Nat} {recs : AMap EvtRec} (hn : n < 2 ^ 32) (hheld : held < 1024)
    (hj : ∀ i, i ≤ held → j ≠ (n + 2 ^ 32 - i) % 2 ^ 32 % 1024) : aget (logInsert r held n recs) j = aget recs j := by
  have hself (k : Nat) (hk : ∀ i, i ≤ k → j ≠ (n + 2 ^ 32 - i) % 2 ^ 32 % 1024) (x : EvtRec) :
      aget (aset recs (n % 1024) x) j = aget recs j :=
    aget_aset_other _ _ _ _ (by have := hk 0 (Nat.zero_le _); omega)
  induction held generalizing n recs with
  | zero => exact hself 0 hj _
  | succ held ih =>
    rw [logInsert]
    split
    · exact hself _ hj _
    · split
      · have hback : ∀ i, i ≤ held → j ≠ ((n + 2 ^ 32 - 1) % 2 ^ 32 + 2 ^ 32 - i) % 2 ^ 32 % 1024 := fun i hi => by
          have := hj (i + 1) (by omega)
          omega
        have hlt : (n + 2 ^ 32 - 1) % 2 ^ 32 < 2 ^ 32 := Nat.mod_lt _ (by omega)
        rw [ih hlt (by omega) hback fun k hk x => aget_aset_other _ _ _ _ (by have := hk 0 (Nat.zero_le _); omega)]
        exact hself _ hj _
      · exact hself _ hj _

/-- Before a record of its own DCLK that comes after it a record goes back, and that one moves up. -/
theorem logInsert_moves {r p : EvtRec} {held n : Nat} {recs : AMap EvtRec} (hn : n < 2 ^ 32) (hheld : held + 1 < 1024)
    (hp : aget recs (prevNum n % 1024) = some p) (hat : p.at_ = r.at_) (hlt : keysLt r.key p.key = true) :
    aget (logInsert r (held + 1) n recs) (n % 1024) = some { p with num := n } := by
  rw [prevNum] at hp
  have hmoves : logInsert r (held + 1) n recs
      = logInsert r held ((n + 2 ^ 32 - 1) % 2 ^ 32) (aset recs (n % 1024) { p with num := n }) := by
    rw [logInsert, hp]
    exact if_pos ⟨hat, hlt⟩
  rw [hmoves, logInsert_leaves (Nat.mod_lt _ (by omega)) (by omega) fun i hi => by omega]
  exact aget_aset_self ..

theorem logRaw_room {c : Core} (cls : Nat) (w0 w1 w3 : W64) (h : diff32 c.evt.wr c.evt.rd < 1024) : c.logRaw cls w0 w1 w3
    = { c with evt := { recs := logInsert (c.record cls w0 w1 w3) (diff32 c.evt.wr c.evt.rd) c.evt.wr c.evt.recs,
                        wr := (c.evt.wr + 1) % 2 ^ 32, rd := c.evt.rd } } :=
  if_pos h

/-- A record that finds the log full is discarded, which is flagged and counted (R326). -/
theorem logRaw_full {c : Core} (cls : Nat) (w0 w1 w3 : W64) (h : 1024 ≤ diff32 c.evt.wr c.evt.rd) :
    (c.logRaw cls w0 w1 w3).evt = c.evt ∧ bitAt (c.logRaw cls w0 w1 w3).watch.fault 2 = true
    ∧ fld (c.logRaw cls w0 w1 w3).watch.fault 32 32 = min (fld c.watch.fault 32 32 + 1) (2 ^ 32 - 1) := by
  rw [Core.logRaw, if_neg (Nat.not_lt.mpr h)]
  refine ⟨rfl, ?_, ?_⟩
  · rw [bitAt_satAdd_outside _ _ (by omega), Core.setFault, Core.mark_watch, bitAt_satAdd_outside _ _ (by omega)]
    exact bitAt_setBit_self _ _ (by omega)
  · rw [fld_satAdd_self _ _ (by omega), Core.setFault, Core.mark_watch, fld_satAdd_apart _ _ (by omega), fld_setBit_apart _ _ (by omega)]

theorem aget_logRaw_fresh {c : Core} (cls : Nat) (w0 w1 w3 : W64) (hroom : diff32 c.evt.wr c.evt.rd < 1024) (hf : c.logFresh = true) :
    aget (c.logRaw cls w0 w1 w3).evt.recs (c.evt.wr % 1024) = some (c.record cls w0 w1 w3)
    ∧ ∀ k, k ≠ c.evt.wr % 1024 → aget (c.logRaw cls w0 w1 w3).evt.recs k = aget c.evt.recs k := by
  rw [logRaw_room _ _ _ _ hroom, logInsert_fresh _ fun p hp => logFresh_at hf hp]
  exact ⟨aget_aset_self .., fun k hk => aget_aset_other _ _ _ _ hk⟩

/-- The last record of the present DCLK moves up for one that comes before it (R325). -/
theorem aget_logRaw_moved {c : Core} {cls : Nat} {w0 w1 w3 : W64} {p : EvtRec} (hroom : diff32 c.evt.wr c.evt.rd < 1024)
    (hp : aget c.evt.recs (prevNum c.evt.wr % 1024) = some p) (hat : p.at_ = c.dclk)
    (hlt : keysLt (c.record cls w0 w1 w3).key p.key = true) (hne : c.evt.wr ≠ c.evt.rd) (hwr : c.evt.wr < 2 ^ 32)
    (hrd : c.evt.rd < 2 ^ 32) : aget (c.logRaw cls w0 w1 w3).evt.recs (c.evt.wr % 1024) = some { p with num := c.evt.wr } := by
  rw [logRaw_room _ _ _ _ hroom]
  have hheld : diff32 c.evt.wr c.evt.rd ≠ 0 := by rw [diff32]; omega
  obtain ⟨held, hsucc⟩ := Nat.exists_eq_succ_of_ne_zero hheld
  rw [hsucc]
  exact logInsert_moves hwr (by omega) hp hat hlt

theorem logRaw_keeps (c : Core) (cls : Nat) (w0 w1 w3 : W64) : (c.logRaw cls w0 w1 w3).mem = c.mem
    ∧ (c.logRaw cls w0 w1 w3).graph = c.graph ∧ (c.logRaw cls w0 w1 w3).queues = c.queues := by
  obtain ⟨e, w, l, h⟩ := logRaw_changes c cls w0 w1 w3
  rw [h]
  exact ⟨rfl, rfl, rfl⟩

theorem exec_evtPtrs {s : State} {v : W64} {acc : Access} (hs : s.served 0x2400000 acc = true)
    (h : diff32 (fld v 0 32) s.core.evt.rd ≤ diff32 s.core.evt.wr s.core.evt.rd) :
    exec (.evtPtrs v acc) s = .next (s.withCore { s.core with evt := { s.core.evt with rd := fld v 0 32 } }) := by
  have hwrite : s.core.evtPtrsWrite v = some { s.core with evt := { s.core.evt with rd := fld v 0 32 } } := if_pos h
  change onWrite s 0x2400000 v acc (fun _ c => c.evtPtrsWrite v) = _
  rw [onWrite_served v _ hs, hwrite, Option.getD_some]

/-! The stash (R333 to R335) -/

/-- The core with entries freed up to a number. -/
def Core.stashFreed (c : Core) (rd : Nat) : Core := { c with stash := { c.stash with rd := rd } }

/-- The core with other items waiting for an entry. -/
def Core.withWaiting (c : Core) (l : List (StashItem × StashWaiter)) : Core := { c with stash := { c.stash with waiting := l } }

theorem stashAdmit_none (k : Nat) {c : Core} (h : c.stash.waiting = []) : Core.stashAdmit k c = c := by
  cases k with
  | zero => rfl
  | succ k => rw [Core.stashAdmit, h]

theorem stashAdmit_room (k : Nat) {c : Core} {x : StashItem × StashWaiter} {rest : List (StashItem × StashWaiter)}
    (h : c.stash.waiting = x :: rest) (hroom : c.stashHeld < 64) :
    Core.stashAdmit (k + 1) c = Core.stashAdmit k (((c.withWaiting rest).stashEnter x.1).stashRelease x.2) := by
  rw [Core.stashAdmit, h]
  exact if_pos hroom

theorem stashAdmit_full (k : Nat) {c : Core} {x : StashItem × StashWaiter} {rest : List (StashItem × StashWaiter)}
    (h : c.stash.waiting = x :: rest) (hfull : 64 ≤ c.stashHeld) : Core.stashAdmit (k + 1) c = c := by
  rw [Core.stashAdmit, h]
  exact if_neg (Nat.not_lt.mpr hfull)

theorem exec_stashPtrs {s : State} {v : W64} {acc : Access} (hs : s.served 0x2400020 acc = true)
    (h : diff32 (fld v 0 32) s.core.stash.rd ≤ diff32 s.core.stash.wr s.core.stash.rd) : exec (.stashPtrs v acc) s
    = .next (s.withCore (Core.stashAdmit (s.core.stash.waiting.length + 64) (s.core.stashFreed (fld v 0 32)))) := by
  have hwrite : s.core.stashPtrsWrite v
      = some (Core.stashAdmit (s.core.stash.waiting.length + 64) (s.core.stashFreed (fld v 0 32))) := if_pos h
  change onWrite s 0x2400020 v acc (fun _ c => c.stashPtrsWrite v) = _
  rw [onWrite_served v _ hs, hwrite, Option.getD_some]

/-- An item that waits alone enters when an entry is freed; one of a port releases no more than the port (R333). -/
theorem stashAdmit_alone {c : Core} {x : StashItem × StashWaiter} {port k : Nat} (h : c.stash.waiting = [x]) (hport : x.2 = .port port)
    (hroom : c.stashHeld < 64) : Core.stashAdmit (k + 1) c = (c.withWaiting []).stashEnter x.1 := by
  rw [stashAdmit_room k h hroom, hport, Core.stashRelease, stashAdmit_none]
  rw [stash_stashEnter]
  rfl

/-- An item that enters has its STASH record in the log, where that has room (R333, Table 13-1). -/
theorem stashEnter_logs {c : Core} (i : StashItem) (hroom : diff32 c.evt.wr c.evt.rd < 1024) (hf : c.logFresh = true) :
    ∃ r, aget (c.stashEnter i).evt.recs (c.evt.wr % 1024) = some r ∧ r.cls = 5 := by
  have hfresh : ∀ d : Core, d.evt = c.evt → d.now = c.now → d.logFresh = true := fun d hevt hnow => by
    rw [Core.logFresh, hevt, Core.dclk, hnow]; exact hf
  obtain ⟨x, hx, hcls, -⟩ := logRaw_stands (c := Core.mark { c with stash := (c.stashEnter i).stash } 0x2400028 0) 5
    (genW0 0 i.status.code i.reason (c.stash.wr % 64) i.ctx) (stashWords i c.gc.count).w1 (stashWords i c.gc.count).w3 hroom
    (hfresh _ rfl rfl)
  rw [stash_stashEnter] at hx
  exact ⟨x, hx, hcls⟩

theorem stashPut_room {c : Core} (i : StashItem) (w : StashWaiter) (hroom : c.stashHeld < 64) (hnone : c.stash.waiting = []) :
    c.stashPut i w = (c.stashEnter i, true) := if_pos ⟨hroom, hnone⟩

/-- An item that finds 64 entries held waits, and the stash is flagged as overrun (R335). -/
theorem stashPut_full {c : Core} (i : StashItem) (w : StashWaiter) (hfull : 64 ≤ c.stashHeld) :
    (c.stashPut i w).2 = false ∧ (c.stashPut i w).1.stash.ents = c.stash.ents
    ∧ (c.stashPut i w).1.stash.waiting.length = c.stash.waiting.length + 1 ∧ bitAt (c.stashPut i w).1.stash.status 1 = true := by
  rw [Core.stashPut, if_neg fun h => Nat.not_lt.mpr hfull h.1]
  exact ⟨rfl, rfl, length_insertBy .., (bitAt_satAdd_outside _ _ (by omega)).trans (bitAt_setBit_self _ _ (by omega))⟩

/-! The obligation -/

/-- Settles O28: a record by whether the log has room and whether it goes back in its DCLK, an item by whether the stash has room. -/
theorem logAndStash : Obligations.LogAndStash := by
  unfold Obligations.LogAndStash
  refine ⟨⟨fun c cls w0 w1 w3 => ⟨fun hroom => ⟨?_, ?_, aget_logRaw_fresh cls w0 w1 w3 hroom, ?_⟩, logRaw_full cls w0 w1 w3,
      logRaw_keeps c cls w0 w1 w3⟩, fun s v acc => exec_evtPtrs⟩, fun s v acc hs hle hnone => ?_, fun s v acc x hs hle hone hroom port hport => ?_,
    fun k c x rest hw => ⟨stashAdmit_room k hw, stashAdmit_full k hw⟩, fun c i w hroom hnone => ?_, fun c i w => stashPut_full i w⟩
  · rw [logRaw_room _ _ _ _ hroom]
  · obtain ⟨k, moved, hplace⟩ := logInsert_places (c.record cls w0 w1 w3) (diff32 c.evt.wr c.evt.rd) c.evt.wr c.evt.recs
    rw [logRaw_room _ _ _ _ hroom, hplace]
    exact ⟨k, aget_aset_self ..⟩
  · exact fun p hp hat hlt hne hwr hrd => aget_logRaw_moved hroom hp hat hlt hne hwr hrd
  · rw [exec_stashPtrs hs hle, stashAdmit_none _ (by exact hnone)]
    rfl
  · rw [exec_stashPtrs hs hle, stashAdmit_alone (by exact hone) hport (by exact hroom)]
    rfl
  · have hstash := stash_stashPut_room i w hroom hnone
    obtain ⟨-, -, hmem, -⟩ := stashPut_keeps c i w
    refine ⟨congrArg Prod.snd (stashPut_room i w hroom hnone), by rw [hstash], by rw [hstash]; exact aget_aset_self .., ?_, hmem,
      fun hlog hf => ?_⟩
    · rw [hstash]
      exact bitAt_setBit_self _ _ (by omega)
    · rw [stashPut_room i w hroom hnone]
      exact stashEnter_logs i hlog hf

end Sys2Proof.Machine
end

section
/-! PROOFS. Link ports: what no sending, no role and no record of the fabric changes of a port or outside the fabric, so that the
statements on training, on the plan and on loop-backs cite one frame. -/

namespace Sys2Proof.Machine

/-! A port but for what sending changes -/

/-- A port without its role, its lanes, what it has to acknowledge, its Pleach and the frames it lost. -/
def Link.standing (l : Link) : Link :=
  { l with role := 0xF, vl0 := .reset, vl1 := .reset, vl2 := .reset, vl3 := .reset, ackDue := [], ackSince := none, unackAt := none,
           pleach := false, psyncAt := none, cnt2 := 0 }

section Standing
variable {x y : Link} (h : x.standing = y.standing)
include h

theorem st_of_standing : x.st = y.st := congrArg Link.st (a₁ := x.standing) (a₂ := y.standing) h
theorem kind_of_standing : x.kind = y.kind := congrArg Link.kind (a₁ := x.standing) (a₂ := y.standing) h
theorem taken_of_standing : x.taken = y.taken := congrArg Link.taken (a₁ := x.standing) (a₂ := y.standing) h
theorem accepted_of_standing : x.accepted = y.accepted := congrArg Link.accepted (a₁ := x.standing) (a₂ := y.standing) h
theorem oos_of_standing : x.oos = y.oos := congrArg Link.oos (a₁ := x.standing) (a₂ := y.standing) h

end Standing

@[simp] theorem standing_setLane (l : Link) (vl : Nat) (a : LinkLane) : (l.setLane vl a).standing = l.standing := by
  unfold Link.setLane
  split <;> rfl

@[simp] theorem standing_stamp (l : Link) (f : Frame) : (l.stamp f).2.standing = l.standing := by
  obtain ⟨-, due, since, h⟩ := stamp_changes l f
  rw [h]; rfl

@[simp] theorem standing_transmit (l : Link) (now vl : Nat) (f : Frame) : (l.transmit now vl f).standing = l.standing :=
  (standing_setLane ..).trans (standing_stamp l f)

@[simp] theorem standing_pumpLane (now vl n : Nat) (l : Link) : (l.pumpLane now vl n).standing = l.standing := by
  induction n generalizing l with
  | zero => rfl
  | succ n ih =>
    rw [Link.pumpLane]
    split
    · rfl
    · split
      · rfl
      · rw [ih, standing_transmit, standing_setLane]

@[simp] theorem standing_pump (l : Link) (now : Nat) : (l.pump now).standing = l.standing :=
  List.foldlRecOn (motive := fun x : Link => x.standing = l.standing) _ _ rfl fun _ h _ _ => (standing_pumpLane ..).trans h

/-! The frame -/

/-- A core that differs in its ports, the frames that wait for a role, the flags of the fabric, and what records change. -/
def PortsFrom (c d : Core) : Prop := ∃ ports held flags e w l,
  d = { c with fab := { c.fab with ports := ports, held := held, evt := flags }, evt := e, watch := w, sets := l }

theorem PortsFrom.refl (c : Core) : PortsFrom c c := ⟨c.fab.ports, c.fab.held, c.fab.evt, c.evt, c.watch, c.sets, rfl⟩

theorem PortsFrom.trans {c d e : Core} (h : PortsFrom c d) (k : PortsFrom d e) : PortsFrom c e := by
  obtain ⟨p, x, f, e, w, l, rfl⟩ := h
  obtain ⟨p, x, f, e, w, l, rfl⟩ := k
  exact ⟨p, x, f, e, w, l, rfl⟩

theorem PortsFrom.keeps {c d : Core} (h : PortsFrom c d) : d.mem = c.mem ∧ d.graph = c.graph ∧ d.queues = c.queues := by
  obtain ⟨p, x, f, e, w, l, rfl⟩ := h
  exact ⟨rfl, rfl, rfl⟩

theorem portsFrom_setLink (c : Core) (p : Nat) (x : Link) : PortsFrom c (c.setLink p x) :=
  ⟨_, c.fab.held, c.fab.evt, c.evt, c.watch, c.sets, rfl⟩

theorem portsFrom_withHeld (c : Core) (held : List (Nat × Nat × Frame)) : PortsFrom c { c with fab := { c.fab with held := held } } :=
  ⟨c.fab.ports, held, c.fab.evt, c.evt, c.watch, c.sets, rfl⟩

theorem portsFrom_setFab (c : Core) (bit port : Nat) : PortsFrom c (c.setFab bit port) := by
  obtain ⟨e, w, l, h⟩ := setFab_changes c bit port
  exact ⟨c.fab.ports, c.fab.held, _, e, w, l, h⟩

/-- A core in which ports have sent, lost frames or changed their roles. -/
structure SendsFrom (c d : Core) : Prop where
  standing : ∀ q, (d.link q).standing = (c.link q).standing
  only     : PortsFrom c d

theorem SendsFrom.refl (c : Core) : SendsFrom c c := ⟨fun _ => rfl, .refl c⟩

theorem SendsFrom.trans {c d e : Core} (h : SendsFrom c d) (k : SendsFrom d e) : SendsFrom c e :=
  ⟨fun q => (k.standing q).trans (h.standing q), h.only.trans k.only⟩

theorem SendsFrom.foldl {α : Type} {step : Core → α → Core} (hstep : ∀ d x, SendsFrom d (step d x)) (l : List α) (c : Core) :
    SendsFrom c (l.foldl step c) :=
  List.foldlRecOn l step (.refl c) fun d h x _ => h.trans (hstep d x)

theorem sendsFrom_setLink {c : Core} {p : Nat} {x : Link} (h : x.standing = (c.link p).standing) : SendsFrom c (c.setLink p x) := by
  refine ⟨fun q => ?_, portsFrom_setLink ..⟩
  by_cases hq : q = p
  · subst hq; rw [Core.link_setLink, h]
  · rw [Core.link_setLink_other c p q x hq]

theorem sendsFrom_withHeld (c : Core) (held : List (Nat × Nat × Frame)) : SendsFrom c { c with fab := { c.fab with held := held } } :=
  ⟨fun _ => rfl, portsFrom_withHeld ..⟩

theorem link_setFab (c : Core) (bit port q : Nat) : (c.setFab bit port).link q = c.link q := by
  obtain ⟨e, w, l, h⟩ := setFab_changes c bit port
  rw [h]; rfl

theorem sendsFrom_setFab (c : Core) (bit port : Nat) : SendsFrom c (c.setFab bit port) :=
  ⟨fun q => by rw [link_setFab], portsFrom_setFab ..⟩

theorem sendsFrom_enqueue (c : Core) (p vl : Nat) (f : Frame) : SendsFrom c (c.enqueue p vl f) :=
  sendsFrom_setLink (by rw [standing_pump, standing_setLane])

theorem sendsFrom_pleachLost (c : Core) (p n : Nat) : SendsFrom c (c.pleachLost p n) := by
  rw [Core.pleachLost]
  split
  · exact .refl c
  · exact (sendsFrom_setLink (by rfl)).trans (sendsFrom_setFab ..)

theorem sendsFrom_sendPleach (c : Core) (p role : Nat) (f : Frame) : SendsFrom c (c.sendPleach p role f) := by
  rw [Core.sendPleach]
  split
  · exact sendsFrom_pleachLost ..
  · split
    · exact sendsFrom_pleachLost ..
    · exact (sendsFrom_setLink (by rfl)).trans (sendsFrom_enqueue ..)

theorem sendsFrom_sendRole (c : Core) (role vl : Nat) (resumed : Bool) (f : Frame) : SendsFrom c (c.sendRole role vl resumed f) := by
  rw [Core.sendRole]
  split
  · exact sendsFrom_withHeld ..
  · split
    · split
      · exact sendsFrom_pleachLost ..
      · split
        · exact sendsFrom_sendPleach ..
        · exact sendsFrom_enqueue ..
    · exact sendsFrom_enqueue ..

theorem sendsFrom_retryHeld (c : Core) : SendsFrom c c.retryHeld :=
  (sendsFrom_withHeld c []).trans (.foldl (fun d (h : Nat × Nat × Frame) => sendsFrom_sendRole d h.1 h.2.1 false h.2.2) _ _)

theorem sendsFrom_pleachBegin (c : Core) (p : Nat) : SendsFrom c (c.pleachBegin p) := by
  rw [Core.pleachBegin]
  split
  · refine SendsFrom.trans ?_ (.foldl (fun d g => sendsFrom_sendPleach d p _ g) _ _)
    have hflag (x : Link) (hx : x.standing = (c.link p).standing) : SendsFrom c ((c.setLink p x).setFab 3 p) :=
      (sendsFrom_setLink hx).trans (sendsFrom_setFab ..)
    split
    · exact (hflag _ (by rfl)).trans (sendsFrom_enqueue ..)
    · exact hflag _ (by rfl)
  · exact .refl c

theorem sendsFrom_setRole (c : Core) (p role : Nat) : SendsFrom c (c.setRole p role) := by
  rw [Core.setRole]
  dsimp only
  split
  · exact .refl c
  · exact (sendsFrom_setLink (by rfl)).trans (sendsFrom_withHeld ..)

theorem sendsFrom_giveRole (c : Core) (p role : Nat) : SendsFrom c (c.giveRole p role) :=
  (SendsFrom.foldl (fun d q => sendsFrom_setRole d q 0xF) _ c).trans (sendsFrom_setRole ..)

/-! PHY_UP and out of service (Table 12-6, R322) -/

/-- A port as it enters PHY_UP: what it heard and owed is gone, and what is unacknowledged stays (R302). -/
def Link.restarts (l : Link) (now : Nat) : Link :=
  { l with st := .phyUp, since := now, probes := [], taken := false, farTaken := false, beacon := none, unackAt := none,
           ackSince := none, ackDue := [], locked := false, testLane := { l.testLane with gap := false, nakRun := 0 },
           vl0 := { l.vl0 with gap := false, nakRun := 0 }, vl1 := { l.vl1 with gap := false, nakRun := 0 },
           vl2 := { l.vl2 with gap := false, nakRun := 0 }, vl3 := { l.vl3 with gap := false, nakRun := 0 },
           retrains := if l.st = .active then min (l.retrains + 1) 65535 else l.retrains }

theorem linkPhyUp_eq (c : Core) (p : Nat) : c.linkPhyUp p = if (c.link p).st = .active
    then (c.setLink p ((c.link p).restarts c.now)).setFab 0 p else c.setLink p ((c.link p).restarts c.now) := by
  rw [Core.linkPhyUp]
  by_cases h : (c.link p).st = .active
  · simp only [h, Link.restarts, if_true]
  · simp only [h, Link.restarts, if_false]

theorem link_linkPhyUp (c : Core) (p : Nat) : (c.linkPhyUp p).link p = (c.link p).restarts c.now := by
  rw [linkPhyUp_eq]
  split
  · rw [link_setFab, Core.link_setLink]
  · rw [Core.link_setLink]

theorem link_linkPhyUp_other (c : Core) {p q : Nat} (h : q ≠ p) : (c.linkPhyUp p).link q = c.link q := by
  rw [linkPhyUp_eq]
  split
  · rw [link_setFab, Core.link_setLink_other _ _ _ _ h]
  · rw [Core.link_setLink_other _ _ _ _ h]

theorem portsFrom_linkPhyUp (c : Core) (p : Nat) : PortsFrom c (c.linkPhyUp p) := by
  rw [linkPhyUp_eq]
  split
  · exact (portsFrom_setLink ..).trans (portsFrom_setFab ..)
  · exact portsFrom_setLink ..

/-- A replay buffer outlives a retrain (R302). -/
theorem replay_restarts (l : Link) (now vl : Nat) : ((l.restarts now).lane vl).replay = (l.lane vl).replay := by
  unfold Link.lane
  split <;> rfl

/-- A port as it leaves service: its state, and nothing of what it heard (R303, R322). -/
theorem linkPark_parks (c : Core) (p : Nat) : ((c.linkPark p).link p).st = .parked ∧ ((c.linkPark p).link p).oos = (c.link p).oos
    ∧ PortsFrom c (c.linkPark p) := by
  rw [Core.linkPark]
  generalize hl : ({ c.link p with st := .parked, since := c.now, taken := false, farTaken := false, probes := [], beacon := none,
                                   ackDue := [], ackSince := none, unackAt := none, locked := false } : Link) = x
  have hset : PortsFrom c (c.setLink p x) := portsFrom_setLink ..
  split
  · have hsends := (sendsFrom_setFab (c.setLink p x) 0 p).trans (sendsFrom_pleachBegin ((c.setLink p x).setFab 0 p) p)
    have hstanding := hsends.standing p
    rw [Core.link_setLink] at hstanding
    exact ⟨(st_of_standing hstanding).trans (by rw [← hl]), (oos_of_standing hstanding).trans (by rw [← hl]), hset.trans hsends.only⟩
  · rw [Core.link_setLink, ← hl]
    exact ⟨rfl, rfl, hl ▸ hset⟩

/-- A port that the plan in force marks present starts training with its lanes and its rate, unless it is out of service (R388). -/
theorem linkStart_planned {c : Core} {p : Nat} {pl : Plan} {x : PlanPort} (hplan : c.fab.plan = some pl) (hx : pl.portAt p = some x) :
    c.linkStart p = if (c.link p).oos && !(c.link p).looped then c
      else (c.setLink p { c.link p with lanes := x.lanes, rate := x.rate, kind := 0 }).linkPhyUp p := by
  rw [Core.linkStart]
  simp only [hplan, hx]

theorem portsFrom_linkStart (c : Core) (p : Nat) : PortsFrom c (c.linkStart p) := by
  have hstart (x : Link) : PortsFrom c ((c.setLink p x).linkPhyUp p) := (portsFrom_setLink ..).trans (portsFrom_linkPhyUp ..)
  rw [Core.linkStart]
  split
  · split
    · exact .refl c
    · exact hstart _
  · split
    · exact hstart _
    · exact .refl c

end Sys2Proof.Machine
end

section
/-! PROOFS. The training of a port (O53): what PHY_UP and FAILED leave of it, and what no failure changes of the other parts. -/

namespace Sys2Proof.Machine

/-! A failure, and the ports that waited for what the failed one observes (R305) -/

/-- A core in which other ports than one were decided: that one stands as it did, and no flag of the fabric is cleared. -/
structure ApartFrom (p : Nat) (c d : Core) : Prop where
  standing : (d.link p).standing = (c.link p).standing
  only     : PortsFrom c d
  flags    : ∀ i, i < 48 → bitAt c.fab.evt i = true → bitAt d.fab.evt i = true

theorem ApartFrom.refl (p : Nat) (c : Core) : ApartFrom p c c := ⟨rfl, .refl c, fun _ _ h => h⟩

theorem ApartFrom.trans {p : Nat} {c d e : Core} (h : ApartFrom p c d) (k : ApartFrom p d e) : ApartFrom p c e :=
  ⟨k.standing.trans h.standing, h.only.trans k.only, fun i hi hset => k.flags i hi (h.flags i hi hset)⟩

theorem SendsFrom.apart {c d : Core} (h : SendsFrom c d) (k : CarriedFrom c d) (p : Nat) : ApartFrom p c d :=
  ⟨h.standing p, h.only, k.flags⟩

theorem apartFrom_setLink (c : Core) {p q : Nat} (x : Link) (h : q ≠ p) : ApartFrom p c (c.setLink q x) :=
  ⟨by rw [Core.link_setLink_other _ _ _ _ (Ne.symm h)], portsFrom_setLink .., fun _ _ h => h⟩

theorem apartFrom_setFab (c : Core) (bit port p : Nat) : ApartFrom p c (c.setFab bit port) :=
  (sendsFrom_setFab c bit port).apart (carriedFrom_setFab c bit port) p

theorem apartFrom_pleachBegin (c : Core) (q p : Nat) : ApartFrom p c (c.pleachBegin q) :=
  (sendsFrom_pleachBegin c q).apart (carriedFrom_pleachBegin c q) p

theorem apartFrom_giveRole (c : Core) (q role p : Nat) : ApartFrom p c (c.giveRole q role) :=
  (sendsFrom_giveRole c q role).apart (carriedFrom_giveRole c q role) p

section Others
variable {c : Core} {p q : Nat} (hq : q ≠ p)
include hq

theorem apartFrom_identMismatch (kind : Nat) : ApartFrom p c (c.identMismatch q kind) := by
  rw [Core.identMismatch]
  split
  · exact .refl p c
  · exact (apartFrom_setLink c _ hq).trans (apartFrom_setFab ..)

theorem apartFrom_identHold (kind peer : Nat) : ApartFrom p c (c.identHold q kind peer) := by
  rw [Core.identHold, Core.linkHold]
  exact (((apartFrom_setLink c _ hq).trans (apartFrom_setLink _ _ hq)).trans (apartFrom_setFab ..)).trans (apartFrom_pleachBegin ..)

end Others

theorem ApartFrom.failed {p : Nat} {c d : Core} (h : ApartFrom p c d) (hst : (c.link p).st = .failed) : (d.link p).st = .failed :=
  (st_of_standing h.standing).trans hst

/-- The second port of a SWAPPED pair is in IDENT or HELD, so it is not one that failed. -/
theorem apartFrom_swapSecond {c : Core} {p : Nat} (q k : Nat) (hst : (c.link p).st = .failed) : ApartFrom p c (c.swapSecond q k) := by
  rw [Core.swapSecond]
  split
  next h =>
    have hq : q ≠ p := fun he => by simp [he, hst] at h
    exact (apartFrom_setLink c _ hq).trans (apartFrom_pleachBegin ..)
  next => exact .refl p c

/-- Whatever another port in IDENT is found to be, a port that failed stays as it was. -/
theorem apartFrom_identify {c : Core} {p : Nat} (q : Nat) (hst : (c.link p).st = .failed) : ApartFrom p c (c.identify q) := by
  by_cases hq : q = p
  · subst hq
    rw [identify_idle (by rw [hst]; nofun)]
    exact .refl q c
  · have hhold (kind : Nat) : ApartFrom p c (c.identHold q kind 0) := apartFrom_identHold hq kind 0
    have hrole (r k : Nat) : ApartFrom p c (if r = k then c else c.giveRole q r) := by
      split
      · exact .refl p c
      · exact apartFrom_giveRole ..
    rw [Core.identify]
    dsimp only
    split
    · split
      · exact apartFrom_identMismatch hq 7
      · split
        · exact apartFrom_identMismatch hq 6
        · split
          · exact (hrole _ _).trans (apartFrom_setLink _ _ hq)
          · split
            · exact hhold _
            · split
              · split
                · have hfirst := apartFrom_identHold (c := c) hq 5
                  exact (hfirst _).trans (apartFrom_swapSecond _ _ ((hfirst _).failed hst))
                · exact hhold _
              · split
                · exact hhold _
                · exact .refl p c
    · exact .refl p c

theorem apartFrom_identifyAll {c : Core} {p : Nat} (hst : (c.link p).st = .failed) : ApartFrom p c c.identifyAll :=
  List.foldlRecOn (motive := fun d : Core => ApartFrom p c d) _ _ (.refl p c) fun _ h q _ =>
    h.trans (apartFrom_identify q (h.failed hst))

/-- A port that fails shows its kind and the flag of a failure, whatever that decides of other ports (Table 12-6, R305). -/
theorem failPort_fails (c : Core) (p kind : Nat) : ((c.failPort p kind).link p).st = .failed ∧ ((c.failPort p kind).link p).kind = kind
    ∧ bitAt (c.failPort p kind).fab.evt 1 = true ∧ PortsFrom c (c.failPort p kind) := by
  rw [Core.failPort, Core.linkFail]
  generalize hx : ({ c.link p with st := .failed, kind := kind, since := c.now } : Link) = x
  have hself : ((c.setLink p x).link p).standing = x.standing := by rw [Core.link_setLink]
  have hpleach := apartFrom_pleachBegin ((c.setLink p x).setFab 1 p) p p
  have hstands : ApartFrom p (c.setLink p x) (((c.setLink p x).setFab 1 p).pleachBegin p) := (apartFrom_setFab ..).trans hpleach
  have hfailed := st_of_standing (hstands.standing.trans hself)
  have hothers := apartFrom_identifyAll (hfailed.trans (by rw [← hx]))
  have hall := (hothers.standing.trans hstands.standing).trans hself
  exact ⟨(st_of_standing hall).trans (by rw [← hx]), (kind_of_standing hall).trans (by rw [← hx]),
    hothers.flags 1 (by omega) (hpleach.flags 1 (by omega) (bitAt_setFab _ _ (by omega))),
    ((portsFrom_setLink c p x).trans hstands.only).trans hothers.only⟩

/-! The rows of a port's training (R303) -/

section Rows
variable {s : State} {p : Nat} (hr : s.running = true) (hp : p < s.core.cfg.linkPorts)
include hr hp

theorem exec_linkLockLoss (h : (s.core.link p).st = .ident ∨ (s.core.link p).st = .held ∨ (s.core.link p).st = .measure
      ∨ (s.core.link p).st = .active) : exec (.linkLockLoss p) s = .next (s.withCore (s.core.linkPhyUp p)) := by
  change execLinkLockLoss p s = _
  rw [execLinkLockLoss, onLink_running hr hp, if_pos h]

theorem exec_phyUpLocked (h : (s.core.link p).st = .phyUp) : exec (.phyUpLocked p) s
    = .next (s.withCore (s.core.setLink p { s.core.link p with st := .align, since := s.core.now, locked := false })) := by
  change execPhyUpLocked p s = _
  rw [execPhyUpLocked, onLink_running hr hp, if_pos h]

theorem exec_codewordLock {skew : Nat} (h : (s.core.link p).st = .align) (hskew : skew ≤ 8) (hloop : (s.core.link p).looped = false) :
    exec (.codewordLock p skew) s = .next (s.withCore (s.core.setLink p { s.core.link p with
      st := .ident, since := s.core.now, locked := true, beacon := none })) := by
  change execCodewordLock p skew s = _
  rw [execCodewordLock, onLink_running hr hp, if_pos ⟨h, hskew⟩, if_neg (by simp [hloop])]

/-- The four times of Table 12-6 after which a port fails: without lock, without codeword lock, without an identity of this chip's plan,
and without a latency. -/
theorem exec_trainingTimeout {i : Instr} {kind : Nat}
    (h : (i = .phyUpTimeout p ∧ kind = 1 ∧ (s.core.link p).st = .phyUp ∧ (s.core.link p).since + 2 ^ 20 * 48 ≤ s.core.now)
      ∨ (i = .alignTimeout p ∧ kind = 2 ∧ (s.core.link p).st = .align ∧ (s.core.link p).locked = false
          ∧ (s.core.link p).since + 2 ^ 16 * 4 ≤ s.core.now)
      ∨ (i = .identTimeout p ∧ kind = 1 ∧ (s.core.link p).st = .ident
          ∧ ((s.core.link p).beacon = none ∨ (s.core.link p).kind = 6 ∨ (s.core.link p).kind = 7)
          ∧ (s.core.link p).since + 2 ^ 20 * 3 ≤ s.core.now)
      ∨ (i = .measureTimeout p ∧ kind = 2 ∧ (s.core.link p).st = .measure ∧ (s.core.link p).since + 2 ^ 20 * 3 ≤ s.core.now)) :
    exec i s = .next (s.withCore (s.core.failPort p kind)) := by
  obtain ⟨rfl, rfl, hst, hlate⟩ | ⟨rfl, rfl, hst, hlock, hlate⟩ | ⟨rfl, rfl, hst, hident, hlate⟩ | ⟨rfl, rfl, hst, hlate⟩ := h
  · change execPhyUpTimeout p s = _
    rw [execPhyUpTimeout, onLink_running hr hp, if_pos ⟨hst, hlate⟩]
  · change execAlignTimeout p s = _
    rw [execAlignTimeout, onLink_running hr hp, if_pos ⟨hst, by simp [hlock], hlate⟩]
  · change execIdentTimeout p s = _
    rw [execIdentTimeout, onLink_running hr hp, if_pos ⟨hst, by simpa using hident, hlate⟩]
  · change execMeasureTimeout p s = _
    rw [execMeasureTimeout, onLink_running hr hp, if_pos ⟨hst, hlate⟩]

theorem exec_failedRetry (h : (s.core.link p).st = .failed) (hlate : (s.core.link p).since + 2 ^ 24 * 48 ≤ s.core.now) :
    exec (.failedRetry p) s = .next (s.withCore (s.core.linkPhyUp p)) := by
  change execFailedRetry p s = _
  rw [execFailedRetry, onLink_running hr hp, if_pos ⟨h, hlate⟩]

theorem exec_unacknowledgedTimeout {t : Nat} (ht : (s.core.link p).unackAt = some t) (h : (s.core.link p).st = .active)
    (hlate : t + 2 ^ 16 * 4 ≤ s.core.now) : exec (.unacknowledgedTimeout p) s = .next (s.withCore (s.core.linkPhyUp p)) := by
  change execUnacknowledgedTimeout p s = _
  rw [execUnacknowledgedTimeout, onLink_running hr hp]
  simp only [ht]
  rw [if_pos ⟨h, hlate⟩]

end Rows

/-! SZ_LK_CTRL (Table 12-22) -/

section Control
variable {c : Core} {p : Nat} {v : W64} (hp : p < c.cfg.linkPorts)
include hp

theorem lkCtrlWrite_retrains (hoos : bitAt v 0 = (c.link p).oos) (hv : bitAt v 1 = true)
    (hst : (c.link p).st = .active ∨ (c.link p).st = .failed) : c.lkCtrlWrite p v = some (c.linkPhyUp p) := by
  have hlink : c.isLink p = true := decide_eq_true hp
  rw [Core.lkCtrlWrite]
  rcases hst with hst | hst <;> cases ho : (c.link p).oos <;> simp [hlink, hoos, hv, hst, ho]

theorem lkCtrlWrite_parks (hoos : (c.link p).oos = false) (hv : bitAt v 0 = true) (hno : bitAt v 1 = false) :
    c.lkCtrlWrite p v = some ((c.setLink p { c.link p with oos := true }).linkPark p) := by
  have hlink : c.isLink p = true := decide_eq_true hp
  simp [Core.lkCtrlWrite, hlink, hoos, hv, hno]

theorem lkCtrlWrite_returns (hoos : (c.link p).oos = true) (hv : bitAt v 0 = false) (hno : bitAt v 1 = false) :
    c.lkCtrlWrite p v = some ((c.setLink p { c.link p with oos := false }).linkStart p) := by
  have hlink : c.isLink p = true := decide_eq_true hp
  simp [Core.lkCtrlWrite, hlink, hoos, hv, hno]

end Control

theorem exec_retrain {s : State} {p : Nat} {v : W64} {acc : Access} {d : Core} (h8 : p < 8)
    (hs : s.served (0x1400128 + 0x40 * p) acc = true) (hw : s.core.lkCtrlWrite p v = some d) :
    exec (.retrain p v acc) s = .next (s.withCore d) ∧ exec (.oos p v acc) s = .next (s.withCore d) := by
  have hwrite : onWrite s (0x1400128 + 0x40 * p) v acc (fun _ c => c.lkCtrlWrite p v) = .next (s.withCore d) := by
    rw [onWrite_served v _ hs, hw, Option.getD_some]
  exact ⟨(if_pos h8).trans hwrite, (if_pos h8).trans hwrite⟩

/-- A port that is back in service trains with what the plan gives it, and no other port is touched (R322). -/
theorem linkStart_returned {c : Core} {p : Nat} {pl : Plan} {x : PlanPort} (hplan : c.fab.plan = some pl) (hx : pl.portAt p = some x) :
    let d := (c.setLink p { c.link p with oos := false }).linkStart p
    (d.link p).st = .phyUp ∧ (d.link p).oos = false ∧ (d.link p).lanes = x.lanes ∧ (d.link p).rate = x.rate
    ∧ (∀ q, q ≠ p → d.link q = c.link q) ∧ d.mem = c.mem ∧ d.graph = c.graph ∧ d.queues = c.queues := by
  intro d
  have hkept : PortsFrom c d := (portsFrom_setLink ..).trans (portsFrom_linkStart ..)
  have hstart : d = ((c.setLink p { c.link p with oos := false }).setLink p { c.link p with
      oos := false, lanes := x.lanes, rate := x.rate, kind := 0 }).linkPhyUp p := by
    change Core.linkStart _ p = _
    rw [linkStart_planned (by exact hplan) hx, Core.link_setLink, if_neg (by simp)]
  refine ⟨?_, ?_, ?_, ?_, fun q hq => ?_, hkept.keeps⟩
  · rw [hstart, link_linkPhyUp]; rfl
  · rw [hstart, link_linkPhyUp, Core.link_setLink]; rfl
  · rw [hstart, link_linkPhyUp, Core.link_setLink]; rfl
  · rw [hstart, link_linkPhyUp, Core.link_setLink]; rfl
  · rw [hstart, link_linkPhyUp_other _ hq, Core.link_setLink_other _ _ _ _ hq, Core.link_setLink_other _ _ _ _ hq]

/-! The obligation -/

/-- Settles O53: the rows that lead to PHY_UP by what a port keeps there, the failures by what they decide, SZ_LK_CTRL by its bits. -/
theorem portsTrain : Obligations.PortsTrain := by
  unfold Obligations.PortsTrain
  intro s p hr hp l kept alone
  have hup : ((s.core.linkPhyUp p).link p) = l.restarts s.core.now := link_linkPhyUp ..
  have halone : alone (s.withCore (s.core.linkPhyUp p)) :=
    ⟨fun q hq => link_linkPhyUp_other s.core hq, (portsFrom_linkPhyUp s.core p).keeps⟩
  refine ⟨fun hst => ?_, exec_phyUpLocked hr hp, fun skew hst hskew hloop => exec_codewordLock hr hp hst hskew hloop,
    fun i kind h => ?_, fun hst hlate => ?_, fun t ht hst hlate => ?_, fun v acc h8 hs => ⟨fun hoos hv hst => ?_, fun hv hoos hno => ?_,
      fun pl x hv hno hoos hplan hx => ?_⟩⟩
  · refine ⟨_, exec_linkLockLoss hr hp hst, ?_, ?_, fun hactive => ?_, halone⟩
    · rw [State.withCore_core, hup]; rfl
    · rw [State.withCore_core, hup]; rfl
    · rw [State.withCore_core, hup]; exact if_pos hactive
  · obtain ⟨hst, hkind, hflag, hports⟩ := failPort_fails s.core p kind
    exact ⟨_, exec_trainingTimeout hr hp h, hst, hkind, hflag, hports.keeps⟩
  · refine ⟨_, exec_failedRetry hr hp hst hlate, ?_, ?_, halone⟩
    · rw [State.withCore_core, hup]; rfl
    · rw [State.withCore_core, linkPhyUp_eq, if_neg (by rw [hst]; nofun)]; rfl
  · refine ⟨_, exec_unacknowledgedTimeout hr hp ht hst hlate, ?_, ?_, fun vl => ?_, halone⟩
    · rw [State.withCore_core, hup]; rfl
    · rw [State.withCore_core, hup]; exact if_pos hst
    · rw [State.withCore_core, hup]; exact replay_restarts ..
  · refine ⟨_, (exec_retrain h8 hs (lkCtrlWrite_retrains hp hoos hv hst)).1, ?_, ?_, halone⟩
    · rw [State.withCore_core, hup]; rfl
    · rw [State.withCore_core, hup]; rfl
  · obtain ⟨hst, hout, hports⟩ := linkPark_parks (s.core.setLink p { l with oos := true }) p
    rw [Core.link_setLink] at hout
    exact ⟨_, (exec_retrain h8 hs (lkCtrlWrite_parks hp hoos hv hno)).2, hst, hout, ((portsFrom_setLink ..).trans hports).keeps⟩
  · exact ⟨_, (exec_retrain h8 hs (lkCtrlWrite_returns hp hoos hv hno)).2, linkStart_returned hplan hx⟩

end Sys2Proof.Machine
end

section
/-! PROOFS. FABRIC_PLAN_LOAD, ROUTE_LOAD, SPARE_MAP and LINK_ACCEPT (O52): the ports that a plan clears and starts, the count that it
aligns, and what each command leaves as it was. -/

namespace Sys2Proof.Machine

/-! Checks that passed -/

theorem passes_bind {ε α β : Type} {x : Except ε α} {f : α → Except ε β} (h : passes (x >>= f) = true) :
    ∃ a, x = .ok a ∧ passes (f a) = true := by
  cases x with
  | error e => exact nomatch h
  | ok a => exact ⟨a, rfl, h⟩

theorem passes_ensure {α : Type} {b : Bool} {v : Verdict} {f : Unit → Except Verdict α} (h : passes (ensure b v >>= f) = true) :
    b = true ∧ passes (f ()) = true := by
  obtain ⟨⟨⟩, hok, hrest⟩ := passes_bind h
  refine ⟨?_, hrest⟩
  by_contra hb
  rw [ensure, if_neg hb] at hok
  exact nomatch hok

/-- A plan that passes R297 names only ports of the configuration. -/
theorem planCheck_ports {c : Core} {h : List W64} {pl : Plan} (hcheck : passes (c.planCheck h pl) = true) :
    ∀ i ∈ pl.present, i < c.cfg.linkPorts := by
  obtain ⟨-, h2⟩ := passes_ensure hcheck
  obtain ⟨-, h3⟩ := passes_ensure h2
  obtain ⟨-, h4⟩ := passes_ensure h3
  obtain ⟨-, h5⟩ := passes_ensure h4
  obtain ⟨-, h6⟩ := passes_ensure h5
  obtain ⟨hports, -⟩ := passes_ensure h6
  simpa using hports

/-! Ports changed all alike -/

/-- The core with every port changed alike. -/
def Core.mapLinks (c : Core) (f : Link → Link) : Core :=
  { c with fab := { c.fab with ports := c.fab.ports.map fun x : Nat × Link => (x.1, f x.2) } }

theorem link_mapLinks (c : Core) {f : Link → Link} (hf : f .reset = .reset) (p : Nat) : (c.mapLinks f).link p = f (c.link p) := by
  change (aget (c.fab.ports.map fun x : Nat × Link => (x.1, f x.2)) p).getD .reset = f ((aget c.fab.ports p).getD .reset)
  rw [aget_map_values]
  cases aget c.fab.ports p with
  | none => exact hf.symm
  | some x => rfl

/-- A port with no frame waiting on its lanes. -/
def Link.unheld (l : Link) : Link :=
  { l with vl0 := { l.vl0 with waiting := [] }, vl1 := { l.vl1 with waiting := [] }, vl2 := { l.vl2 with waiting := [] },
           vl3 := { l.vl3 with waiting := [] } }

theorem dropHeld_changes (c : Core) : ∃ cnt, c.dropHeld
    = { c.mapLinks Link.unheld with fab := { (c.mapLinks Link.unheld).fab with held := [], cnt := cnt } } := ⟨_, rfl⟩

theorem link_dropHeld (c : Core) (p : Nat) : c.dropHeld.link p = (c.link p).unheld := link_mapLinks c (f := Link.unheld) rfl p

/-! Ports that a plan clears (R298, R322) -/

theorem link_linkClear (c : Core) (p : Nat) : (c.linkClear p).link p = (c.link p).parkedAs := by
  rw [Core.linkClear]
  split
  · rw [link_setFab, Core.link_setLink]; rfl
  · rw [Core.link_setLink]; rfl

theorem link_linkClear_other (c : Core) {p q : Nat} (h : q ≠ p) : (c.linkClear p).link q = c.link q := by
  rw [Core.linkClear]
  split
  · rw [link_setFab, Core.link_setLink_other _ _ _ _ h]
  · rw [Core.link_setLink_other _ _ _ _ h]

/-- A core that differs in its ports, the flags of the fabric and what records change, with no other frame waiting. -/
def TrainsFrom (c d : Core) : Prop := ∃ ports flags e w l,
  d = { c with fab := { c.fab with ports := ports, evt := flags }, evt := e, watch := w, sets := l }

theorem TrainsFrom.refl (c : Core) : TrainsFrom c c := ⟨c.fab.ports, c.fab.evt, c.evt, c.watch, c.sets, rfl⟩

theorem TrainsFrom.trans {c d e : Core} (h : TrainsFrom c d) (k : TrainsFrom d e) : TrainsFrom c e := by
  obtain ⟨p, f, e, w, l, rfl⟩ := h
  obtain ⟨p, f, e, w, l, rfl⟩ := k
  exact ⟨p, f, e, w, l, rfl⟩

theorem TrainsFrom.foldl {α : Type} {step : Core → α → Core} (hstep : ∀ d x, TrainsFrom d (step d x)) (l : List α) (c : Core) :
    TrainsFrom c (l.foldl step c) :=
  List.foldlRecOn l step (.refl c) fun d h x _ => h.trans (hstep d x)

theorem trainsFrom_setLink (c : Core) (p : Nat) (x : Link) : TrainsFrom c (c.setLink p x) :=
  ⟨_, c.fab.evt, c.evt, c.watch, c.sets, rfl⟩

theorem trainsFrom_setFab (c : Core) (bit port : Nat) : TrainsFrom c (c.setFab bit port) := by
  obtain ⟨e, w, l, h⟩ := setFab_changes c bit port
  exact ⟨c.fab.ports, _, e, w, l, h⟩

theorem trainsFrom_linkClear (c : Core) (p : Nat) : TrainsFrom c (c.linkClear p) := by
  rw [Core.linkClear]
  split
  · exact (trainsFrom_setLink ..).trans (trainsFrom_setFab ..)
  · exact trainsFrom_setLink ..

theorem trainsFrom_linkStart {c : Core} {p : Nat} {pl : Plan} {x : PlanPort} (hplan : c.fab.plan = some pl) (hx : pl.portAt p = some x) :
    TrainsFrom c (c.linkStart p) := by
  rw [linkStart_planned hplan hx, linkPhyUp_eq]
  split
  · exact .refl c
  · split
    · exact ((trainsFrom_setLink ..).trans (trainsFrom_setLink ..)).trans (trainsFrom_setFab ..)
    · exact (trainsFrom_setLink ..).trans (trainsFrom_setLink ..)

/-- The core with a list of ports cleared. -/
def Core.clearPorts (c : Core) (l : List Nat) : Core := l.foldl (fun d i => d.linkClear i) c

theorem link_clearPorts_other (c : Core) {l : List Nat} {p : Nat} (h : p ∉ l) : (c.clearPorts l).link p = c.link p :=
  List.foldlRecOn (motive := fun d : Core => d.link p = c.link p) l _ rfl fun d hd _ hq =>
    (link_linkClear_other d (ne_of_mem_of_not_mem hq h).symm).trans hd

theorem link_clearPorts (c : Core) {l : List Nat} {p : Nat} (hl : l.Nodup) (h : p ∈ l) :
    (c.clearPorts l).link p = (c.link p).parkedAs := by
  obtain ⟨before, after, rfl, hbefore, hafter⟩ := append_of_mem_nodup hl h
  rw [Core.clearPorts, List.foldl_append, List.foldl_cons]
  exact (link_clearPorts_other _ hafter).trans ((link_linkClear _ p).trans (congrArg Link.parkedAs (link_clearPorts_other c hbefore)))

/-! Ports that a plan starts -/

/-- A present port takes its role of the plan and starts training. -/
def Core.startPort (pl : Plan) (c : Core) (i : Nat) : Core :=
  (c.setLink i { c.link i with role := ((pl.portAt i).map (·.role)).getD 0xF }).linkStart i

/-- The present ports of a plan are those that it has an entry for, among the eight of its image (Table 12-2). -/
theorem mem_present {pl : Plan} (hlen : pl.ports.length = 8) (i : Nat) : i ∈ pl.present ↔ ∃ x, pl.portAt i = some x := by
  have hlt {x : PlanPort} (hx : pl.ports[i]? = some x) : i < 8 := hlen ▸ (List.getElem?_eq_some_iff.mp hx).1
  rw [Plan.present, List.mem_filter, List.mem_range, Plan.portAt]
  cases hx : pl.ports[i]? with
  | none => simp
  | some x => cases hp : x.present <;> simp [hp, hlt hx]

section Start
variable {c : Core} {pl : Plan} (hplan : c.fab.plan = some pl)
include hplan

theorem trainsFrom_startPort {i : Nat} {x : PlanPort} (hx : pl.portAt i = some x) : TrainsFrom c (Core.startPort pl c i) :=
  (trainsFrom_setLink ..).trans (trainsFrom_linkStart (by exact hplan) hx)

/-- A cleared port that starts: with its role, in PHY_UP unless it is out of service. -/
theorem startPort_starts {i : Nat} {x : PlanPort} {l : Link} (hx : pl.portAt i = some x) (hl : c.link i = l.parkedAs) :
    ((Core.startPort pl c i).link i).role = x.role
    ∧ ((Core.startPort pl c i).link i).st = if l.oos then .parked else .phyUp := by
  rw [Core.startPort, linkStart_planned (by exact hplan) hx, Core.link_setLink, hl, hx]
  cases ho : l.oos with
  | true =>
    have hoff : (l.parkedAs.oos && !l.parkedAs.looped) = true := by simp [Link.parkedAs, ho, Link.reset]
    rw [if_pos hoff, Core.link_setLink]
    exact ⟨rfl, rfl⟩
  | false =>
    have hon : ¬(l.parkedAs.oos && !l.parkedAs.looped) = true := by simp [Link.parkedAs, ho]
    rw [if_neg hon, link_linkPhyUp, Core.link_setLink]
    exact ⟨rfl, rfl⟩

theorem link_startPort_other {i q : Nat} {x : PlanPort} (hx : pl.portAt i = some x) (hq : q ≠ i) :
    (Core.startPort pl c i).link q = c.link q := by
  rw [Core.startPort, linkStart_planned (by exact hplan) hx]
  split
  · exact Core.link_setLink_other _ _ _ _ hq
  · rw [link_linkPhyUp_other _ hq, Core.link_setLink_other _ _ _ _ hq, Core.link_setLink_other _ _ _ _ hq]

/-- Starting a list of present ports leaves the others, and the plan. -/
theorem startPorts_leaves {l : List Nat} (hl : ∀ i ∈ l, ∃ x, pl.portAt i = some x) : TrainsFrom c (l.foldl (Core.startPort pl) c)
    ∧ ∀ q, q ∉ l → (l.foldl (Core.startPort pl) c).link q = c.link q := by
  refine List.foldlRecOn (motive := fun d : Core => TrainsFrom c d ∧ ∀ q, q ∉ l → d.link q = c.link q) l _ ⟨.refl c, fun _ _ => rfl⟩
    fun d ⟨hd, hlink⟩ i hi => ?_
  obtain ⟨x, hx⟩ := hl i hi
  have hplan' : d.fab.plan = some pl := by
    obtain ⟨p, f, e, w, s, rfl⟩ := hd
    exact hplan
  exact ⟨hd.trans (trainsFrom_startPort hplan' hx), fun q hq =>
    (link_startPort_other hplan' hx (ne_of_mem_of_not_mem hi hq).symm).trans (hlink q hq)⟩

theorem startPorts_starts {l : List Nat} (hl : ∀ i ∈ l, ∃ x, pl.portAt i = some x) (hnodup : l.Nodup) {i : Nat} {x : PlanPort}
    {k : Link} (hi : i ∈ l) (hx : pl.portAt i = some x) (hk : c.link i = k.parkedAs) :
    ((l.foldl (Core.startPort pl) c).link i).role = x.role
    ∧ ((l.foldl (Core.startPort pl) c).link i).st = if k.oos then .parked else .phyUp := by
  obtain ⟨before, after, rfl, hbefore, hafter⟩ := append_of_mem_nodup hnodup hi
  have hparts : ∀ j ∈ before ++ i :: after, ∃ y, pl.portAt j = some y := hl
  obtain ⟨hfirst, hlink⟩ := startPorts_leaves hplan fun j hj => hparts j (List.mem_append_left _ hj)
  rw [List.foldl_append, List.foldl_cons]
  generalize before.foldl (Core.startPort pl) c = d at hfirst hlink ⊢
  have hplan' : d.fab.plan = some pl := by
    obtain ⟨p, f, e, w, s, rfl⟩ := hfirst
    exact hplan
  have hplan'' : (Core.startPort pl d i).fab.plan = some pl := by
    obtain ⟨p, f, e, w, s, hstart⟩ := trainsFrom_startPort hplan' hx
    rw [hstart]
    exact hplan'
  obtain ⟨-, hrest⟩ := startPorts_leaves hplan'' fun j hj => hparts j (List.mem_append_right _ (List.mem_cons_of_mem _ hj))
  rw [hrest i hafter]
  exact startPort_starts hplan' hx ((hlink i hbefore).trans hk)

end Start

/-! A plan in force (R298, R314) -/

/-- The core with a plan in force since DCLK t and nothing of the fabric before it: no route, spare, reference or parent, and no wire
test. -/
def Core.underPlan (c : Core) (t : Nat) (pl : Plan) : Core :=
  { c with
    fab := { c.fab with plan := some pl, planAt := t, route := none, spareMap := [], hops := 0xFF, refIdx := 0,
                        parent := none, isRef := false, refQuiet := t },
    gc := { c.gc with status := setBit (setBit c.gc.status 0 false) 1 false, offsets := [], realign := false, hold := 0 },
    tl := { c.tl with linkDepth := [] } }

/-- This chip becomes the reference where it is alone, or candidate 0 (R314). -/
def Core.aligns (c : Core) (pl : Plan) : Core :=
  if pl.product = 1 then c.beReference (c.candidate_.getD 0) else if c.candidate_ = some 0 then c.beReference 0 else c

theorem planTake_eq (c : Core) (pl : Plan) : c.planTake pl = pl.present.foldl (Core.startPort pl)
    (((c.dropHeld.clearPorts (List.range c.cfg.linkPorts)).underPlan c.now pl).aligns pl) := rfl

theorem aligns_changes (c : Core) (pl : Plan) : ∃ ref hops idx g, c.aligns pl
    = { c with fab := { c.fab with isRef := ref, hops := hops, refIdx := idx, parent := (c.aligns pl).fab.parent }, gc := g }
      ∧ g.count = c.gc.count ∧ ((c.aligns pl).fab.parent = none ∨ (c.aligns pl).fab.parent = c.fab.parent) := by
  unfold Core.aligns
  split
  · exact ⟨_, _, _, _, rfl, rfl, .inl rfl⟩
  · split
    · exact ⟨_, _, _, _, rfl, rfl, .inl rfl⟩
    · exact ⟨_, _, _, _, rfl, rfl, .inr rfl⟩

theorem candidate_first {c : Core} {pl : Plan} (hplan : c.fab.plan = some pl) (hrefs : pl.refs ≠ []) :
    c.candidate_ = some 0 ↔ pl.refs.getD 0 0 = pl.self := by
  obtain ⟨a, r, hcons⟩ := List.exists_cons_of_ne_nil hrefs
  simp only [Core.candidate_, hplan, hcons, List.findIdx?_cons]
  by_cases ha : a = pl.self <;> simp [ha]

/-- The count is aligned by a plan where this chip is alone or candidate 0, and only there (R314). -/
theorem aligns_status {c : Core} {pl : Plan} (hplan : c.fab.plan = some pl) (hrefs : pl.refs ≠ [])
    (hno : bitAt c.gc.status 0 = false) :
    bitAt (c.aligns pl).gc.status 0 = true ↔ pl.product = 1 ∨ pl.refs.getD 0 0 = pl.self := by
  have href (i : Nat) : bitAt (c.beReference i).gc.status 0 = true := bitAt_setBit_self _ _ (by omega)
  rw [← candidate_first hplan hrefs]
  unfold Core.aligns
  split
  next h1 => simp [h1, href]
  next h1 =>
    split
    next h2 => simp [h2, href]
    next h2 => simp [h1, h2, hno]

theorem planTake_leaves {c : Core} {pl : Plan} (hlen : pl.ports.length = 8) (hrefs : pl.refs ≠ [])
    (hports : ∀ i ∈ pl.present, i < c.cfg.linkPorts) :
    let d := c.planTake pl
    d.fab.plan = some pl ∧ d.fab.route = none ∧ d.fab.spareMap = [] ∧ d.fab.held = [] ∧ d.fab.parent = none
    ∧ (∀ i, i < c.cfg.linkPorts → pl.portAt i = none → (d.link i).st = .parked)
    ∧ (∀ i x, pl.portAt i = some x → (d.link i).role = x.role ∧ (d.link i).st = if (c.link i).oos then .parked else .phyUp)
    ∧ (bitAt d.gc.status 0 = true ↔ pl.product = 1 ∨ pl.refs.getD 0 0 = pl.self)
    ∧ d.gc.count = c.gc.count ∧ d.graph = c.graph ∧ d.mem = c.mem ∧ d.queues = c.queues ∧ d.ctxs = c.ctxs ∧ d.chans = c.chans := by
  intro d
  have hpresent : ∀ i ∈ pl.present, ∃ x, pl.portAt i = some x := fun i hi => (mem_present hlen i).mp hi
  have hnodup : pl.present.Nodup := List.nodup_range.filter _
  have hclear : ∀ i, i < c.cfg.linkPorts → (c.dropHeld.clearPorts (List.range c.cfg.linkPorts)).link i = (c.link i).parkedAs :=
    fun i hi => by rw [link_clearPorts _ List.nodup_range (List.mem_range.mpr hi), link_dropHeld]; rfl
  obtain ⟨cnt, hdrop⟩ := dropHeld_changes c
  obtain ⟨p1, f1, e1, w1, l1, hcleared⟩ := TrainsFrom.foldl trainsFrom_linkClear (List.range c.cfg.linkPorts) c.dropHeld
  change c.dropHeld.clearPorts (List.range c.cfg.linkPorts) = _ at hcleared
  have hd : d = pl.present.foldl (Core.startPort pl) (((c.dropHeld.clearPorts (List.range c.cfg.linkPorts)).underPlan c.now pl).aligns pl) :=
    planTake_eq c pl
  generalize c.dropHeld.clearPorts (List.range c.cfg.linkPorts) = b at hclear hcleared hd
  have hstatus := aligns_status (c := b.underPlan c.now pl) (pl := pl) rfl hrefs
    ((bitAt_setBit_other _ _ (by omega)).trans (bitAt_setBit_self _ _ (by omega)))
  obtain ⟨ref, hops, idx, g, halign, hcount, hparent⟩ := aligns_changes (b.underPlan c.now pl) pl
  have hparent : ((b.underPlan c.now pl).aligns pl).fab.parent = none := hparent.elim id id
  rw [hparent] at halign
  have hlinks : ∀ i, i < c.cfg.linkPorts → ((b.underPlan c.now pl).aligns pl).link i = (c.link i).parkedAs := fun i hi => by
    rw [halign]; exact hclear i hi
  have hplan : ((b.underPlan c.now pl).aligns pl).fab.plan = some pl := by rw [halign]; rfl
  obtain ⟨htrains, hothers⟩ := startPorts_leaves hplan hpresent
  obtain ⟨p2, f2, e2, w2, l2, hstarted⟩ := htrains
  refine ⟨?_, ?_, ?_, ?_, ?_, fun i hi hnone => ?_, fun i x hx => ?_, ?_, ?_, ?_⟩
  · rw [hd, hstarted]; exact hplan
  · rw [hd, hstarted, halign]; rfl
  · rw [hd, hstarted, halign]; rfl
  · rw [hd, hstarted, halign]; change b.fab.held = []; rw [hcleared, hdrop]
  · rw [hd, hstarted]; exact hparent
  · have hno : i ∉ pl.present := fun hi => by
      obtain ⟨x, hx⟩ := hpresent i hi
      exact nomatch hnone.symm.trans hx
    rw [hd, hothers i hno, hlinks i hi]; rfl
  · have hi : i ∈ pl.present := (mem_present hlen i).mpr ⟨x, hx⟩
    rw [hd]
    exact startPorts_starts hplan hpresent hnodup hi hx (hlinks i (hports i hi))
  · rw [hd, hstarted]; exact hstatus
  · rw [hd, hstarted, halign]; change g.count = _; rw [hcount]; change b.gc.count = _; rw [hcleared, hdrop]; rfl
  · rw [hd, hstarted, halign]
    change b.graph = _ ∧ b.mem = _ ∧ b.queues = _ ∧ b.ctxs = _ ∧ b.chans = _
    rw [hcleared, hdrop]
    exact ⟨rfl, rfl, rfl, rfl, rfl⟩

/-! The commands -/

section Commands
variable {c : Core} {p : Packet}

theorem fabricPlanLoad_done {h : List W64} (hopen : c.otherOpen = false) (hfields : passes (step9 p (physFaults p 2 0)) = true)
    (hsize : 256 ≤ pf p 3 0 32) (hread : c.readFor 2 (physAddr p 2) 32 = .ok h) (hcheck : passes (c.planCheck h (planOf h)) = true) :
    c.fabricPlanLoad p = .ok (.done vOk (c.planTake (planOf h))) := by
  refine bind_of_ok (ensure_of _ (by rw [hopen]; rfl)) (bind_of_ok (passes_unit hfields) ?_)
  refine bind_of_ok (ensure_of _ (decide_eq_true hsize)) (bind_of_ok hread ?_)
  exact bind_of_ok (passes_unit hcheck) rfl

/-- What new tables make of a port: Pleach has ended on it (R308, R318). -/
def Link.rerouted (l : Link) : Link := { l with pleach := false, psyncAt := none, wasActive := l.st == .active && !l.looped }

theorem link_routeTake (c : Core) (r : Route) (i : Nat) : (c.routeTake r).link i = (c.link i).unheld.rerouted :=
  (link_mapLinks c.dropHeld (f := Link.rerouted) rfl i).trans (congrArg Link.rerouted (link_dropHeld c i))

theorem routeLoad_done {pl : Plan} {h : List W64} {tab gb : List Byte} (hfields : passes (step9 p (physFaults p 2 0)) = true)
    (hplan : c.fab.plan = some pl) (hidle : c.allIdle = true) (hsize : 64 ≤ pf p 3 0 32)
    (hread : c.readFor 2 (physAddr p 2) 8 = .ok h) (hmany : fld (h.getD 1 0) 0 11 ≤ 1024)
    (hroom : lines64 (64 + pl.product) + 16 * fld (h.getD 1 0) 0 11 ≤ pf p 3 0 32)
    (htab : c.readBytes (physAddr p 2 + 64) pl.product = .ok tab)
    (hgroups : c.readBytes (physAddr p 2 + lines64 (64 + pl.product)) (16 * fld (h.getD 1 0) 0 11) = .ok gb)
    (hcheck : passes (c.routeCheck pl h tab (chunks 16 (fld (h.getD 1 0) 0 11) gb)
      (routeOf h tab (chunks 16 (fld (h.getD 1 0) 0 11) gb))) = true) :
    c.routeLoad p = .ok (.done vOk (c.routeTake (routeOf h tab (chunks 16 (fld (h.getD 1 0) 0 11) gb)))) := by
  refine bind_of_ok (passes_unit hfields) ?_
  simp only [hplan]
  refine bind_of_ok (ensure_of _ hidle) (bind_of_ok (ensure_of _ (decide_eq_true hsize)) (bind_of_ok hread ?_))
  refine bind_of_ok (ensure_of _ (decide_eq_true hmany)) (bind_of_ok (ensure_of _ (decide_eq_true hroom)) ?_)
  simp only [htab, hgroups]
  exact bind_of_ok (passes_unit hcheck) rfl

theorem spareMap_done {pl : Plan} (hfields : passes (step9 p []) = true) (hplan : c.fab.plan = some pl) (hidle : c.allIdle = true)
    (hlog : pf p 2 0 16 < pl.logCount) (hphys : pf p 2 16 16 < pl.product) (hspare : pl.isSpare (pf p 2 16 16) = true)
    (hfree : ∀ m, m ∈ c.fab.spareMap → m.2 = pf p 2 16 16 → m.1 = pf p 2 0 16) :
    c.spareMap p = .ok (.done vOk { c with fab := { c.fab with
      spareMap := aset c.fab.spareMap (pf p 2 0 16) (pf p 2 16 16) } }) := by
  have hall : (decide (pf p 2 0 16 < pl.logCount) && decide (pf p 2 16 16 < pl.product) && pl.isSpare (pf p 2 16 16)
      && !(c.fab.spareMap.any fun m : Nat × Nat => m.2 == pf p 2 16 16 && m.1 != pf p 2 0 16)) = true := by
    have hnone : (c.fab.spareMap.any fun m : Nat × Nat => m.2 == pf p 2 16 16 && m.1 != pf p 2 0 16) = false := by
      rw [List.any_eq_false]
      intro m hm hbad
      obtain ⟨htwo, hone⟩ := Bool.and_eq_true_iff.mp hbad
      exact bne_iff_ne.mp hone (hfree m hm (beq_iff_eq.mp htwo))
    rw [hnone, hspare, decide_eq_true hlog, decide_eq_true hphys]
    rfl
  refine bind_of_ok (passes_unit hfields) ?_
  simp only [hplan]
  exact bind_of_ok (ensure_of _ hidle) (bind_of_ok (ensure_of _ hall) rfl)

theorem linkAcceptCmd_done (hfields : passes (step9 p []) = true) (hport : pf p 2 0 3 < c.cfg.linkPorts)
    (hheld : (c.link (pf p 2 0 3)).st = .held) :
    c.linkAcceptCmd p = .ok (.done vOk (if pb p 2 8 then c.linkTake (pf p 2 0 3) else c)) := by
  have hok : ((c.link (pf p 2 0 3)).st == .held && decide (pf p 2 0 3 < c.cfg.linkPorts)) = true := by
    rw [hheld, decide_eq_true hport]; rfl
  exact bind_of_ok (passes_unit hfields) (bind_of_ok (ensure_of _ hok) rfl)

end Commands

/-- The identity that a HELD port observes is taken, and no other port leaves its state (R306). -/
theorem linkTake_takes (c : Core) (i : Nat) : ((c.linkTake i).link i).st = .ident ∧ ((c.linkTake i).link i).taken = true
    ∧ ((c.linkTake i).link i).accepted = some ((c.link i).obsPos, (c.link i).obsPort)
    ∧ (∀ q, q ≠ i → ((c.linkTake i).link q).st = (c.link q).st) ∧ PortsFrom c (c.linkTake i) := by
  rw [Core.linkTake]
  generalize hd : c.giveRole i (c.acceptRole i ((c.link i).obsPos, (c.link i).obsPort)) = d
  have hroles : SendsFrom c d := hd ▸ sendsFrom_giveRole ..
  generalize hx : ({ d.link i with st := .ident, since := c.now, taken := true, accepted := some ((c.link i).obsPos, (c.link i).obsPort),
                                   kind := c.takenKind i ((c.link i).obsPos, (c.link i).obsPort) } : Link) = x
  have hsends := sendsFrom_retryHeld (d.setLink i x)
  have hself := hsends.standing i
  rw [Core.link_setLink] at hself
  refine ⟨(st_of_standing hself).trans (by rw [← hx]), (taken_of_standing hself).trans (by rw [← hx]),
    (accepted_of_standing hself).trans (by rw [← hx]), fun q hq => ?_, (hroles.only.trans (portsFrom_setLink ..)).trans hsends.only⟩
  rw [st_of_standing (hsends.standing q), Core.link_setLink_other _ _ _ _ hq, st_of_standing (hroles.standing q)]

/-! The obligation -/

/-- Settles O52: each command by its checks, the plan by its ports and its count, the acceptance by what it does to its port. -/
theorem fabricCommands : Obligations.FabricCommands := by
  unfold Obligations.FabricCommands
  refine fun s n p => ⟨fun h ht hopen hfields hsize hread hcheck => ?_,
    fun pl h tab gb ht hfields hplan hidle hsize hread hmany hroom htab hgroups hcheck => ?_,
    fun pl ht hfields hplan hidle hlog hphys hspare hfree => ?_, fun ht hfields hport hheld => ⟨fun hno => ?_, fun hyes => ?_⟩⟩
  · exact ⟨_, onCommand_done (run := fun _ c _ p => c.fabricPlanLoad p) ht (fabricPlanLoad_done hopen hfields hsize hread hcheck),
      planTake_leaves rfl (List.cons_ne_nil _ _) (planCheck_ports hcheck)⟩
  · refine ⟨_, onCommand_done (run := fun _ c _ p => c.routeLoad p) ht (routeLoad_done hfields hplan hidle hsize hread hmany
      hroom htab hgroups hcheck), rfl, hplan, rfl, rfl, rfl, fun i => ?_, rfl, rfl, rfl, rfl, rfl⟩
    rw [link_routeTake]
    exact ⟨rfl, rfl⟩
  · exact onCommand_done (run := fun _ c _ p => c.spareMap p) ht (spareMap_done hfields hplan hidle hlog hphys hspare hfree)
  · have hdone := linkAcceptCmd_done hfields hport hheld
    rw [hno] at hdone
    exact onCommand_done (run := fun _ c _ p => c.linkAcceptCmd p) ht hdone
  · have hdone := linkAcceptCmd_done hfields hport hheld
    rw [hyes] at hdone
    obtain ⟨hst, htaken, hacc, hothers, hports⟩ := linkTake_takes (s.core.taken n) (pf p 2 0 3)
    obtain ⟨hmem, hgraph, hqueues⟩ := hports.keeps
    exact ⟨_, onCommand_done (run := fun _ c _ p => c.linkAcceptCmd p) ht hdone, hst, htaken, hacc, hothers, hgraph, hmem, hqueues⟩

end Sys2Proof.Machine
end

section
/-! PROOFS. LOOPBACK_SET, SELFTEST, the BIST instrument, the registers of the Test and loop-back region and the wire-test timeout
(O25). -/

namespace Sys2Proof.Machine

/-! Replies and checks -/

/-- A final reply raises the completion count of its queue (R71). -/
theorem compl_finalReply {c : Core} {v : Verdict} (n tag : Nat) (irq gives : Bool) (hm : c.mute v = false) :
    ((c.finalReply n tag v irq gives).queue n).compl = ((c.queue n).compl + 1) % 2 ^ 64 := by
  rw [Core.finalReply, Core.finalReplyOf, if_neg (Bool.eq_false_iff.mp hm)]
  dsimp only
  split
  · obtain ⟨e, w, l, h⟩ := log_changes
      ((c.setCtx n { c.ctx n with cmds := sat64 (c.ctx n).cmds 1, progressed := true }).setQueue n
        (if gives then { c.queue n with compl := ((c.queue n).compl + 1) % 2 ^ 64, cur := .none }
         else { c.queue n with compl := ((c.queue n).compl + 1) % 2 ^ 64 })) 0x02 3 n n v.status.code 0 _ _
    refine (congrArg (fun d : Core => (d.queue n).compl) h).trans ?_
    refine (congrArg Queue.compl (agetD_aset_self ..)).trans ?_
    cases gives <;> rfl
  · refine (congrArg Queue.compl (agetD_aset_self ..)).trans ?_
    cases gives <;> rfl

/-- Step 9 passes only where no field is at fault. -/
theorem no_faults {p : Packet} {faults : List PFault} (h : passes (step9 p faults) = true) : faults = [] := by
  rw [step9] at h
  split at h
  next hsorted =>
    have hlen := length_sortBy (fun a b : PFault => keysLt [a.word, a.bit] [b.word, b.bit]) (reservedFaults p ++ faults)
    rw [hsorted, List.length_append, List.length_nil] at hlen
    exact List.length_eq_zero_iff.mp (by omega)
  · exact nomatch h

/-! Loop-backs (R380 to R382) -/

theorem interface_named {c : Core} {p : Packet} (h : passes (step9 p (c.loopFaults p)) = true) :
    pf p 2 0 8 = 1 ∨ pf p 2 0 8 = 2 ∨ pf p 2 0 8 = 3 ∨ pf p 2 0 8 = 4 := by
  have hnone := no_faults h
  rw [Core.loopFaults] at hnone
  split at hnone
  · exact nomatch hnone
  next most hmost =>
    by_contra hno
    simp only [not_or] at hno
    obtain ⟨h1, h2, h3, h4⟩ := hno
    simp [depthsOf, aget, Ne.symm h1, Ne.symm h2, Ne.symm h3, Ne.symm h4] at hmost

theorem testSend_changes (c : Core) (n : Nat) : ∃ r x, c.testSend n = { c with reel := r, tl := { c.tl with reelPos := x } } := by
  rw [Core.testSend]
  split
  · obtain ⟨r, h⟩ := reelIssue_changes c true (fld c.tl.reel 48 2) (c.testLine n (agetD c.tl.reelPos n 0))
      (testData n (agetD c.tl.reelPos n 0)) (.testWrite n (c.testLine n (agetD c.tl.reelPos n 0)) (agetD c.tl.reelPos n 0))
    dsimp only
    rw [h]
    exact ⟨r, _, rfl⟩
  · exact ⟨c.reel, c.tl.reelPos, rfl⟩

theorem groupFall_changes (c : Core) (s : Nat) : ∃ ports x w, c.groupFall s
    = { c with disp := { c.disp with ports := ports }, pwr := { c.pwr with waits := x }, tl := { c.tl with wireTurn := w } } := by
  rw [Core.groupFall]
  generalize hd : (c.groupPorts s).foldl _ c = d
  have hports : ∃ ports, d = { c with disp := { c.disp with ports := ports } } := by
    subst hd
    refine List.foldlRecOn (motive := fun d : Core => ∃ ports, d = { c with disp := { c.disp with ports := ports } }) _ _
      ⟨c.disp.ports, rfl⟩ fun d ⟨ports, hd⟩ e _ => ?_
    exact ⟨aset d.disp.ports e _, by subst hd; rfl⟩
  obtain ⟨ports, rfl⟩ := hports
  exact ⟨ports, _, _, rfl⟩

theorem wireNext_changes (c : Core) (s e : Nat) : ∃ w, c.wireNext s e = { c with tl := { c.tl with wireTurn := w } } := by
  rw [Core.wireNext]
  split
  · exact ⟨_, rfl⟩
  · exact ⟨c.tl.wireTurn, rfl⟩

theorem enableNext_changes (c : Core) (l : List Nat) (s e : Nat) : ∃ w x, (l.foldl (fun d e => d.requestEnable e) c).wireNext s e
    = { c with pwr := w, tl := { c.tl with wireTurn := x } } := by
  obtain ⟨w, hw⟩ := foldl_requestEnable_changes c l
  rw [hw]
  obtain ⟨x, hx⟩ := wireNext_changes { c with pwr := w } s e
  exact ⟨w, x, hx⟩

theorem PortsFrom.tl {c d : Core} (h : PortsFrom c d) : d.tl = c.tl := by
  obtain ⟨p, x, f, e, w, l, rfl⟩ := h
  rfl

/-- A loop-back begins at its depth, and memory stays. -/
theorem loopBegin_begins (c : Core) {iface : Nat} (inst depth : Nat) (h : iface = 1 ∨ iface = 2 ∨ iface = 3 ∨ iface = 4) :
    (iface ≠ 1 → (c.loopBegin iface inst depth).depth iface inst = depth)
    ∧ (iface = 1 → (c.loopBegin iface inst depth).tl.echoOn = true) ∧ (c.loopBegin iface inst depth).mem = c.mem := by
  rcases h with rfl | rfl | rfl | rfl
  · exact ⟨fun h => absurd rfl h, fun _ => rfl, rfl⟩
  · obtain ⟨r, x, h⟩ := testSend_changes { c with tl := { c.tl with
      reelDepth := aset c.tl.reelDepth inst depth, reelCnt := aset c.tl.reelCnt inst 0 } } inst
    have hbegin : c.loopBegin 2 inst depth = _ := h
    rw [hbegin]
    exact ⟨fun _ => agetD_aset_self .., nofun, rfl⟩
  · by_cases hstub : depth = 1
    · obtain ⟨ports, x, w, h⟩ := groupFall_changes { c with tl := { c.tl with
        engDepth := aset c.tl.engDepth inst depth, eng0 := aset c.tl.eng0 inst 0, eng1 := aset c.tl.eng1 inst 0 } } inst
      have hbegin : c.loopBegin 3 inst depth = _ := (if_pos hstub).trans h
      rw [hbegin]
      exact ⟨fun _ => agetD_aset_self .., nofun, rfl⟩
    · obtain ⟨w, x, h⟩ := enableNext_changes { c with tl := { c.tl with
        engDepth := aset c.tl.engDepth inst depth, eng0 := aset c.tl.eng0 inst 0, eng1 := aset c.tl.eng1 inst 0 } }
        (c.groupPorts inst) inst (64 * inst + 63)
      have hbegin : c.loopBegin 3 inst depth = _ := (if_neg hstub).trans h
      rw [hbegin]
      exact ⟨fun _ => agetD_aset_self .., nofun, rfl⟩
  · obtain ⟨-, -, hpark⟩ := linkPark_parks c inst
    have hstart := portsFrom_linkStart ({ (c.linkPark inst).setLink inst { (c.linkPark inst).link inst with
        looped := true, testLane := .reset } with tl := { (c.linkPark inst).tl with
      linkDepth := aset (c.linkPark inst).tl.linkDepth inst depth, linkTx := aset (c.linkPark inst).tl.linkTx inst 0,
      linkRx := aset (c.linkPark inst).tl.linkRx inst 0, linkBad := aset (c.linkPark inst).tl.linkBad inst 0,
      linkNext := aset (c.linkPark inst).tl.linkNext inst 0 } }) inst
    exact ⟨fun _ => (congrArg (fun x : TestPart => agetD x.linkDepth inst 0) hstart.tl).trans (agetD_aset_self ..), nofun,
      hstart.keeps.1.trans hpark.keeps.1⟩

/-- A loop-back ends, and memory stays. -/
theorem loopEnd_ends (c : Core) {iface : Nat} (inst : Nat) (h : iface = 1 ∨ iface = 2 ∨ iface = 3 ∨ iface = 4) :
    (c.loopEnd iface inst).depth iface inst = 0 ∧ (c.loopEnd iface inst).mem = c.mem := by
  rcases h with rfl | rfl | rfl | rfl
  · exact ⟨rfl, rfl⟩
  · exact ⟨agetD_aset_self .., rfl⟩
  · obtain ⟨ports, x, w, h⟩ := groupFall_changes c inst
    have hmem : (c.groupFall inst).mem = c.mem := by rw [h]
    exact ⟨agetD_aset_self .., hmem⟩
  · obtain ⟨-, -, hpark⟩ := linkPark_parks c inst
    have hstart := portsFrom_linkStart ({ (c.linkPark inst).setLink inst { (c.linkPark inst).link inst with
      looped := false, testLane := .reset } with tl := { (c.linkPark inst).tl with
        linkDepth := aset (c.linkPark inst).tl.linkDepth inst 0 } }) inst
    exact ⟨(congrArg (fun x : TestPart => agetD x.linkDepth inst 0) hstart.tl).trans (agetD_aset_self ..),
      hstart.keeps.1.trans hpark.keeps.1⟩

theorem loopbackSet_done {c : Core} {p : Packet} (hopen : c.otherOpen = false) (hfields : passes (step9 p (c.loopFaults p)) = true)
    (hgroup : pf p 2 0 8 = 3 → c.noRuns 0 = true ∧ c.groupPorts (pf p 2 16 8) ≠ [])
    (hlink : pf p 2 0 8 = 4 → pf p 2 8 8 < 4 ∨ c.planned (pf p 2 16 8) = true)
    (hdepth : if pb p 3 0 then c.depth (pf p 2 0 8) (pf p 2 16 8) = 0
      else c.depth (pf p 2 0 8) (pf p 2 16 8) ≠ 0 ∧ c.depth (pf p 2 0 8) (pf p 2 16 8) = pf p 2 8 8) :
    c.loopbackSet p = .ok (.done vOk (if pb p 3 0 then c.loopBegin (pf p 2 0 8) (pf p 2 16 8) (pf p 2 8 8)
      else c.loopEnd (pf p 2 0 8) (pf p 2 16 8))) := by
  refine bind_of_ok (ensure_of _ (by rw [hopen]; rfl)) (bind_of_ok (passes_unit hfields) ?_)
  generalize pf p 2 0 8 = iface at *
  generalize pf p 2 16 8 = inst at *
  generalize pf p 2 8 8 = depth at *
  have hfree : (!pb p 3 0 || c.depth iface inst == 0) = true := by
    cases hon : pb p 3 0 with
    | true => rw [hon, if_pos rfl] at hdepth; rw [hdepth]; rfl
    | false => rfl
  have hset : (pb p 3 0 || (c.depth iface inst != 0 && c.depth iface inst == depth)) = true := by
    cases hon : pb p 3 0 with
    | true => rfl
    | false =>
      rw [hon, if_neg Bool.false_ne_true] at hdepth
      obtain ⟨hne, heq⟩ := hdepth
      exact Bool.and_eq_true_iff.mpr ⟨bne_iff_ne.mpr hne, beq_iff_eq.mpr heq⟩
  have hruns : (iface != 3 || c.noRuns 0) = true := by
    by_cases h3 : iface = 3
    · simp [(hgroup h3).1]
    · simp [h3]
  have hplan : (iface != 4 || decide (depth < 4) || c.planned inst) = true := by
    by_cases h4 : iface = 4
    · rcases hlink h4 with h | h <;> simp [h]
    · simp [h4]
  have hsome : (iface != 3 || !(c.groupPorts inst).isEmpty) = true := by
    by_cases h3 : iface = 3
    · simp [(hgroup h3).2]
    · simp [h3]
  refine bind_of_ok (ensure_of _ hfree) (bind_of_ok (ensure_of _ hset) (bind_of_ok (ensure_of _ hruns) ?_))
  exact bind_of_ok (ensure_of _ hplan) (bind_of_ok (ensure_of _ hsome) rfl)

/-! SELFTEST (R391) -/

theorem selftest_accepted {s : Sys} {c : Core} {n : Nat} {p : Packet} (hopen : c.otherOpen = false)
    (hlocked : ¬(pf p 2 0 8 = 2 ∧ s.lcs = .locked))
    (hfields : passes (step9 p (range 2 0 ([1, 2, 0x10, 0x11, 0x20].contains (pf p 2 0 8)))) = true) (hself : c.tl.self = none)
    (hbist : pf p 2 0 8 = 1 ∨ pf p 2 0 8 = 2 → c.owns n = false ∧ c.anyLoop = false) (hkat : pf p 2 0 8 = 0x10 → c.noRuns n = true)
    (hply : pf p 2 0 8 = 0x11 → ∀ t, t < 64 → (c.table t).tab = none) :
    c.selftest s n p = .ok (.accept { c with tl := { c.tl with
      result := w64 (pf p 2 0 8 * 2 ^ 56 + 2 * 2 ^ 48),
      self := some { sel := pf p 2 0 8, tag := pkTag p, irq := pkIrq p, atTime := c.now } } }) := by
  rw [Core.selftest]
  generalize pf p 2 0 8 = sel at *
  have h1 : (!(sel == 2 && s.lcs == .locked)) = true := by
    rw [Bool.not_eq_true', Bool.eq_false_iff, Ne, Bool.and_eq_true_iff, beq_iff_eq, beq_iff_eq]
    exact hlocked
  have h2 : (!(sel == 1 || sel == 2) || (!c.owns n && !c.anyLoop)) = true := by
    by_cases hs : sel = 1 ∨ sel = 2
    · simp [hbist hs]
    · simp [not_or.mp hs]
  have h3 : (sel != 0x10 || c.noRuns n) = true := by
    by_cases hs : sel = 0x10
    · simp [hkat hs]
    · simp [hs]
  have h4 : (sel != 0x11 || (List.range 64).all fun t => (c.table t).tab.isNone) = true := by
    by_cases hs : sel = 0x11
    · have hnone := hply hs
      simp only [Bool.or_eq_true, List.all_eq_true, List.mem_range, Option.isNone_iff_eq_none]
      exact .inr hnone
    · simp [hs]
  refine bind_of_ok (ensure_of _ (by rw [hopen]; rfl)) (bind_of_ok (ensure_of _ h1) (bind_of_ok (passes_unit hfields) ?_))
  refine bind_of_ok (ensure_of _ (by rw [hself]; rfl)) (bind_of_ok (ensure_of _ h2) ?_)
  exact bind_of_ok (ensure_of _ h3) (bind_of_ok (ensure_of _ h4) rfl)

/-- The fields of SZ_TL_RESULT that name a test and its outcome (Table 16-6). -/
theorem result_fields {sel outcome rest : Nat} (houtcome : outcome < 2 ^ 8) (hrest : rest < 2 ^ 48) :
    fld (w64 (sel * 2 ^ 56 + outcome * 2 ^ 48 + rest)) 56 8 = sel % 256
    ∧ fld (w64 (sel * 2 ^ 56 + outcome * 2 ^ 48 + rest)) 48 8 = outcome := by
  rw [fld, fld, w64, BitVec.toNat_ofNat]
  omega

theorem sumBy_bits_lt (f : Nat → Bool) (n : Nat) : sumBy (fun p => bitW p (f p)) (List.range n) < 2 ^ n := by
  induction n with
  | zero => exact Nat.zero_lt_one
  | succ n ih =>
    rw [sumBy, List.range_succ, List.foldl_append]
    change sumBy (fun p => bitW p (f p)) (List.range n) + bitW n (f n) < _
    have hbit : bitW n (f n) ≤ 2 ^ n := by cases f n <;> simp [bitW, b2n]
    rw [Nat.pow_succ]
    omega

theorem untested_lt (c : Core) : c.untested < 2 ^ 8 := by
  have hports : c.cfg.linkPorts ≤ 8 := by cases c.cfg <;> decide
  exact (sumBy_bits_lt _ _).trans_le (Nat.pow_le_pow_right (by decide) hports)

theorem resultWord_fields (c : Core) (sel : Nat) (o : TestOutcome) : fld (c.resultWord sel o) 56 8 = sel % 256
    ∧ fld (c.resultWord sel o) 48 8 = b2n (TestOutcome.fails o sel) := by
  have hports := untested_lt c
  generalize hskip' : (if sel == 1 || sel == 2 then c.untested * 2 ^ 40 else 0) = skip
  generalize hrep' : (if sel = 2 then min o.repaired 0xFFFF * 2 ^ 24 else 0) = rep
  generalize hbad' : (if sel == 1 || sel == 2 then min (o.badGraph.eraseDups.length + o.badOther) 0xFFFF * 2 ^ 8 else 0) = bad
  generalize hlanes' : (if sel == 0x10 || sel == 0x11 then min o.badLanes 0xFF else 0) = lanes
  have hskip : skip ≤ 255 * 2 ^ 40 := by rw [← hskip']; split <;> omega
  have hrep : rep ≤ 0xFFFF * 2 ^ 24 := by rw [← hrep']; split <;> omega
  have hbad : bad ≤ 0xFFFF * 2 ^ 8 := by rw [← hbad']; split <;> omega
  have hlanes : lanes ≤ 0xFF := by rw [← hlanes']; split <;> omega
  rw [Core.resultWord]
  rw [hskip', hrep', hbad', hlanes', Nat.add_assoc, Nat.add_assoc, Nat.add_assoc]
  exact result_fields (by cases TestOutcome.fails o sel <;> decide) (by omega)

/-- The core with the result of a SELFTEST, which runs no more. -/
def Core.withResult (c : Core) (w : W64) : Core := { c with tl := { c.tl with result := w, self := none } }

/-- The core in which a SELFTEST has ended, before Hedge and the final reply: its result, and what a BIST leaves. -/
def Core.selfEnded (c : Core) (r : SelfRun) (o : TestOutcome) : Core :=
  if r.sel = 1 ∨ r.sel = 2 then (c.withResult (c.resultWord r.sel o)).bistLeaves o else c.withResult (c.resultWord r.sel o)

theorem selfEnded_result (c : Core) (r : SelfRun) (o : TestOutcome) :
    (c.selfEnded r o).tl.self = none ∧ (c.selfEnded r o).tl.result = c.resultWord r.sel o := by
  rw [Core.selfEnded]
  split <;> exact ⟨rfl, rfl⟩

theorem withResult_keeps (c : Core) (w : W64) :
    (c.withResult w).queues = c.queues ∧ (c.withResult w).mem = c.mem ∧ (c.withResult w).fe = c.fe := ⟨rfl, rfl, rfl⟩

theorem bistLeaves_keeps (c : Core) (o : TestOutcome) :
    (c.bistLeaves o).queues = c.queues ∧ (c.bistLeaves o).mem = c.mem ∧ (c.bistLeaves o).fe = c.fe := ⟨rfl, rfl, rfl⟩

theorem bistLeaves_withResult_graph (c : Core) (w : W64) (o : TestOutcome) :
    ((c.withResult w).bistLeaves o).graph.badBanks = c.withdrawn o.badGraph ∧ ((c.withResult w).bistLeaves o).graph.reloc = [] :=
  ⟨rfl, rfl⟩

theorem selfEnded_keeps (c : Core) (r : SelfRun) (o : TestOutcome) :
    (c.selfEnded r o).queues = c.queues ∧ (c.selfEnded r o).mem = c.mem ∧ (c.selfEnded r o).fe = c.fe := by
  obtain ⟨hqueues, hmem, hfe⟩ := withResult_keeps c (c.resultWord r.sel o)
  obtain ⟨hqueues', hmem', hfe'⟩ := bistLeaves_keeps (c.withResult (c.resultWord r.sel o)) o
  rw [Core.selfEnded]
  split
  · exact ⟨hqueues'.trans hqueues, hmem'.trans hmem, hfe'.trans hfe⟩
  · exact ⟨hqueues, hmem, hfe⟩

theorem selfEnded_graph {c : Core} {r : SelfRun} {o : TestOutcome} (hbist : r.sel = 1 ∨ r.sel = 2) :
    (c.selfEnded r o).graph.badBanks = c.withdrawn o.badGraph ∧ (c.selfEnded r o).graph.reloc = [] := by
  rw [Core.selfEnded, if_pos hbist]
  exact bistLeaves_withResult_graph ..

theorem hedgeError_changes (c : Core) : ∃ h e w l, c.hedgeError = { c with hedge := h, evt := e, watch := w, sets := l } := by
  obtain ⟨e, w, l, h⟩ := setHedge_logHedge_changes c 2 5 0 0 0
  exact ⟨_, e, w, l, h⟩

/-- Whether the end of a SELFTEST takes Hedge down (R394). -/
def takesHedgeDown (s : Sys) (r : SelfRun) (o : TestOutcome) : Bool :=
  r.sel == 0x20 && TestOutcome.fails o r.sel && (s.hg == .ready || s.hg == .booted)

theorem selftestEnd_core (s : Sys) (c : Core) (r : SelfRun) (o : TestOutcome) : (selftestEnd s c r o).2
    = (if takesHedgeDown s r o then (c.selfEnded r o).hedgeError else c.selfEnded r o).finalReply 0 r.tag vOk r.irq false := rfl

theorem selftestEnd_hg (s : Sys) (c : Core) (r : SelfRun) (o : TestOutcome) :
    (r.sel = 0x20 → TestOutcome.fails o 0x20 = true → s.hg = .booted → (selftestEnd s c r o).1.hg = .error)
    ∧ (r.sel ≠ 0x20 ∨ TestOutcome.fails o 0x20 = false → (selftestEnd s c r o).1.hg = s.hg)
    ∧ (selftestEnd s c r o).1.phase = s.phase := by
  have hhg : (selftestEnd s c r o).1.hg = if takesHedgeDown s r o then .error else s.hg := rfl
  rw [hhg]
  refine ⟨fun hsel hfails hbooted => if_pos ?_, fun hno => if_neg ?_, rfl⟩
  · rw [takesHedgeDown, hsel, hfails, hbooted]; rfl
  · intro hdown
    simp only [takesHedgeDown, Bool.and_eq_true, beq_iff_eq] at hdown
    obtain ⟨⟨hsel, hfails⟩, -⟩ := hdown
    rw [hsel] at hfails
    rcases hno with h | h
    · exact h hsel
    · exact Bool.false_ne_true (h.symm.trans hfails)

theorem selftestEnd_leaves (s : Sys) {c : Core} (r : SelfRun) (o : TestOutcome) (hfe : c.fe.stopped = false) :
    let d := (selftestEnd s c r o).2
    d.tl.self = none ∧ d.tl.result = c.resultWord r.sel o ∧ (d.queue 0).compl = ((c.queue 0).compl + 1) % 2 ^ 64
    ∧ (r.sel = 1 ∨ r.sel = 2 → d.graph.badBanks = c.withdrawn o.badGraph ∧ d.graph.reloc = []) ∧ d.mem = c.mem
    ∧ ∀ m, m ≠ 0 → d.queue m = c.queue m := by
  obtain ⟨hself, hresult⟩ := selfEnded_result c r o
  obtain ⟨hqueues, hmem, hstop⟩ := selfEnded_keeps c r o
  rw [selftestEnd_core]
  generalize hd : (if takesHedgeDown s r o then (c.selfEnded r o).hedgeError else c.selfEnded r o) = d
  have hchanges : ∃ h e w l, d = { c.selfEnded r o with hedge := h, evt := e, watch := w, sets := l } := by
    subst hd
    split
    · exact hedgeError_changes _
    · exact ⟨_, _, _, _, rfl⟩
  obtain ⟨h, e, w, l, rfl⟩ := hchanges
  have hmute : ({ c.selfEnded r o with hedge := h, evt := e, watch := w, sets := l } : Core).mute vOk = false := by
    change ((c.selfEnded r o).fe.stopped && _) = false
    rw [hstop, hfe]; rfl
  have hcompl := compl_finalReply 0 r.tag r.irq false hmute
  obtain ⟨q, x, e', w', l', hreply⟩ := finalReply_changes _ 0 r.tag vOk r.irq false hmute
  rw [hreply] at hcompl ⊢
  refine ⟨hself, hresult, hcompl.trans ?_, selfEnded_graph, hmem, fun m hm => ?_⟩
  · exact congrArg (fun q : AMap Queue => ((agetD q 0 .reset).compl + 1) % 2 ^ 64) hqueues
  · exact (agetD_aset_other _ _ _ _ _ hm).trans (congrArg (fun q : AMap Queue => agetD q m .reset) hqueues)

/-! The BIST instrument (Table 15-3) -/

theorem testNet_reaches {s : Sys} (hboot : s.phase = .boot)
    (hlcs : s.lcs = .manufacture ∨ s.lcs = .locked ∨ (s.lcs = .development ∧ s.unlockNet = true)) : s.testNet ≠ .bypass := by
  rw [Sys.testNet, hboot]
  rcases hlcs with h | h | ⟨h, hnet⟩
  · rw [h]; nofun
  · rw [h]; nofun
  · rw [h, hnet]; nofun

/-! The registers (R395) -/

theorem testWrite_reel {c : Core} {v : W64} (h0 : agetD c.tl.reelDepth 0 0 = 0) (h1 : agetD c.tl.reelDepth 1 0 = 0)
    (hring : ringOk (v &&& fields [(58, 54), (49, 48), (47, 12)]) 30 = true) :
    c.testWrite .tlReel v = some { c with tl := { c.tl with reel := v &&& fields [(58, 54), (49, 48), (47, 12)] } } :=
  if_pos (by simp [h0, h1, hring])

theorem testWrite_stub {c : Core} {v : W64} (hidle : ∀ g, g < 16 → agetD c.tl.engDepth g 0 = 0) (hv : fld v 0 16 ≠ 0) :
    c.testWrite .stubCtrl v = some { c with tl := { c.tl with stub := v &&& fields [(15, 0)] } } := by
  have hall : ((List.range 16).all fun s => agetD c.tl.engDepth s 0 == 0) = true :=
    List.all_eq_true.mpr fun g hg => beq_iff_eq.mpr (hidle g (List.mem_range.mp hg))
  exact if_pos (by rw [hall, bne_iff_ne.mpr hv]; rfl)

theorem testWrite_link {c : Core} {p : Nat} {v : W64} (hp : p < c.cfg.linkPorts) (hidle : agetD c.tl.linkDepth p 0 = 0)
    (hrate : fld v 54 5 ∈ [1, 2, 4, 8, 16]) (hmode : fld v 52 2 ≠ 3) :
    c.testWrite (.tlLink p) v = some { c with tl := { c.tl with link0 := aset c.tl.link0 p (v &&& fields [(58, 52)]) } } := by
  refine (if_neg (Nat.not_le.mpr hp)).trans (if_pos ?_)
  rw [hidle, List.contains_iff_mem.mpr hrate, bne_iff_ne.mpr hmode]
  rfl

/-! The obligation -/

/-- Settles O25: the loop-backs by their interface, a test by its acceptance and its end, each register by its write, and the wire test
by the record that it gives up. -/
theorem testsAndLoopbacks : Obligations.TestsAndLoopbacks := by
  unfold Obligations.TestsAndLoopbacks
  refine ⟨⟨fun s n p ht => ?_, fun s n p ht => ?_, fun s o r hrun hfe hself => ?_, fun s o hboot hlcs => ?_⟩,
    fun s v acc => ⟨fun hacc h0 h1 hring => ?_, fun hacc hidle hv => ?_, fun p hp hacc hidle hrate hmode => ?_⟩,
    fun s e r hrun hrec hlate => ?_⟩
  · intro c iface depth inst hopen hfields hgroup hlink
    refine ⟨fun hon hcur => ?_, fun hoff hcur hdepth => ?_⟩
    · have hdone := loopbackSet_done hopen hfields hgroup hlink (by rw [hon]; exact hcur)
      rw [hon] at hdone
      exact ⟨_, onCommand_done (run := fun _ c _ p => c.loopbackSet p) ht hdone, rfl, loopBegin_begins c inst depth (interface_named hfields)⟩
    · have hdone := loopbackSet_done hopen hfields hgroup hlink (by rw [hoff]; exact ⟨hcur, hdepth⟩)
      rw [hoff] at hdone
      exact ⟨_, onCommand_done (run := fun _ c _ p => c.loopbackSet p) ht hdone, rfl, loopEnd_ends c inst (interface_named hfields)⟩
  · intro c sel hopen hlocked hfields hself hbist hkat hply
    refine ⟨_, onCommand_accept (run := fun sys c n p => c.selftest sys n p) ht
      (selftest_accepted hopen hlocked hfields hself hbist hkat hply), ?_⟩
    have hsel : sel % 256 = sel := Nat.mod_eq_of_lt (Nat.mod_lt _ (by decide))
    have hword := result_fields (sel := sel) (outcome := 2) (rest := 0) (by decide) (by decide)
    rw [hsel, Nat.add_zero] at hword
    exact hword
  · have hexec : exec (.selftestEnd o) s
        = .next { s with sys := (selftestEnd s.sys s.core r o).1, core := (selftestEnd s.sys s.core r o).2 } := by
      change execSelftestEnd o s = _
      rw [execSelftestEnd, if_pos (beq_iff_eq.mp hrun), hself]
    obtain ⟨hnone, hresult, hcompl, hgraph, hmem, hqueues⟩ := selftestEnd_leaves s.sys r o hfe
    obtain ⟨herror, hkeep, hphase⟩ := selftestEnd_hg s.sys s.core r o
    obtain ⟨hsel, hout⟩ := resultWord_fields s.core r.sel o
    exact ⟨_, hexec, hnone, hresult ▸ hsel, hresult ▸ hout, hcompl, hgraph, herror, hkeep, hphase, hmem, hqueues⟩
  · exact ⟨_, if_pos ⟨hboot, testNet_reaches hboot hlcs⟩, rfl, rfl, hboot, rfl, rfl, rfl⟩
  · refine (onWrite_served v (fun _ c => c.testWrite .tlReel v) hacc).trans ?_
    rw [testWrite_reel h0 h1 hring]; rfl
  · refine (onWrite_served v (fun _ c => c.testWrite .stubCtrl v) hacc).trans ?_
    rw [testWrite_stub hidle hv]; rfl
  · have hports : s.core.cfg.linkPorts ≤ 8 := by cases s.core.cfg <;> decide
    refine (if_pos (decide_eq_true (hp.trans_le hports))).trans ((onWrite_served v (fun _ c => c.testWrite (.tlLink p) v) hacc).trans ?_)
    rw [testWrite_link hp hidle hrate hmode]; rfl
  · refine ⟨_, by unfold exec execEngineWireTimeout; exact onRun_running hrun _, ?_⟩
    obtain ⟨w, hw⟩ := wireNext_changes ((s.core.setPort e { s.core.port e with out := none }).wireError (e / 64)) (e / 64) e
    simp only [State.withCore, hrec, hlate, if_true, hw]
    refine ⟨congrArg EngPort.out (agetD_aset_self ..), ?_, fun m hm => agetD_aset_other _ _ _ _ _ hm, rfl, rfl⟩
    exact (congrArg (fun x => fld x 0 32) (agetD_aset_self ..)).trans (fld_satAdd_self _ _ (by omega))

end Sys2Proof.Machine
end

section
/-! PROOFS. CLIP_AT, CLIP_ABORT and the registers of the clip (O56). -/

namespace Sys2Proof.Machine

theorem mem_maskCtxs {m : W64} {n : Nat} : n ∈ maskCtxs m ↔ n < 64 ∧ bitAt m n = true := by
  rw [maskCtxs, List.mem_filter, List.mem_range]

/-- The clip that a CLIP_AT arms, on the region of its blob (R343). -/
def Core.armedClip (c : Core) (p : Packet) (g : Region) : ClipRun :=
  let lim := if pkExp p then pf p 5 0 32 else 0
  { phase := .armed, count := (pw p 2).toNat, mask := pw p 3, blobAt := g.base, blobLen := g.size,
    limit := if lim = 0 then fld c.clip.ctrl 32 32 else lim, tag := pkTag p, irq := pkIrq p, round := 0, roundAt := 0, owed := false,
    heard := [], sentUp := false, result := none, targets := [], cutCtxs := [], localCut := 0, ports := [], savedPorts := [], iv := [],
    engOff := 0, nSec := 0, text := [], areas := [], tx := 0, rx := 0, reason := 0, saveEnd := 0, sliceOk := false, contAt := 0 }

section Commands
variable {c : Core} {p : Packet}

theorem clipAt_accepted {g : Region} (haligned : bitAt c.gc.status 0 = true) (hfree : c.clipPending = false)
    (hfields : passes (step9 p []) = true) (hahead : c.gc.count + 16384 ≤ (pw p 2).toNat)
    (hregion : c.handleParam 0 p 4 0 true (c.blobBound (pw p 3)) = .ok g)
    (hopen : ∀ n, n < 64 → bitAt (pw p 3) n = true → (c.ctx n).st ≠ .closed) :
    c.clipAt p = .ok (.accept (c.clipBegin.setClip (c.armedClip p g))) := by
  have hstep9 : step9 p (if (pw p 2).toNat < c.gc.count + 16384 then [⟨2, 0, .badParam, 3⟩] else []) = .ok () := by
    rw [if_neg (by omega)]
    exact passes_unit hfields
  have hall : ((maskCtxs (pw p 3)).all fun n => (c.ctx n).st != .closed) = true :=
    List.all_eq_true.mpr fun n hn => by
      obtain ⟨hlt, hbit⟩ := mem_maskCtxs.mp hn
      exact bne_iff_ne.mpr (hopen n hlt hbit)
  refine bind_of_ok (ensure_of _ haligned) (bind_of_ok (ensure_of _ (by rw [hfree]; rfl)) (bind_of_ok hstep9 ?_))
  exact bind_of_ok hregion (bind_of_ok (ensure_of _ hall) rfl)

theorem clipAbort_done {q : ClipRun} (hrun : c.clip.run = some q) (harmed : q.phase = .armed) (hbefore : c.gc.count < q.count)
    (hfields : passes (step9 p []) = true) :
    c.clipAbort p = .ok (.done vOk (Core.finalReply { c with clip := { c.clip with status := setFld c.clip.status 12 4 0, run := none } } 0
      q.tag { status := .ok, detail := 1 } q.irq false)) := by
  have hearly : (q.phase == .armed && decide (c.gc.count < q.count)) = true := by
    rw [harmed, decide_eq_true hbefore]; rfl
  rw [Core.clipAbort]
  simp only [hrun]
  exact bind_of_ok (ensure_of _ hearly) (bind_of_ok (passes_unit hfields) rfl)

end Commands

theorem clipCtrlWrite_taken {c : Core} {v : W64} (hfree : c.clipPending = false) (hgap : 16 ≤ fld v 16 16) (hlines : fld v 0 16 ≠ 0)
    (hlimit : fld v 32 32 ≠ 0) : c.clipCtrlWrite v = some { c with clip := { c.clip with ctrl := v } } := by
  refine if_neg ?_
  rw [hfree, decide_eq_false (by omega : ¬fld v 16 16 < 16), beq_false_of_ne hlines, beq_false_of_ne hlimit]
  exact Bool.false_ne_true

theorem cutWrite_taken {c : Core} {n : Nat} (k : Nat) (v : W64) (hidle : c.noRuns n = true) : c.cutWrite n k v
    = some (c.setCtx n { c.ctx n with cuts := aset (c.ctx n).cuts k (v &&& fields [(63, 63), (41, 32), (19, 0)]) }) :=
  if_neg (by rw [hidle]; exact Bool.false_ne_true)

/-- Settles O56: each command by its checks, each register by its write. -/
theorem clipCommands : Obligations.ClipCommands := by
  unfold Obligations.ClipCommands
  refine ⟨fun s p => ⟨fun g ht haligned hfree hfields hahead hregion hopen => ?_, fun q ht hfields hrun harmed hbefore => ?_⟩,
    fun s v acc => ⟨fun hacc hfree hgap hlines hlimit => ?_, fun n k hn hk hacc hidle => ?_⟩⟩
  · exact onCommand_accept (run := fun _ c _ p => c.clipAt p) ht (clipAt_accepted haligned hfree hfields hahead hregion hopen)
  · exact onCommand_done (run := fun _ c _ p => c.clipAbort p) ht (clipAbort_done hrun harmed hbefore hfields)
  · refine (onWrite_served v (fun _ c => c.clipCtrlWrite v) hacc).trans ?_
    rw [clipCtrlWrite_taken hfree hgap hlines hlimit]; rfl
  · have hwf : (ClipReg.cut n k).wf = true := by
      rw [ClipReg.wf, decide_eq_true hn, decide_eq_true hk]; rfl
    refine (if_pos hwf).trans ((onWrite_served v (fun _ c => c.cutWrite n k v) hacc).trans ?_)
    rw [cutWrite_taken k v hidle]; rfl

end Sys2Proof.Machine
end

section
/-! PROOFS. A clip up to its cut (O57): how it ends where it fails, what a cut leaves as it was, and a round on a slice of one chip. -/

namespace Sys2Proof.Machine

/-! The end of a clip (R350, R352, R358) -/

/-- A core that differs in what a release changes: the graph, the contexts, the channels and the sets of its flags. -/
def ReleasesFrom (c d : Core) : Prop := ∃ g x k l, d = { c with graph := g, ctxs := x, chans := k, sets := l }

theorem ReleasesFrom.refl (c : Core) : ReleasesFrom c c := ⟨c.graph, c.ctxs, c.chans, c.sets, rfl⟩

theorem ReleasesFrom.trans {c d e : Core} (h : ReleasesFrom c d) (k : ReleasesFrom d e) : ReleasesFrom c e := by
  obtain ⟨g, x, k, l, rfl⟩ := h
  obtain ⟨g, x, k, l, rfl⟩ := k
  exact ⟨g, x, k, l, rfl⟩

theorem ReleasesFrom.foldl {α : Type} {step : Core → α → Core} (hstep : ∀ d x, ReleasesFrom d (step d x)) (l : List α) (c : Core) :
    ReleasesFrom c (l.foldl step c) :=
  List.foldlRecOn l step (.refl c) fun d h x _ => h.trans (hstep d x)

theorem releasesFrom_resumeCtx (localCut shift : Nat) (broken : Bool) (c : Core) (n : Nat) :
    ReleasesFrom c (c.resumeCtx localCut shift broken n) := by
  have hruns : ReleasesFrom c ((c.runsOf n).foldl (fun d r => d.resumeRun localCut shift broken r) c) :=
    .foldl (fun d _ => ⟨_, d.ctxs, d.chans, d.sets, rfl⟩) _ _
  rw [Core.resumeCtx]
  cases broken with
  | true => exact hruns.trans ⟨_, _, _, _, rfl⟩
  | false => exact hruns.trans ⟨_, _, _, _, rfl⟩

/-- SZ_CLIP_STATUS once a clip has ended with a reason (Table 14-8). -/
def endedStatus (w : W64) (reason : Nat) : W64 :=
  if reason = 0 then setBit (setFld w 12 4 0) 1 true else setFld (setBit (setFld w 12 4 0) 2 true) 24 8 reason

theorem endedStatus_phase (w : W64) (reason : Nat) : fld (endedStatus w reason) 12 4 = 0 := by
  rw [endedStatus]
  split
  · rw [fld_setBit_apart _ _ (by omega), fld_setFld_self _ _ (by omega)]; rfl
  · rw [fld_setFld_apart _ _ (by omega), fld_setBit_apart _ _ (by omega), fld_setFld_self _ _ (by omega)]; rfl

theorem endedStatus_saved (w : W64) : bitAt (endedStatus w 0) 1 = true := bitAt_setBit_self _ _ (by omega)

theorem endedStatus_failed (w : W64) {reason : Nat} (h : reason ≠ 0) (hlt : reason < 256) :
    bitAt (endedStatus w reason) 2 = true ∧ fld (endedStatus w reason) 24 8 = reason := by
  rw [endedStatus, if_neg h, bitAt_setFld_outside _ _ (by omega), fld_setFld_self _ _ (by omega)]
  exact ⟨bitAt_setBit_self _ _ (by omega), Nat.mod_eq_of_lt hlt⟩

theorem clipEnd_changes (c : Core) (reason count value : Nat) : ∃ e w l, c.clipEnd reason count value false
    = { c with clip := { c.clip with status := endedStatus c.clip.status reason }, evt := e, watch := w, sets := l } := by
  obtain ⟨e, w, l, h⟩ := log_changes (({ c with clip := { c.clip with status := endedStatus c.clip.status reason } } : Core).mark 0x240040
      (if reason = 0 then 1 else 2)) 0x0A reason 0 0 (if reason = 0 then 0 else 0x40) (Core.clipSeq { c with clip := { c.clip with
        status := endedStatus c.clip.status reason } }) (w64 count) (w64 value)
  exact ⟨e, w, l, h⟩

theorem not_mute_unless_stopped {c : Core} {v : Verdict} (h : c.fe.stopped = false) : c.mute v = false := by
  rw [Core.mute, h]; rfl

/-- A clip that is released is over, with its status and its final reply, and memory stays. -/
theorem clipRelease_ends (c : Core) (q : ClipRun) (value : Nat) (broken : Bool) (reason : Nat) :
    let d := c.clipRelease q value broken reason
    d.clip.run = none ∧ d.clip.status = endedStatus c.clip.status reason ∧ d.mem = c.mem
    ∧ (c.fe.stopped = false → (d.queue 0).compl = ((c.queue 0).compl + 1) % 2 ^ 64) := by
  rw [Core.clipRelease]
  generalize (if q.localCut = 0 then value else q.localCut) = cut
  generalize (if reason = 0 then vOk else vFaulted 2 reason) = v
  have hctxs : ReleasesFrom { c with clip := { c.clip with run := none } } ((maskCtxs q.mask).foldl
      (fun d n => d.resumeCtx cut (diff64 value q.count) broken n) { c with clip := { c.clip with run := none } }) :=
    .foldl (fun d n => releasesFrom_resumeCtx _ _ _ d n) _ _
  dsimp only
  generalize (maskCtxs q.mask).foldl _ _ = d at hctxs ⊢
  obtain ⟨e, w, l, hend⟩ := clipEnd_changes (d.finalReply 0 q.tag v q.irq false) reason q.count value
  rw [hend]
  cases hm : d.mute v with
  | true =>
    rw [finalReply_mute _ _ _ _ hm]
    obtain ⟨g, x, k, s, rfl⟩ := hctxs
    refine ⟨rfl, rfl, rfl, fun hfe => ?_⟩
    exact nomatch hm.symm.trans (not_mute_unless_stopped hfe)
  | false =>
    have hcompl := compl_finalReply 0 q.tag q.irq false hm
    obtain ⟨y, z, e', w', l', hreply⟩ := finalReply_changes d 0 q.tag v q.irq false hm
    rw [hreply] at hcompl ⊢
    obtain ⟨g, x, k, s, rfl⟩ := hctxs
    exact ⟨rfl, rfl, rfl, fun _ => hcompl⟩

/-- What a clip leaves that fails with a reason (R352). -/
theorem clipFail_fails (c : Core) (q : ClipRun) {reason : Nat} (h : reason ≠ 0) (hlt : reason < 256) :
    let d := c.clipFail q reason
    d.clip.run = none ∧ bitAt d.clip.status 2 = true ∧ fld d.clip.status 24 8 = reason ∧ fld d.clip.status 12 4 = 0
    ∧ (c.fe.stopped = false → (d.queue 0).compl = ((c.queue 0).compl + 1) % 2 ^ 64) ∧ d.mem = c.mem := by
  obtain ⟨hrun, hstatus, hmem, hcompl⟩ := clipRelease_ends c q c.gc.count true reason
  obtain ⟨hflag, hreason⟩ := endedStatus_failed c.clip.status h hlt
  rw [Core.clipFail]
  dsimp only
  rw [hstatus]
  exact ⟨hrun, hflag, hreason, endedStatus_phase .., hcompl, hmem⟩

/-! The cut (R346) -/

theorem find?_map_keeps {α : Type} {p q : α → Bool} {a : α} (h : ∀ x, q x = true → p x = p a) {l : List α} {x : α}
    (hx : l.find? p = some x) : (l.map fun y => if q y then a else y).find? p = some (if q x then a else x) := by
  induction l with
  | nil => exact nomatch hx
  | cons y r ih =>
    have hp : p (if q y then a else y) = p y := by
      split
      next hq => exact (h y hq).symm
      next => rfl
    rw [List.map_cons]
    cases hy : p y with
    | true =>
      rw [List.find?_cons_of_pos hy] at hx
      rw [List.find?_cons_of_pos (hp.trans hy), Option.some.inj hx]
    | false =>
      rw [List.find?_cons_of_neg (Bool.eq_false_iff.mp hy)] at hx
      rw [List.find?_cons_of_neg (Bool.eq_false_iff.mp (hp.trans hy)), ih hx]

/-- A core in which the clip and the count are as they were, and each run that was cut still is. -/
structure CutsFrom (c d : Core) : Prop where
  clip : d.clip = c.clip
  count : d.gc = c.gc
  cut : ∀ {ctx tag x}, c.findRun ctx tag = some x → x.cut = true → ∃ y, d.findRun ctx tag = some y ∧ y.cut = true

theorem CutsFrom.refl (c : Core) : CutsFrom c c := ⟨rfl, rfl, fun h k => ⟨_, h, k⟩⟩

theorem CutsFrom.trans {c d e : Core} (h : CutsFrom c d) (k : CutsFrom d e) : CutsFrom c e :=
  ⟨k.clip.trans h.clip, k.count.trans h.count, fun hx hcut =>
    have ⟨_, hy, hycut⟩ := h.cut hx hcut
    k.cut hy hycut⟩

theorem CutsFrom.foldl {α : Type} {step : Core → α → Core} (hstep : ∀ d x, CutsFrom d (step d x)) (l : List α) (c : Core) :
    CutsFrom c (l.foldl step c) :=
  List.foldlRecOn l step (.refl c) fun d h x _ => h.trans (hstep d x)

theorem cutsFrom_setRun (c : Core) {r : Run} (h : r.cut = true) : CutsFrom c (c.setRun r) := by
  refine ⟨rfl, rfl, fun {ctx tag x} hx hcut => ⟨_, find?_map_keeps (fun y hy => ?_) hx, ?_⟩⟩
  · obtain ⟨hctx, htag⟩ := Bool.and_eq_true_iff.mp hy
    rw [beq_iff_eq.mp hctx, beq_iff_eq.mp htag]
  · split
    · exact h
    · exact hcut

theorem cutsFrom_readConsumed (c : Core) (n : Nat) (r : ChanRx) : CutsFrom c (c.readConsumed n r) := by
  rw [Core.readConsumed]
  split
  · exact ⟨rfl, rfl, fun h k => ⟨_, h, k⟩⟩
  · obtain ⟨x, hread⟩ := reelIssue_changes (c.setChan n { c.chan n with rx := some { r with nextPoll := c.now + c.pollTime, due := false } })
      false (tierOf r.consAt) r.consAt [] (.consumed n)
    rw [Core.reelRead, hread]
    exact ⟨rfl, rfl, fun h k => ⟨_, h, k⟩⟩

/-- The cut of a context leaves the clip, the count and the runs that were cut. -/
theorem cutsFrom_cutCtx (c : Core) (n : Nat) : CutsFrom c (c.cutCtx n) := by
  rw [Core.cutCtx]
  refine CutsFrom.trans (.foldl (fun d r => ?_) (c.runsOf n) c) (.foldl (fun d k => ?_) _ _)
  · split
    · exact cutsFrom_setRun d rfl
    · exact .refl d
  · split
    next r hr =>
      have hread := cutsFrom_readConsumed d k { r with polling := false }
      dsimp only
      split
      · exact hread.trans ⟨rfl, rfl, fun h k => ⟨_, h, k⟩⟩
      · exact hread
    · exact .refl d

/-- The masked contexts that come to their cut. -/
def Core.cutsNow (c : Core) (q : ClipRun) : List Nat := (maskCtxs q.mask).filter fun n => !q.cutCtxs.contains n && c.ctxCut n

theorem mem_cutCtxs_cutsNow (c : Core) (q : ClipRun) {n : Nat} (hn : n < 64) (hbit : bitAt q.mask n = true) :
    (q.cutCtxs ++ c.cutsNow q).contains n = true ↔ q.cutCtxs.contains n = true ∨ c.ctxCut n = true := by
  simp only [List.contains_iff_mem, List.mem_append, Core.cutsNow, List.mem_filter, mem_maskCtxs, hn, hbit, true_and,
    Bool.and_eq_true, Bool.not_eq_true', Bool.eq_false_iff, Ne]
  tauto

section Scan
variable {c : Core} {q : ClipRun} (hrun : c.clip.run = some q) (hphase : q.phase = .cutting)
include hrun hphase

/-- A context that has not come to its cut keeps the clip in CUTTING. -/
theorem cutScan_waits {n : Nat} (hn : n < 64) (hbit : bitAt q.mask n = true) (hnot : q.cutCtxs.contains n = false)
    (huncut : c.ctxCut n = false) :
    ∃ d, CutsFrom c d ∧ c.cutScan = d.setClip { q with cutCtxs := q.cutCtxs ++ c.cutsNow q } := by
  have hopen : ¬((maskCtxs q.mask).all fun n => (q.cutCtxs ++ c.cutsNow q).contains n) = true := by
    intro hall
    have hin := List.all_eq_true.mp hall n (mem_maskCtxs.mpr ⟨hn, hbit⟩)
    rcases (mem_cutCtxs_cutsNow c q hn hbit).mp hin with h | h
    · exact Bool.false_ne_true (hnot.symm.trans h)
    · exact Bool.false_ne_true (huncut.symm.trans h)
  refine ⟨(c.cutsNow q).foldl Core.cutCtx c, .foldl cutsFrom_cutCtx _ _, ?_⟩
  rw [Core.cutScan]
  simp only [hrun, hphase, ne_eq, not_true_eq_false, if_false]
  exact if_neg hopen

/-- With the last masked context cut the drain begins, at this chip's local cut (R347). -/
theorem cutScan_drains (hall : ∀ n, n < 64 → bitAt q.mask n = true → q.cutCtxs.contains n = true ∨ c.ctxCut n = true) :
    ∃ d, CutsFrom c d ∧ c.cutScan = d.setClip { q with
      cutCtxs := q.cutCtxs ++ c.cutsNow q, phase := .drain, localCut := d.gc.count, savedPorts := d.savedPorts q.mask,
      ports := (d.savedPorts q.mask).map fun e => (e, 0, 0), owed := true } := by
  have hcut : ((maskCtxs q.mask).all fun n => (q.cutCtxs ++ c.cutsNow q).contains n) = true :=
    List.all_eq_true.mpr fun n hin => by
      obtain ⟨hn, hbit⟩ := mem_maskCtxs.mp hin
      exact (mem_cutCtxs_cutsNow c q hn hbit).mpr (hall n hn hbit)
  refine ⟨(c.cutsNow q).foldl Core.cutCtx c, .foldl cutsFrom_cutCtx _ _, ?_⟩
  rw [Core.cutScan]
  simp only [hrun, hphase, ne_eq, not_true_eq_false, if_false]
  exact if_pos hcut

end Scan

theorem setClip_phase (c : Core) (q : ClipRun) : fld (c.setClip q).clip.status 12 4 = q.phase.code := by
  refine (fld_setFld_self _ _ (by omega)).trans ?_
  cases q.phase <;> rfl

/-! The completion that round A catches (R353) -/

theorem cutBack_keeps (c : Core) (targets : List (Nat × Nat)) (r : Run) :
    (c.cutBack targets r).clip = c.clip ∧ (c.cutBack targets r).gc = c.gc := by
  rw [Core.cutBack]
  split
  · exact ⟨rfl, rfl⟩
  · split
    · exact ⟨rfl, rfl⟩
    · split
      · exact ⟨rfl, rfl⟩
      · exact ⟨rfl, rfl⟩

theorem foldl_cutBack_keeps (c : Core) (targets : List (Nat × Nat)) (l : List Run) :
    (l.foldl (fun d r => d.cutBack targets r) c).clip = c.clip ∧ (l.foldl (fun d r => d.cutBack targets r) c).gc = c.gc :=
  List.foldlRecOn (motive := fun d : Core => d.clip = c.clip ∧ d.gc = c.gc) l _ ⟨rfl, rfl⟩ fun d ⟨hclip, hgc⟩ r _ => by
    obtain ⟨hclip', hgc'⟩ := cutBack_keeps d targets r
    exact ⟨hclip'.trans hclip, hgc'.trans hgc⟩

/-! Rounds (R343, R348) -/

theorem sendFrame_keeps (c : Core) (ctx l : Nat) (pl : Payload) :
    (c.sendFrame ctx l pl).clip.run = c.clip.run ∧ (c.sendFrame ctx l pl).mem = c.mem := by
  rw [Core.sendFrame]
  dsimp only
  split <;> split <;> exact ⟨rfl, rfl⟩

theorem clipKids_setClip (c : Core) (q : ClipRun) : (c.setClip q).clipKids = c.clipKids := rfl

theorem clipIdx_setClip (c : Core) (q : ClipRun) : (c.setClip q).clipIdx = c.clipIdx := rfl

/-- The result of a round stands, however many children it goes down to. -/
theorem clipDown_takes (c : Core) (q : ClipRun) (m : ClipMsg) : (c.clipDown q m).clip.run
      = some { q with result := some { m with up := false, fromIdx := c.clipIdx }, sentUp := true }
    ∧ (c.clipDown q m).mem = c.mem := by
  rw [Core.clipDown]
  generalize ({ m with up := false, fromIdx := c.clipIdx } : ClipMsg) = r
  refine List.foldlRecOn (motive := fun d : Core => d.clip.run = some { q with result := some r, sentUp := true } ∧ d.mem = c.mem) _ _
    ⟨rfl, rfl⟩ fun d ⟨hrun, hmem⟩ i _ => ?_
  obtain ⟨hrun', hmem'⟩ := sendFrame_keeps d 0 (d.clipPositions.getD i 0) (.clip r)
  exact ⟨hrun'.trans hrun, hmem'.trans hmem⟩

/-- A chip that is alone in its slice has the result with its own contribution. -/
theorem roundStep_alone {c : Core} {q : ClipRun} {m : ClipMsg} (hrun : c.clip.run = some q) (hroot : c.clipIdx = 0)
    (hkids : c.clipKids = []) (hopen : (q.sentUp || q.result.isSome) = false) (hheard : q.heard = [m]) (hround : m.round = q.round)
    (hfrom : m.fromIdx = 0) : c.roundStep = c.clipDown q m := by
  have hmine : q.heard.filter (fun x => x.round == q.round) = [m] := by simp [hheard, hround]
  have hall : ([0].all fun i => [m].any fun x => x.fromIdx == i) = true := by simp [hfrom]
  rw [Core.roundStep]
  simp only [hrun, hopen, Bool.false_eq_true, if_false, hmine, hroot, hkids, hall, if_true]
  rfl

theorem beginRound_alone {c : Core} {q : ClipRun} {m : ClipMsg} (hroot : c.clipIdx = 0) (hkids : c.clipKids = []) (hheard : q.heard = [])
    (hround : m.round = q.round + 1) (hfrom : m.fromIdx = 0) :
    (c.beginRound q m).clip.run = some { q with
      round := q.round + 1, roundAt := c.now, owed := false, sentUp := true, result := some { m with up := false }, heard := [m] } := by
  have hself : ({ m with up := false, fromIdx := 0 } : ClipMsg) = { m with up := false } := by rw [← hfrom]
  have halone := roundStep_alone (c := c.setClip { q with
    round := q.round + 1, roundAt := c.now, owed := false, sentUp := false, result := none,
    heard := m :: q.heard.filter fun x => decide (q.round < x.round) }) (m := m) rfl ((clipIdx_setClip ..).trans hroot)
    ((clipKids_setClip ..).trans hkids) rfl (by rw [hheard]; rfl) hround hfrom
  rw [Core.beginRound, halone, (clipDown_takes ..).1, clipIdx_setClip, hroot, hself, hheard]
  rfl

theorem clipRounds_agree {c : Core} {q : ClipRun} (hrun : c.clip.run = some q) (hphase : q.phase = .agree) (howed : q.owed = true) :
    c.clipRounds = c.beginRound q { c.clipBlank q with
      ords := (List.range 64).map fun n => if bitAt q.mask n then c.passedOf n else 0 } := by
  rw [Core.clipRounds]
  simp only [hrun, howed, hphase, Bool.not_true, Bool.false_eq_true, if_false, if_true]

/-! The obligation -/

section Clip
variable {s : State} {q : ClipRun} (hrunning : s.running = true) (hrun : s.core.clip.run = some q)
include hrunning hrun

theorem exec_clipCount_begins (hphase : q.phase = .armed) (hcount : q.count ≤ s.core.gc.count) (hadmits : s.core.clipAdmits q = true) :
    exec .clipCount s = .next (s.withCore (((s.core.graph.runs.filter fun r =>
      bitAt q.mask r.ctx && !r.started && decide (q.count < r.start)).foldl (fun d r => d.setRun { r with cut := true }) s.core).setClip
        { q with phase := .agree, owed := true })) := by
  refine (onRun_running hrunning fun _ c => c.clipCountDue).trans ?_
  rw [Core.clipCountDue]
  simp only [hrun]
  rw [if_neg (by simp [hphase, hcount]), if_neg (by rw [hadmits]; decide)]

theorem exec_clipCount_fails (hphase : q.phase = .armed) (hcount : q.count ≤ s.core.gc.count) (hnot : s.core.clipAdmits q = false) :
    exec .clipCount s = .next (s.withCore (s.core.clipFail q 7)) := by
  refine (onRun_running hrunning fun _ c => c.clipCountDue).trans ?_
  rw [Core.clipCountDue]
  simp only [hrun]
  rw [if_neg (by simp [hphase, hcount]), if_pos (by rw [hnot]; decide)]

theorem exec_roundAResult {m : ClipMsg} (hphase : q.phase = .agree) (hresult : q.result = some m) :
    let targets := (maskCtxs q.mask).map fun k => (k, m.ords.getD k 0 + 1)
    let c1 := s.core.setClip { q with phase := .cutting, targets := targets }
    exec .roundAResult s = .next (s.withCore (c1.graph.runs.foldl (fun d r => d.cutBack targets r) c1).cutScan) := by
  intro targets c1
  unfold exec execRoundAResult
  refine (onRun_running hrunning _).trans ?_
  simp only [hrun]
  split
  next m' _ hresult' =>
    cases hresult.symm.trans hresult'
    rfl
  next hno => exact absurd hresult (hno m hphase)

theorem exec_instanceCut {ctx tag : Nat} {r : Run} (hphase : q.phase = .cutting) (hfind : s.core.findRun ctx tag = some r)
    (hbit : bitAt q.mask ctx = true) (hcut : s.core.runCut r = true) :
    exec (.instanceCut ctx tag) s = .next (s.withCore (s.core.setRun { r with cut := true }).cutScan) := by
  unfold exec execInstanceCut
  refine (onRun_running hrunning _).trans ?_
  simp only [hrun, hphase, hfind, hbit, hcut, ne_eq, not_true_eq_false, if_false, Bool.and_self, if_true]

theorem exec_drainLimit (hphase : q.phase = .agree ∨ q.phase = .cutting ∨ q.phase = .drain)
    (hlimit : q.count + q.limit * 1024 ≤ s.core.gc.count) : exec .drainLimit s = .next (s.withCore (s.core.clipFail q 3)) := by
  unfold exec execDrainLimit
  refine (onRun_running hrunning _).trans ?_
  simp only [hrun]
  rw [if_pos ⟨hphase, hlimit⟩]

end Clip

/-- Settles O57: each command by its branch, the cut by what its scan finds, the failures by the release of the clip. -/
theorem clipAgreesAndCuts : Obligations.ClipAgreesAndCuts := by
  unfold Obligations.ClipAgreesAndCuts
  refine ⟨fun s q hrunning hrun => ⟨fun hphase hcount hadmits => ?_, fun hphase hcount hnot => ?_, fun m hphase hresult => ?_,
    fun ctx tag r hphase hfind hbit hcut => ?_, fun hphase hlimit => ?_⟩, fun c q hrun hphase howed hheard hroot hkids => ?_⟩
  · exact exec_clipCount_begins hrunning hrun hphase hcount hadmits
  · exact ⟨_, exec_clipCount_fails hrunning hrun hphase hcount hnot, clipFail_fails s.core q (by decide) (by decide)⟩
  · intro targets c1 d
    obtain ⟨hclip, hgc⟩ := foldl_cutBack_keeps c1 targets c1.graph.runs
    have hrun1 : d.clip.run = some { q with phase := .cutting, targets := targets } := by rw [hclip]; rfl
    refine ⟨exec_roundAResult hrunning hrun hphase hresult, fun n hn hbit hnot huncut => ?_, fun hall => ?_⟩
    · obtain ⟨e, -, hscan⟩ := cutScan_waits hrun1 rfl hn hbit hnot huncut
      rw [hscan]
      exact ⟨_, rfl, rfl, rfl, setClip_phase ..⟩
    · obtain ⟨e, hcuts, hscan⟩ := cutScan_drains hrun1 rfl hall
      rw [hscan]
      exact ⟨_, rfl, rfl, rfl, congrArg GCount.count (hcuts.count.trans hgc), rfl, setClip_phase ..⟩
  · intro d
    refine ⟨exec_instanceCut hrunning hrun hphase hfind hbit hcut, fun n hn hbit hnot huncut => ?_⟩
    obtain ⟨hctx, htag⟩ := findRun_name hfind
    have hset : d.findRun ctx tag = some { r with cut := true } := by
      subst hctx htag
      exact findRun_setRun (r := { r with cut := true }) hfind
    obtain ⟨e, hcuts, hscan⟩ := cutScan_waits (c := d) hrun hphase hn hbit hnot huncut
    obtain ⟨x, hx, hxcut⟩ := hcuts.cut hset rfl
    rw [hscan]
    exact ⟨_, x, rfl, hphase, hx, hxcut⟩
  · exact ⟨_, exec_drainLimit hrunning hrun hphase hlimit, clipFail_fails s.core q (by decide) (by decide)⟩
  · intro m
    have hm : { c.clipBlank q with ords := (List.range 64).map fun n => if bitAt q.mask n then c.passedOf n else 0 } = m := by
      rw [Core.clipBlank, hroot]
    rw [clipRounds_agree hrun hphase howed, hm]
    exact beginRound_alone hroot hkids hheard rfl rfl

end Sys2Proof.Machine
end

section
/-! PROOFS. A clip from its drain to its end, and its frames (O58). -/

namespace Sys2Proof.Machine

/-! Rounds (R348) -/

/-- A step of the round changes no more of the clip than what it sent and the result. -/
theorem roundStep_keeps {c : Core} {q : ClipRun} (hrun : c.clip.run = some q) :
    ∃ b r, c.roundStep.clip.run = some { q with sentUp := b, result := r } ∧ c.roundStep.mem = c.mem := by
  have hstay : ∃ b r, c.clip.run = some { q with sentUp := b, result := r } ∧ c.mem = c.mem := ⟨q.sentUp, q.result, hrun, rfl⟩
  rw [Core.roundStep]
  simp only [hrun]
  split
  · exact hstay
  · split
    · split
      · exact hstay
      next m rest _ =>
        split
        · obtain ⟨hdown, hmem⟩ := clipDown_takes c q (rest.foldl clipJoin m)
          exact ⟨_, _, hdown, hmem⟩
        · obtain ⟨hsend, hmem⟩ := sendFrame_keeps (c.setClip { q with sentUp := true }) 0
            ((c.setClip { q with sentUp := true }).clipPositions.getD ((c.clipIdx - 1) / 2) 0)
            (.clip { rest.foldl clipJoin m with fromIdx := c.clipIdx, up := true })
          exact ⟨true, q.result, hsend, hmem⟩
    · exact hstay

theorem beginRound_begins (c : Core) (q : ClipRun) (m : ClipMsg) : ∃ q1, (c.beginRound q m).clip.run = some q1 ∧ q1.phase = q.phase
    ∧ q1.areas = q.areas ∧ q1.reason = q.reason ∧ q1.round = q.round + 1 ∧ (c.beginRound q m).mem = c.mem := by
  obtain ⟨b, r, hrun, hmem⟩ := roundStep_keeps (c := c.setClip { q with
    round := q.round + 1, roundAt := c.now, owed := false, sentUp := false, result := none,
    heard := m :: q.heard.filter fun x => decide (q.round < x.round) }) rfl
  exact ⟨_, hrun, rfl, rfl, rfl, rfl, hmem⟩

theorem clipConfirm_confirms (c : Core) (q : ClipRun) (reason : Nat) : ∃ q1, (c.clipConfirm q reason).clip.run = some q1
    ∧ q1.phase = .confirm ∧ q1.areas = q.areas ∧ q1.reason = reason ∧ q1.round = q.round + 1 ∧ (c.clipConfirm q reason).mem = c.mem :=
  beginRound_begins ..

/-! The blob (R349, R354) -/

theorem length_blobHead (c : Core) (q : ClipRun) (sliceOk : Bool) (tag : List Byte) : (c.blobHead q sliceOk tag).length = 256 := by
  have hword (w : W64) : (wordBytes w).length = 8 := length_natBytes ..
  have htag : (tag16 tag).length = 16 := by simp [tag16, length_natBytes]
  have hiv : ((q.iv ++ natBytes 12 0).take 12).length = 12 := by simp [length_natBytes]
  simp only [Core.blobHead, List.length_append, hword, htag, hiv, length_natBytes]

/-- What a SAVE writes: its sections behind a header of 256 bytes, and nothing outside them. -/
theorem writeBlob_writes {c : Core} {head text : List Byte} (a : Nat) (hhead : head.length = 256) (hwf : memWf c.mem = true) :
    memBytes ((c.writeBytes a head).writeBytes (a + 256) text).mem (a + 256) text.length = text
    ∧ ∀ x, x < a ∨ a + (256 + text.length) ≤ x → memGet ((c.writeBytes a head).writeBytes (a + 256) text).mem x = memGet c.mem x := by
  refine ⟨memBytes_memPutBytes _ _ (writeBytes_wf a head hwf), fun x hx => ?_⟩
  exact (memGet_memPutBytes_outside _ _ (by omega)).trans (memGet_memPutBytes_outside _ _ (by omega))

/-- The core with the free values of a SAVE drawn. -/
def Core.drawnForSave (c : Core) : Core := (c.drawBytes 12).2.drawWord.2

/-- What a SAVE writes and encrypts (R354). -/
def Core.saveText (s : Sys) (c : Core) (q : ClipRun) : List Byte :=
  gcmText s.keys.devKey (c.drawBytes 12).1 (padLines (Config.encodeSections
    (ClipSave.mk ((maskCtxs q.mask).map c.drawnForSave.ctxSave) c.clip.tx c.clip.rx q.localCut)))

/-- The clip in SAVE, with the text of its sections and the area of each port. -/
def Core.savingClip (c : Core) (q : ClipRun) (text : List Byte) : ClipRun :=
  { q with phase := .save, iv := (c.drawBytes 12).1, engOff := 4 + text.length / 64, nSec := (c.drawBytes 12).2.drawWord.1.toNat % 2 ^ 16,
           text := text, tx := c.clip.tx, rx := c.clip.rx,
           ports := q.savedPorts.zipIdx.map fun e =>
             (e.1, q.blobAt + 64 * (4 + text.length / 64) + 64 * c.saveLines * e.2, c.saveLines) }

section Save
variable {s : Sys} {c : Core} {q : ClipRun}

theorem saveBegin_writes (hup : s.hedgeDown = false) (hfolded : c.objsFolded q.mask = true)
    (hfault : c.writeFault q.blobAt (256 + (c.saveText s q).length) = none)
    (hroom : 64 * (4 + (c.saveText s q).length / 64 + c.saveLines * q.savedPorts.length) ≤ q.blobLen) :
    let text := c.saveText s q
    let q1 := c.savingClip q text
    let d := (c.drawnForSave.writeBytes q.blobAt (c.drawnForSave.blobHead q1 false [])).writeBytes (q.blobAt + 256) text
    c.saveBegin s q = q.savedPorts.foldl (fun d e => d.requestEnable e)
      (Core.setClip { d with hedge := { d.hedge with blobCount := min (d.hedge.blobCount + 1) 0xFFFF } } q1) := by
  intro text q1 d
  have hroom' : ¬q.blobLen < 64 * (4 + text.length / 64 + c.saveLines * q.savedPorts.length) := Nat.not_lt.mpr hroom
  have hfault' : c.drawnForSave.writeFault q.blobAt (256 + text.length) = none := hfault
  refine (if_neg (Bool.eq_false_iff.mp hup)).trans ((if_neg (by rw [hfolded]; decide)).trans ((if_neg hroom').trans ?_))
  split
  · rfl
  next hbad => exact nomatch hfault'.symm.trans hbad
  next _ hbad => exact nomatch hfault'.symm.trans hbad

/-- A SAVE that begins: the sections and the header stand in memory, and every saved port is to save. -/
theorem saveBegin_saves (hup : s.hedgeDown = false) (hfolded : c.objsFolded q.mask = true) (hwf : memWf c.mem = true)
    (hfault : c.writeFault q.blobAt (256 + (c.saveText s q).length) = none)
    (hroom : 64 * (4 + (c.saveText s q).length / 64 + c.saveLines * q.savedPorts.length) ≤ q.blobLen)
    (hlines : (c.saveText s q).length % 64 = 0) :
    let text := c.saveText s q
    ∃ d, c.saveBegin s q = d ∧ d.clip.run = some (c.savingClip q text) ∧ memBytes d.mem (q.blobAt + 256) text.length = text
      ∧ (∀ a, a < q.blobAt ∨ q.blobAt + 64 * (4 + text.length / 64) ≤ a → memGet d.mem a = memGet c.mem a)
      ∧ d.hedge.blobCount = min (c.hedge.blobCount + 1) 0xFFFF := by
  intro text
  have hlines : text.length % 64 = 0 := hlines
  have hbegin := saveBegin_writes hup hfolded hfault hroom
  obtain ⟨hsections, houtside⟩ := writeBlob_writes (c := c.drawnForSave) (text := text) q.blobAt
    (length_blobHead c.drawnForSave (c.savingClip q text) false []) hwf
  obtain ⟨w, hw⟩ := foldl_requestEnable_changes (Core.setClip { (c.drawnForSave.writeBytes q.blobAt
    (c.drawnForSave.blobHead (c.savingClip q text) false [])).writeBytes (q.blobAt + 256) text with
      hedge := { c.hedge with blobCount := min (c.hedge.blobCount + 1) 0xFFFF } } (c.savingClip q text)) q.savedPorts
  refine ⟨_, hbegin.trans hw, rfl, hsections, fun a ha => houtside a (by omega), rfl⟩

end Save

/-! The commands -/

section Clip
variable {s : State} {q : ClipRun} (hrunning : s.running = true) (hrun : s.core.clip.run = some q)
include hrunning hrun

theorem exec_roundBStart {m : ClipMsg} (hphase : q.phase = .drain) (hresult : q.result = some m) (howed : q.owed = false)
    (hdiffer : ClipRun.drained m = false) (hlate : q.roundAt + 4096 * 3 ≤ s.core.now) :
    exec .roundBStart s = .next (s.withCore (s.core.setClip { q with owed := true })) := by
  unfold exec execRoundBStart
  refine (onRun_running hrunning _).trans ?_
  simp only [hrun]
  split
  next m' _ hresult' =>
    cases hresult.symm.trans hresult'
    rw [if_pos (by rw [howed, hdiffer]; exact ⟨rfl, rfl, hlate⟩)]
  next hno => exact absurd hresult (hno m hphase)

theorem exec_roundBResult {m : ClipMsg} (hphase : q.phase = .drain) (hresult : q.result = some m) (howed : q.owed = false)
    (hdrained : ClipRun.drained m = true) : exec .roundBResult s = .next (s.withCore (s.core.saveBegin s.sys q)) := by
  unfold exec execRoundBResult
  refine (onRun_running hrunning _).trans ?_
  simp only [hrun]
  split
  next m' _ hresult' =>
    cases hresult.symm.trans hresult'
    rw [if_pos (by rw [howed, hdrained]; exact ⟨rfl, rfl⟩)]
  next hno => exact absurd hresult (hno m hphase)

theorem exec_clipSaveDone {bs : List Byte} (hphase : q.phase = .save) (hports : q.ports = [])
    (hread : s.core.readBytes (q.blobAt + 64 * q.engOff) (64 * s.core.saveLines * q.savedPorts.length) = .ok bs) :
    exec .clipSaveDone s = .next (s.withCore (s.core.clipConfirm { q with areas := bs } 0)) := by
  unfold exec execClipSaveDone
  refine (onRun_running hrunning _).trans ?_
  simp only [hrun]
  rw [if_pos ⟨hphase, hports⟩]
  simp only [hread]

theorem exec_roundCResult {m : ClipMsg} (hphase : q.phase = .confirm) (hresult : q.result = some m) :
    exec .roundCResult s = .next (s.withCore (s.core.roundC s.sys q m)) := by
  unfold exec execRoundCResult
  refine (onRun_running hrunning _).trans ?_
  simp only [hrun]
  split
  next m' _ hresult' => cases hresult.symm.trans hresult'; rfl
  next hno => exact absurd hresult (hno m hphase)

theorem exec_continueCount (hphase : q.phase = .cont) (hcount : q.contAt ≤ s.core.gc.count) :
    exec .continueCount s = .next (s.withCore (s.core.clipRelease q q.contAt false
      (if q.reason ≠ 0 then q.reason else if q.sliceOk then 0 else 6))) := by
  unfold exec execContinueCount
  refine (onRun_running hrunning _).trans ?_
  simp only [hrun]
  rw [if_pos ⟨hphase, hcount⟩]

end Clip

/-- The result of round C completes the blob where its write has no fault (R350, R354). -/
theorem roundC_completes {s : Sys} {c : Core} {q : ClipRun} {m : ClipMsg} (hreason : q.reason = 0) (hup : s.hedgeDown = false)
    (hfault : c.writeFault q.blobAt
      (c.blobHead q m.flag (blobTag s (c.blobHead q m.flag []) q.text q.areas q.iv)).length = none) :
    c.roundC s q m = (c.writeBytes q.blobAt (c.blobHead q m.flag (blobTag s (c.blobHead q m.flag []) q.text q.areas q.iv))).setClip
      { q with phase := .cont, sliceOk := m.flag, contAt := m.count + fld c.clip.ctrl 16 16 * 1024 } := by
  refine (if_neg (not_not_intro hreason)).trans ((if_neg (Bool.eq_false_iff.mp hup)).trans ?_)
  dsimp only
  split
  · rfl
  next hbad => exact nomatch hfault.symm.trans hbad
  next _ hbad => exact nomatch hfault.symm.trans hbad

/-! Frames (R348) -/

section Frames
variable {s : State} {a : Arrival} {d : Core} {f : Frame} {m : ClipMsg}

theorem exec_clipFrame (hrunning : s.running = true) (hwf : a.wf = true)
    (harrive : s.core.arrive (fun p => match p with | .clip _ => true | _ => false) a = (d, some f)) (hpayload : f.payload = .clip m) :
    exec (.clipFrame a) s = .next (s.withCore (d.clipIn m)) := by
  change execClipFrame a s = _
  rw [execClipFrame, if_pos hwf]
  refine (onRun_running hrunning _).trans ?_
  split
  next d' f' harrive' =>
    cases harrive.symm.trans harrive'
    split
    next m' hpayload' => cases hpayload.symm.trans hpayload'; rfl
    next hno => exact absurd hpayload (hno m)
  next d' harrive' => cases harrive.symm.trans harrive'

variable {c : Core} {q : ClipRun}

theorem clipIn_dropped (hrun : c.clip.run = none) : c.clipIn m = c.clipDrop := by
  rw [Core.clipIn]
  simp only [hrun]

theorem clipIn_heard (hrun : c.clip.run = some q) (hclip : m.clipCount = q.count) (hup : m.up = true)
    (hkid : c.clipKids.contains m.fromIdx = true) (hround : m.round = q.round) (hopen : q.sentUp = false) :
    c.clipIn m = (c.setClip { q with heard := q.heard ++ [m] }).roundStep := by
  rw [Core.clipIn]
  simp only [hrun]
  rw [if_neg (not_not_intro hclip), if_pos hup, if_pos ⟨hkid, .inl ⟨hround, by rw [hopen]; rfl⟩⟩]

theorem clipIn_result (hrun : c.clip.run = some q) (hclip : m.clipCount = q.count) (hdown : m.up = false) (hround : m.round = q.round)
    (hsent : q.sentUp = true) (hnone : q.result = none) : c.clipIn m = c.clipDown q m := by
  rw [Core.clipIn]
  simp only [hrun]
  rw [if_neg (not_not_intro hclip), if_neg (Bool.eq_false_iff.mp hdown), if_pos ⟨hround, hsent, by rw [hnone]; rfl⟩]

end Frames

/-! The obligation -/

section Rounds
variable {c : Core} {q : ClipRun} (hrun : c.clip.run = some q) (hphase : q.phase = .drain) (howed : q.owed = true)
include hrun hphase howed

theorem clipRounds_waits (hbusy : c.endsQuiet q.mask = false) : c.clipRounds = c := by
  rw [Core.clipRounds]
  simp only [hrun, howed, hphase, hbusy, reduceCtorEq, Bool.not_true, Bool.false_eq_true, and_false, if_false]

theorem clipRounds_drain (hquiet : c.endsQuiet q.mask = true) :
    c.clipRounds = c.beginRound q { c.clipBlank q with tx := c.clip.tx.toNat, rx := c.clip.rx.toNat } := by
  rw [Core.clipRounds]
  simp only [hrun, howed, hphase, hquiet, reduceCtorEq, Bool.not_true, Bool.false_eq_true, and_self, if_false, if_true]

end Rounds

/-- Settles O58: each command by its branch, the blob by what its writes leave, the end by the release of the clip, a frame by what the
clip does with it. -/
theorem clipSavesAndContinues : Obligations.ClipSavesAndContinues := by
  unfold Obligations.ClipSavesAndContinues
  refine ⟨fun s q hrunning hrun => ⟨fun m hphase hresult howed hdiffer hlate => ?_, fun m hphase hresult howed hdrained => ⟨fun hdown => ?_,
    fun hup hfolded hwf => ?_⟩, fun bs hphase hports hread => ?_, fun m hphase hresult => ?_, fun hphase hcount => ?_⟩,
    fun c q hrun hphase howed => ⟨clipRounds_waits hrun hphase howed, clipRounds_drain hrun hphase howed⟩,
    fun s a d f m hrunning hwf harrive hpayload => ⟨fun hrun => ?_, fun q hrun hclip hup hkid hround hopen => ?_,
      fun q hrun hclip hdown hround hsent hnone => ?_⟩⟩
  · exact exec_roundBStart hrunning hrun hphase hresult howed hdiffer hlate
  · rw [exec_roundBResult hrunning hrun hphase hresult howed hdrained, Core.saveBegin, if_pos hdown]
  · intro iv c1 text off hfault hroom hlines
    obtain ⟨d, hbegin, hclip, hsections, houtside, hcount⟩ := saveBegin_saves hup hfolded hwf hfault hroom hlines
    have hexec := exec_roundBResult hrunning hrun hphase hresult howed hdrained
    rw [hbegin] at hexec
    refine ⟨_, _, hexec, hclip, rfl, rfl, rfl, rfl, rfl, ?_, hsections, houtside, hcount⟩
    exact (List.map_map ..).trans (List.zipIdx_map_fst ..)
  · obtain ⟨q1, hrun1, hphase1, hareas, hreason, hround, hmem⟩ := clipConfirm_confirms s.core { q with areas := bs } 0
    exact ⟨_, q1, exec_clipSaveDone hrunning hrun hphase hports hread, hrun1, hphase1, hareas, hreason, hround, hmem⟩
  · intro q1 head full
    have hexec := exec_roundCResult hrunning hrun hphase hresult
    refine ⟨fun hreason => ?_, fun hreason hdown => ?_, fun hreason hup hfault => ⟨?_, length_blobHead ..⟩⟩
    · rw [hexec, Core.roundC, if_pos hreason]
    · rw [hexec, Core.roundC, if_neg (not_not_intro hreason), if_pos hdown]
    · rw [hexec, roundC_completes hreason hup hfault]
  · obtain ⟨hnone, hstatus, hmem, hcompl⟩ := clipRelease_ends s.core q q.contAt false
      (if q.reason ≠ 0 then q.reason else if q.sliceOk then 0 else 6)
    refine ⟨_, exec_continueCount hrunning hrun hphase hcount, hnone, ?_, hmem, hcompl, fun hreason hok => ?_, fun hreason hbad => ?_⟩
    · exact (congrArg (fun w => fld w 12 4) hstatus).trans (endedStatus_phase ..)
    · rw [if_neg (not_not_intro hreason), if_pos hok] at hstatus ⊢
      exact (congrArg (fun w => bitAt w 1) hstatus).trans (endedStatus_saved _)
    · rw [if_neg (not_not_intro hreason), if_neg (Bool.eq_false_iff.mp hbad)] at hstatus ⊢
      obtain ⟨hflag, hcode⟩ := endedStatus_failed s.core.clip.status (reason := 6) (by decide) (by decide)
      exact ⟨(congrArg (fun w => bitAt w 2) hstatus).trans hflag, (congrArg (fun w => fld w 24 8) hstatus).trans hcode⟩
  · rw [exec_clipFrame hrunning hwf harrive hpayload, clipIn_dropped hrun]; rfl
  · rw [exec_clipFrame hrunning hwf harrive hpayload, clipIn_heard hrun hclip hup hkid hround hopen]
  · obtain ⟨htakes, hmem⟩ := clipDown_takes d q m
    have hexec := exec_clipFrame hrunning hwf harrive hpayload
    rw [clipIn_result hrun hclip hdown hround hsent hnone] at hexec
    exact ⟨_, _, hexec, htakes, rfl, rfl, hmem⟩

end Sys2Proof.Machine
end

section
/-! PROOFS. Replies and refusals (O16, O17, O12): what a final reply leaves of its queue and its context, a command that the state of its
context does not admit, and the replies of DEVICE_RESET. -/

namespace Sys2Proof.Machine

/-! What a final reply leaves (R71, R75, R98, R407) -/

/-- The final reply that a queue is given next. -/
def Queue.nextReply (q : Queue) (tag : Nat) (v : Verdict) (irq gives : Bool) (rest : Option RunRest) (halts : Bool) : Reply :=
  { tag := tag, status := v.status, detail := v.detail, count := (q.compl + 1) % 2 ^ 64, final := true, irq := irq, gives := gives,
    rest := rest, halts := halts }

/-- A queue that has been given a final reply. -/
def Queue.answered (q : Queue) (tag : Nat) (v : Verdict) (irq gives : Bool) (rest : Option RunRest) (halts : Bool) : Queue :=
  if q.fetch = .off then { q with compl := (q.compl + 1) % 2 ^ 64, cur := if gives then .none else q.cur }
  else { q with compl := (q.compl + 1) % 2 ^ 64, replies := q.replies ++ [q.nextReply tag v irq gives rest halts],
                cur := if gives then .replying else q.cur }

theorem fld_genW0_reason (detail status reason unit ctx : Nat) : fld (genW0 detail status reason unit ctx) 16 8 = reason % 256 := by
  rw [fld, genW0, w64, BitVec.toNat_ofNat]
  omega

/-- A final reply that is given, as its queue, its context and, in OFF, a record. -/
theorem finalReplyOf_eq {c : Core} (n tag : Nat) {v : Verdict} (irq gives : Bool) (rest : Option RunRest) (halts : Bool)
    (hm : c.mute v = false) :
    c.finalReplyOf n tag v irq gives rest halts
      = (let d := (c.setCtx n { c.ctx n with cmds := sat64 (c.ctx n).cmds 1, progressed := true }).setQueue n
           ((c.queue n).answered tag v irq gives rest halts)
         if (c.queue n).fetch = .off then d.logQueue n 3 v.status.code 0 ((c.queue n).nextReply tag v irq gives rest halts).word0 else d) := by
  rw [Core.finalReplyOf, if_neg (Bool.eq_false_iff.mp hm), Queue.answered]
  by_cases hoff : (c.queue n).fetch = .off
  · cases gives <;> simp only [hoff, if_true, Bool.false_eq_true, if_false] <;> rfl
  · cases gives <;> simp only [hoff, if_true, Bool.false_eq_true, if_false] <;> rfl

theorem queues_logQueue (c : Core) (n reason status detail : Nat) (value : W64) :
    (c.logQueue n reason status detail value).queues = c.queues := by
  obtain ⟨e, w, l, h⟩ := log_changes c 0x02 reason n n status detail (w64 (c.queue n).head) value
  exact (congrArg Core.queues h).trans rfl

theorem ctxs_logQueue (c : Core) (n reason status detail : Nat) (value : W64) :
    (c.logQueue n reason status detail value).ctxs = c.ctxs := by
  obtain ⟨e, w, l, h⟩ := log_changes c 0x02 reason n n status detail (w64 (c.queue n).head) value
  exact (congrArg Core.ctxs h).trans rfl

theorem queues_finalReplyOf {c : Core} (n tag : Nat) {v : Verdict} (irq gives : Bool) (rest : Option RunRest) (halts : Bool)
    (hm : c.mute v = false) :
    (c.finalReplyOf n tag v irq gives rest halts).queues = aset c.queues n ((c.queue n).answered tag v irq gives rest halts) := by
  rw [finalReplyOf_eq n tag irq gives rest halts hm]
  dsimp only
  split
  · exact queues_logQueue ..
  · rfl

theorem ctxs_finalReplyOf {c : Core} (n tag : Nat) {v : Verdict} (irq gives : Bool) (rest : Option RunRest) (halts : Bool)
    (hm : c.mute v = false) :
    (c.finalReplyOf n tag v irq gives rest halts).ctxs
      = aset c.ctxs n { c.ctx n with cmds := sat64 (c.ctx n).cmds 1, progressed := true } := by
  rw [finalReplyOf_eq n tag irq gives rest halts hm]
  dsimp only
  split
  · exact ctxs_logQueue ..
  · rfl

theorem queue_finalReply {c : Core} (n tag : Nat) {v : Verdict} (irq gives : Bool) (hm : c.mute v = false) :
    (c.finalReply n tag v irq gives).queue n = (c.queue n).answered tag v irq gives none false := by
  rw [Core.queue, Core.finalReply, queues_finalReplyOf n tag irq gives none false hm, agetD_aset_self]

theorem queue_finalReply_other {c : Core} {n m : Nat} (tag : Nat) (v : Verdict) (irq gives : Bool) (h : m ≠ n) :
    (c.finalReply n tag v irq gives).queue m = c.queue m := by
  cases hm : c.mute v with
  | true => rw [finalReply_mute n tag irq gives hm]
  | false => rw [Core.queue, Core.finalReply, queues_finalReplyOf n tag irq gives none false hm, agetD_aset_other _ _ _ _ _ h]; rfl

theorem ctx_finalReply {c : Core} (n tag : Nat) {v : Verdict} (irq gives : Bool) (hm : c.mute v = false) :
    (c.finalReply n tag v irq gives).ctx n = { c.ctx n with cmds := sat64 (c.ctx n).cmds 1, progressed := true } := by
  rw [Core.ctx, Core.finalReply, ctxs_finalReplyOf n tag irq gives none false hm, agetD_aset_self]

theorem ctx_finalReply_other {c : Core} {n m : Nat} (tag : Nat) (v : Verdict) (irq gives : Bool) (h : m ≠ n) :
    (c.finalReply n tag v irq gives).ctx m = c.ctx m := by
  cases hm : c.mute v with
  | true => rw [finalReply_mute n tag irq gives hm]
  | false => rw [Core.ctx, Core.finalReply, ctxs_finalReplyOf n tag irq gives none false hm, agetD_aset_other _ _ _ _ _ h]; rfl

theorem answered_on {q : Queue} (hon : q.fetch ≠ .off) (tag : Nat) (v : Verdict) (irq gives : Bool) (rest : Option RunRest)
    (halts : Bool) :
    q.answered tag v irq gives rest halts
      = { q with compl := (q.compl + 1) % 2 ^ 64, replies := q.replies ++ [q.nextReply tag v irq gives rest halts],
                 cur := if gives then .replying else q.cur } :=
  if_neg hon

theorem answered_off {q : Queue} (hoff : q.fetch = .off) (tag : Nat) (v : Verdict) (irq gives : Bool) (rest : Option RunRest)
    (halts : Bool) :
    q.answered tag v irq gives rest halts = { q with compl := (q.compl + 1) % 2 ^ 64, cur := if gives then .none else q.cur } :=
  if_pos hoff

theorem compl_answered (q : Queue) (tag : Nat) (v : Verdict) (irq gives : Bool) (rest : Option RunRest) (halts : Bool) :
    (q.answered tag v irq gives rest halts).compl = (q.compl + 1) % 2 ^ 64 := by
  rw [Queue.answered]
  split <;> rfl

/-- A queue that is not OFF keeps the log as it is. -/
theorem evt_finalReply_on {c : Core} {n : Nat} (tag : Nat) {v : Verdict} (irq gives : Bool) (hm : c.mute v = false)
    (hon : (c.queue n).fetch ≠ .off) : (c.finalReply n tag v irq gives).evt = c.evt := by
  rw [Core.finalReply, finalReplyOf_eq n tag irq gives none false hm]
  dsimp only
  rw [if_neg hon]
  rfl

/-- The reply that a queue in OFF drops leaves a QUEUE record with reason 3 (R407). -/
theorem finalReply_off_logs {c : Core} {n : Nat} (tag : Nat) {v : Verdict} (irq gives : Bool) (hm : c.mute v = false)
    (hoff : (c.queue n).fetch = .off) (hroom : diff32 c.evt.wr c.evt.rd < 1024) (hf : c.logFresh = true) :
    ∃ r, aget (c.finalReply n tag v irq gives).evt.recs (c.evt.wr % 1024) = some r ∧ r.cls = 2 ∧ fld r.w0 16 8 = 3 := by
  rw [Core.finalReply, finalReplyOf_eq n tag irq gives none false hm]
  dsimp only
  rw [if_pos hoff]
  obtain ⟨r, hr, hcls, hw0⟩ := logRaw_stands (c := (c.setCtx n { c.ctx n with cmds := sat64 (c.ctx n).cmds 1, progressed := true }).setQueue n
      ((c.queue n).answered tag v irq gives none false)) 2 (genW0 0 v.status.code 3 n n) _ _ hroom hf
  exact ⟨r, hr, hcls, by rw [hw0, fld_genW0_reason]⟩

/-- Settles O16: a reply that is muted, and a reply that is given by whether its queue is OFF. -/
theorem finalReplyCountsAndStands : Obligations.FinalReplyCountsAndStands := by
  unfold Obligations.FinalReplyCountsAndStands
  refine ⟨fun c n tag v irq hstopped hv => finalReply_mute n tag irq true ?_, fun c n tag v irq hgiven => ?_⟩
  · rw [Core.mute, hstopped, bne_iff_ne.mpr hv]; rfl
  · intro d
    have hm : c.mute v = false := by
      rcases hgiven with hrunning | hpending
      · rw [Core.mute, hrunning, Bool.false_and]
      · rw [Core.mute, hpending, bne_self_eq_false, Bool.and_false]
    have hqueue : d.queue n = (c.queue n).answered tag v irq true none false := queue_finalReply n tag irq true hm
    obtain ⟨q, x, e, w, l, hd⟩ := finalReply_changes c n tag v irq true hm
    refine ⟨?_, congrArg Ctx.cmds (ctx_finalReply n tag irq true hm), fun hon => ?_, fun hoff => ?_,
      fun m hne => ⟨queue_finalReply_other tag v irq true hne, ctx_finalReply_other tag v irq true hne⟩, ?_⟩
    · rw [hqueue, compl_answered]
    · rw [hqueue, answered_on hon]
      exact ⟨rfl, evt_finalReply_on tag irq true hm hon, rfl⟩
    · rw [hqueue, answered_off hoff]
      exact ⟨rfl, rfl, finalReply_off_logs tag irq true hm hoff⟩
    · rw [show d = _ from hd]
      exact ⟨rfl, rfl, rfl, rfl, rfl, rfl, rfl⟩

/-! The frame of replies and records -/

/-- What replies and records change: queues, contexts, the log and the flags of SZ_FAULT_STATUS. -/
def AnsweredFrom (c d : Core) : Prop := ∃ q x e w l, d = { c with queues := q, ctxs := x, evt := e, watch := w, sets := l }

theorem AnsweredFrom.refl (c : Core) : AnsweredFrom c c := ⟨c.queues, c.ctxs, c.evt, c.watch, c.sets, rfl⟩

theorem AnsweredFrom.trans {c d e : Core} (h : AnsweredFrom c d) (k : AnsweredFrom d e) : AnsweredFrom c e := by
  obtain ⟨q, x, e, w, l, rfl⟩ := h
  obtain ⟨q, x, e, w, l, rfl⟩ := k
  exact ⟨q, x, e, w, l, rfl⟩

theorem AnsweredFrom.foldl {α : Type} {step : Core → α → Core} (hstep : ∀ d x, AnsweredFrom d (step d x)) (l : List α) (c : Core) :
    AnsweredFrom c (l.foldl step c) :=
  List.foldlRecOn l step (.refl c) fun d h x _ => h.trans (hstep d x)

theorem answeredFrom_finalReplyOf (c : Core) (n tag : Nat) (v : Verdict) (irq gives : Bool) (rest : Option RunRest) (halts : Bool) :
    AnsweredFrom c (c.finalReplyOf n tag v irq gives rest halts) := by
  cases hm : c.mute v with
  | true => rw [Core.finalReplyOf, if_pos hm]; exact .refl c
  | false =>
    obtain ⟨q, x, e, w, l, h⟩ := finalReplyOf_changes c n tag v irq gives rest halts hm
    exact ⟨_, _, e, w, l, h⟩

theorem answeredFrom_finalReply (c : Core) (n tag : Nat) (v : Verdict) (irq gives : Bool) :
    AnsweredFrom c (c.finalReply n tag v irq gives) :=
  answeredFrom_finalReplyOf c n tag v irq gives none false

theorem answeredFrom_log (c : Core) (cls reason unit ctx status detail : Nat) (subject value : W64) :
    AnsweredFrom c (c.log cls reason unit ctx status detail subject value) := by
  obtain ⟨e, w, l, h⟩ := log_changes c cls reason unit ctx status detail subject value
  exact ⟨c.queues, c.ctxs, e, w, l, h⟩

theorem AnsweredFrom.fe {c d : Core} (h : AnsweredFrom c d) : d.fe = c.fe := by
  obtain ⟨q, x, e, w, l, rfl⟩ := h
  rfl

theorem AnsweredFrom.mem {c d : Core} (h : AnsweredFrom c d) : d.mem = c.mem := by
  obtain ⟨q, x, e, w, l, rfl⟩ := h
  rfl

theorem AnsweredFrom.graph {c d : Core} (h : AnsweredFrom c d) : d.graph = c.graph := by
  obtain ⟨q, x, e, w, l, rfl⟩ := h
  rfl

theorem AnsweredFrom.hedge {c d : Core} (h : AnsweredFrom c d) : d.hedge = c.hedge := by
  obtain ⟨q, x, e, w, l, rfl⟩ := h
  rfl

theorem AnsweredFrom.sync {c d : Core} (h : AnsweredFrom c d) : d.sync = c.sync := by
  obtain ⟨q, x, e, w, l, rfl⟩ := h
  rfl

theorem AnsweredFrom.present {c d : Core} (h : AnsweredFrom c d) : d.present = c.present := by
  obtain ⟨q, x, e, w, l, rfl⟩ := h
  rfl

theorem AnsweredFrom.cfg {c d : Core} (h : AnsweredFrom c d) : d.cfg = c.cfg := by
  obtain ⟨q, x, e, w, l, rfl⟩ := h
  rfl

/-! A context that does not admit a command (R77, R82) -/

/-- A command whose context state does not admit it is answered before any step of its own. -/
theorem onCommand_notAdmitted {s : State} {op n : Nat} {p : Packet} (run : Sys → Core → Nat → Packet → Except Verdict CpRes)
    (hrunning : s.running = true) (hfree : s.core.cpFree = true) (hnext : s.core.nextOffered s.core.fe.offered = some (n, p))
    (hstate : s.core.admitted n p = false) (hop : pkOp p = op) :
    onCommand s op run = .next (s.replied n p (vState 1) (s.core.taken n)) := by
  have hanswer : (s.core.cpTaken n).cpAnswer n p (run s.sys) = .error (vState 1) := if_neg (Bool.eq_false_iff.mp hstate)
  have htake : s.core.cpTake op (run s.sys) = (s.core.taken n).answer n p (.error (vState 1)) := by
    unfold Core.cpTake
    rw [if_neg (by simp [hfree]), hnext]
    refine (if_neg (not_not_intro hop)).trans ?_
    simp only [hanswer]
    rfl
  rw [onCommand, onRun_running hrunning, htake]
  rfl

/-- Settles O17: each of the commands is one call of the control processor, which asks for the context state first. -/
theorem hostOpcodeRefusedByContextState : Obligations.HostOpcodeRefusedByContextState := by
  unfold Obligations.HostOpcodeRefusedByContextState
  intro s n p hrunning hfree hnext hstate i op hmem hop
  simp only [List.mem_cons, Prod.mk.injEq, List.not_mem_nil, or_false] at hmem
  rcases hmem with ⟨rfl, rfl⟩ | ⟨rfl, rfl⟩ | ⟨rfl, rfl⟩ | ⟨rfl, rfl⟩ | ⟨rfl, rfl⟩ | ⟨rfl, rfl⟩ | ⟨rfl, rfl⟩ | ⟨rfl, rfl⟩ | ⟨rfl, rfl⟩
    | ⟨rfl, rfl⟩ | ⟨rfl, rfl⟩ | ⟨rfl, rfl⟩ | ⟨rfl, rfl⟩ | ⟨rfl, rfl⟩ | ⟨rfl, rfl⟩ | ⟨rfl, rfl⟩ | ⟨rfl, rfl⟩ | ⟨rfl, rfl⟩ | ⟨rfl, rfl⟩ <;>
  · simp only [exec, execCtxOpen, execCtxClose, execHandleFlush, execNop, execSkeinUnload, execSkeinPatch, execLaunchAt, execCancel,
      execResume, execSyncSet, execSyncWait, execSyncAlloc, execSyncFree, execMoeTableLoad, execMoeStats, execClipAbort, execLoopbackSet,
      execSelftest, execQuery]
    exact onCommand_notAdmitted _ hrunning hfree hnext hstate hop

/-! DEVICE_RESET (R89) -/

/-- The queues that are told RESET_PENDING, in their order. -/
def Core.tellPending (c : Core) (l : List Nat) : Core :=
  l.foldl (fun d n => d.finalReply n noHandle vResetPending false false) c

theorem not_mute_resetPending (c : Core) : c.mute vResetPending = false := Bool.and_false _

theorem queue_tellPending_other {c : Core} {l : List Nat} {m : Nat} (h : m ∉ l) : (c.tellPending l).queue m = c.queue m := by
  induction l generalizing c with
  | nil => rfl
  | cons n rest ih =>
    obtain ⟨hne, hrest⟩ := not_or.mp (List.mem_cons.not.mp h)
    exact (ih hrest).trans (queue_finalReply_other _ _ _ _ hne)

theorem queue_tellPending {c : Core} {l : List Nat} {m : Nat} (h : m ∈ l) (hnodup : l.Nodup) :
    (c.tellPending l).queue m = (c.queue m).answered noHandle vResetPending false false none false := by
  induction l generalizing c with
  | nil => exact absurd h List.not_mem_nil
  | cons n rest ih =>
    obtain ⟨hnot, hrest⟩ := List.nodup_cons.mp hnodup
    rcases List.mem_cons.mp h with rfl | hin
    · exact (queue_tellPending_other hnot).trans (queue_finalReply _ _ _ _ (not_mute_resetPending c))
    · exact (ih hin hrest).trans (congrArg (Queue.answered · noHandle vResetPending false false none false)
        (queue_finalReply_other _ _ _ _ (ne_of_mem_of_not_mem hin hnot)))

/-- The open contexts whose queues a DEVICE_RESET tells. -/
def Core.toldCtxs (c : Core) : List Nat := c.openCtxs.filter fun n => n != 0

theorem mem_toldCtxs {c : Core} {m : Nat} : m ∈ c.toldCtxs ↔ m < 64 ∧ (c.ctx m).st ≠ .closed ∧ m ≠ 0 := by
  simp only [Core.toldCtxs, Core.openCtxs, List.mem_filter, List.mem_range, bne_iff_ne, and_assoc]

theorem nodup_toldCtxs (c : Core) : c.toldCtxs.Nodup := (List.nodup_range.filter _).filter _

/-- The core with the front end stopped and every other open queue told. -/
def Core.resetTold (c : Core) : Core := { c with fe := { c.fe with stopped := true } }.tellPending c.toldCtxs

theorem answeredFrom_resetTold (c : Core) : AnsweredFrom { c with fe := { c.fe with stopped := true } } c.resetTold :=
  .foldl (fun d n => answeredFrom_finalReply d n _ _ _ _) _ _

theorem fe_resetTold (c : Core) : c.resetTold.fe = { c.fe with stopped := true } := by
  obtain ⟨q, x, e, w, l, h⟩ := answeredFrom_resetTold c
  rw [h]

theorem queue_resetTold {c : Core} {m : Nat} (h : m ∈ c.toldCtxs) :
    c.resetTold.queue m = (c.queue m).answered noHandle vResetPending false false none false :=
  queue_tellPending (c := { c with fe := { c.fe with stopped := true } }) h (nodup_toldCtxs c)

theorem deviceReset_done {c : Core} {p : Packet} (h : passes (step9 p []) = true) :
    c.deviceReset p = .ok (.done vResetPending c.resetTold) := by
  obtain ⟨u, hu⟩ := passes_ok h
  rw [Core.deviceReset, hu]
  rfl

theorem exec_deviceReset {s : State} {p : Packet} (htakes : s.takes 0xF0 0 p = true) (h9 : passes (step9 p []) = true) :
    exec .deviceReset s = .next { s.replied 0 p vResetPending (s.core.taken 0).resetTold with
      sys := { s.sys with devResetAt := some s.core.now } } := by
  have hcommand := onCommand_done (run := fun _ d _ p => d.deviceReset p) htakes (deviceReset_done h9)
  simp only [State.takes, Bool.and_eq_true, State.running, beq_iff_eq, Core.cpFree, Bool.not_eq_true'] at htakes
  obtain ⟨⟨⟨⟨hrun, hgoing, -⟩, -⟩, -⟩, -⟩ := htakes
  rw [onCommand, onRun, if_pos hrun] at hcommand
  have htaken := congrArg State.core (Host.Outcome.next.inj hcommand)
  have hstopped : ((s.core.taken 0).resetTold.finalReply 0 (pkTag p) vResetPending (pkIrq p) true).fe.stopped = true := by
    rw [(answeredFrom_finalReply ..).fe, fe_resetTold]
  change execDeviceReset s = _
  rw [execDeviceReset, if_pos hrun]
  dsimp only at htaken ⊢
  rw [htaken, if_pos (by rw [Bool.and_eq_true, hgoing]; exact ⟨hstopped, rfl⟩)]
  rfl

/-- Settles O12: DEVICE_RESET by the replies that it gives in the order of the contexts. -/
theorem deviceResetStopsTheFrontEnd : Obligations.DeviceResetStopsTheFrontEnd := by
  unfold Obligations.DeviceResetStopsTheFrontEnd
  intro s p htakes h9
  obtain ⟨q, x, e, w, l, hd⟩ := answeredFrom_resetTold (s.core.taken 0)
  refine ⟨(s.core.taken 0).resetTold, exec_deviceReset htakes h9, by rw [fe_resetTold], by rw [hd]; rfl, by rw [hd]; rfl, by rw [hd]; rfl,
    fun m hpos hlt hopen hon => ?_, fun m hclosed => ?_⟩
  · have hqueue := queue_resetTold (c := s.core.taken 0) (mem_toldCtxs.mpr ⟨hlt, hopen, Nat.ne_of_gt hpos⟩)
    refine ⟨(s.core.queue m).nextReply noHandle vResetPending false false none false, rfl, rfl, rfl, ?_, ?_⟩
    · exact (congrArg Queue.replies (hqueue.trans (answered_on hon ..))).trans rfl
    · exact (congrArg Queue.compl hqueue).trans (compl_answered ..)
  · exact queue_tellPending_other fun hin => (mem_toldCtxs.mp hin).2.1 hclosed

end Sys2Proof.Machine
end

section
/-! PROOFS. KEY_READ (O10), FW_LOAD with the entry to RUN (O14), and the tokens of DEBUG_UNLOCK and of the manual grant (O15). -/

namespace Sys2Proof.Machine

/-! KEY_READ (R44, R45, R361, R367) -/

theorem lcsOf_unlisted {code : Nat} (h3 : code ≠ 3) (h5 : code ≠ 5) (h10 : code ≠ 10) : lcsOf code = .decommissioned := by
  rw [lcsOf, if_neg h3, if_neg h5, if_neg h10]

theorem keysRead_scanned {y : Sys} (lcs : Lcs) (slots : AMap W32) (h : y.scanned = true) : keysRead y lcs slots = .zero :=
  if_pos (by rw [h]; rfl)

theorem keysRead_decommissioned (y : Sys) (slots : AMap W32) : keysRead y .decommissioned slots = .zero :=
  if_pos (Bool.or_true _)

theorem keysRead_filled {y : Sys} {lcs : Lcs} (slots : AMap W32) (h : y.scanned = false) (hlcs : lcs ≠ .decommissioned) :
    keysRead y lcs slots = { fwKey := slotRun slots 0 12, devKey := slotRun slots 0x10 8, dbgKey := slotRun slots 0x20 12,
                             floor := (agetD slots 0x50 0).toNat } :=
  if_neg (by rw [h, beq_false_of_ne hlcs]; exact Bool.false_ne_true)

/-- Settles O10: the state of KY_LCS by its code, the key store by whether the chip was scanned. -/
theorem keyReadSamplesLifecycle : Obligations.KeyReadSamplesLifecycle := by
  unfold Obligations.KeyReadSamplesLifecycle
  intro s code slots hphase hslots
  have hexec : exec (.keyRead code slots) s = .next { s with
      sys := { s.sys with phase := .memInit, since := s.core.now, lcs := lcsOf code, keys := keysRead s.sys (lcsOf code) slots,
                          hg := if lcsOf code = .decommissioned then .dead else .keys },
      core := { s.core with engPresent := presentBits slots,
                            hedge := { s.core.hedge with keyBlank := blankInUse (lcsOf code) (keysRead s.sys (lcsOf code) slots) } } } :=
    if_pos ⟨hphase, hslots⟩
  refine ⟨_, hexec, rfl, rfl, ?_, ?_, ?_, fun h3 h5 h10 => ?_, fun hscanned => keysRead_scanned _ _ hscanned,
    fun hlive hnot => ⟨if_neg hlive, ?_⟩, by dsimp only⟩
  · rintro rfl; rfl
  · rintro rfl; rfl
  · rintro rfl; rfl
  · have hlcs := lcsOf_unlisted h3 h5 h10
    exact ⟨hlcs, if_pos hlcs, by dsimp only; rw [hlcs, keysRead_decommissioned]⟩
  · dsimp only at hlive ⊢
    rw [keysRead_filled slots hnot hlive]
    exact ⟨rfl, rfl, rfl, rfl⟩

/-! The entry to RUN (R59, R71, R115) -/

/-- Ports released one after the other. -/
def Core.releaseEach (c : Core) (l : List Nat) : Core :=
  l.foldl (fun d e => if d.present e then d.setPort e { d.port e with rstN := true, rstAt := d.now } else d) c

theorem releaseEach_changes (c : Core) (l : List Nat) :
    ∃ ports, c.releaseEach l = { c with disp := { c.disp with ports := ports } } := by
  induction l generalizing c with
  | nil => exact ⟨c.disp.ports, rfl⟩
  | cons e rest ih =>
    obtain ⟨ports, h⟩ := ih (if c.present e then c.setPort e { c.port e with rstN := true, rstAt := c.now } else c)
    refine ⟨ports, h.trans ?_⟩
    split <;> rfl

theorem rstN_releaseEach_kept {c : Core} {e : Nat} (l : List Nat) (h : (c.port e).rstN = true) :
    ((c.releaseEach l).port e).rstN = true := by
  induction l generalizing c with
  | nil => exact h
  | cons f rest ih =>
    apply ih
    beta_reduce
    split
    · by_cases he : e = f
      · subst he; rw [Core.port_setPort]
      · rw [Core.port_setPort_other _ _ _ _ he]; exact h
    · exact h

/-- A present port among those that are released is out of reset. -/
theorem rstN_releaseEach {c : Core} {e : Nat} {l : List Nat} (hmem : e ∈ l) (hpresent : c.present e = true) :
    ((c.releaseEach l).port e).rstN = true := by
  induction l generalizing c with
  | nil => exact absurd hmem List.not_mem_nil
  | cons f rest ih =>
    by_cases he : e = f
    · subst he
      refine rstN_releaseEach_kept rest ?_
      beta_reduce
      rw [if_pos hpresent, Core.port_setPort]
    · refine ih ((List.mem_cons.mp hmem).resolve_left he) ?_
      beta_reduce
      split
      · exact hpresent
      · exact hpresent

theorem releasePorts_changes (c : Core) : ∃ ports, c.releasePorts = { c with disp := { c.disp with ports := ports } } :=
  releaseEach_changes c _

theorem rstN_releasePorts {c : Core} {e : Nat} (h : c.present e = true) : (c.releasePorts.port e).rstN = true :=
  rstN_releaseEach (List.mem_range.mpr (of_decide_eq_true (Bool.and_eq_true_iff.mp h).1)) h

/-- What RUN begins with: the count at 0, context 0 open without table or quota, queue 0 counting from 0, and every present port out of
reset. -/
theorem enterRun_begins (c : Core) : c.enterRun.gc.count = 0 ∧ (c.enterRun.ctx 0).st = .opened ∧ (c.enterRun.ctx 0).handleLog2 = 0
    ∧ (c.enterRun.queue 0).compl = 0 ∧ (c.enterRun.ctx 0).spindleMask = 2 ^ c.cfg.spindles - 1
    ∧ (∀ e, c.present e = true → (c.enterRun.port e).rstN = true) ∧ c.enterRun.mem = c.mem := by
  obtain ⟨ports, hports⟩ := releasePorts_changes c.freshWatch.openSystem
  have hctx : c.enterRun.ctx 0 = c.freshWatch.openSystem.ctx 0 := by rw [Core.enterRun, hports]; rfl
  have hport : ∀ e, c.enterRun.port e = c.freshWatch.openSystem.releasePorts.port e := fun _ => rfl
  refine ⟨rfl, ?_, ?_, ?_, ?_, fun e he => ?_, ?_⟩
  · rw [hctx, Core.openSystem, Core.ctx_setCtx]
  · rw [hctx, Core.openSystem, Core.ctx_setCtx]
  · exact congrArg Queue.compl (agetD_aset_self ..)
  · rw [hctx, Core.openSystem, Core.ctx_setCtx]; rfl
  · rw [hport]
    exact rstN_releasePorts he
  · rw [Core.enterRun, hports]; rfl

/-! FW_LOAD (R371, R372) -/

/-- FW_LOAD in BOOT is what Hedge makes of the packet that waits for it. -/
theorem exec_fwLoad {s : State} {p : Packet} (hphase : s.sys.phase = .boot) (hpacket : s.core.bootPacket = some p)
    (hidle : s.sys.hg ≠ .selftest) :
    exec .fwLoad s = .next { s with sys := (fwLoad s.sys s.core p).1, core := (fwLoad s.sys s.core p).2 } := by
  change execFwLoad s = _
  simp only [execFwLoad, if_pos hphase, hpacket, if_neg hidle]

/-- The packet that waits for Hedge stands where the control processor is free (R57, R109). -/
theorem cpFree_of_bootPacket {c : Core} {p : Packet} (h : c.bootPacket = some p) : c.cpFree = true := by
  rw [Core.bootPacket] at h
  split at h
  · split at h
    next hfree => exact hfree.2.2
    next => exact nomatch h
  · exact nomatch h

theorem not_stopped_of_cpFree {c : Core} (h : c.cpFree = true) : c.fe.stopped = false := by
  simpa using (Bool.and_eq_true_iff.mp h).1

section Checked
variable {y : Sys} {c : Core} {p : Packet} (hlive : y.lcs ≠ .decommissioned) (h9 : passes (step9 p (physFaults p 2 0)) = true)
include hlive h9

/-- Past the lifecycle and step 9, FW_LOAD is its verification (R366, R371). -/
theorem fwLoad_checked : fwLoad y c p = match fwVerify y (c.taken 0) p with
    | .error v => if v = vFaulted 2 heldCode then (y, c) else fwFail y (c.taken 0) p v
    | .ok h => if c.dclk % 2 = 0 then fwAdmit y (c.taken 0) p h else (y, c) := by
  have hpre : (do ensure (y.lcs != .decommissioned) (vState 7); step9 p (physFaults p 2 0) : Except Verdict Unit) = .ok () :=
    bind_of_ok (ensure_of _ (bne_iff_ne.mpr hlive)) (passes_unit h9)
  unfold fwLoad
  rw [hpre]
  rfl

theorem fwLoad_admits {h : List Byte} (hverify : fwVerify y (c.taken 0) p = .ok h) (heven : c.dclk % 2 = 0) :
    fwLoad y c p = fwAdmit y (c.taken 0) p h := by
  rw [fwLoad_checked hlive h9, hverify]
  exact if_pos heven

theorem fwLoad_fails {v : Verdict} (hverify : fwVerify y (c.taken 0) p = .error v) (hheld : v ≠ vFaulted 2 heldCode) :
    fwLoad y c p = fwFail y (c.taken 0) p v := by
  rw [fwLoad_checked hlive h9, hverify]
  exact if_neg hheld

theorem fwLoad_waits (hverify : fwVerify y (c.taken 0) p = .error (vFaulted 2 heldCode)) : fwLoad y c p = (y, c) := by
  rw [fwLoad_checked hlive h9, hverify]
  exact if_pos rfl

end Checked

/-- The core of a failed FW_LOAD before its reply: the flag and its HEDGE record. -/
def Core.fwFailed (c : Core) (v : Verdict) : Core := (c.setHedge 0).logHedge 1 0x30 (if v.status = .authFail then v.detail else 0) 0

/-- A failed image sets auth_fail, and the eighth makes a READY Hedge DEAD (R371, Table 15-14). -/
theorem fwFail_counts (y : Sys) (c : Core) (p : Packet) (v : Verdict) :
    (fwFail y c p v).2 = (c.fwFailed v).finalReply 0 (pkTag p) v (pkIrq p) true ∧ (fwFail y c p v).1.phase = y.phase
    ∧ (fwFail y c p v).1.bootFails = min (y.bootFails + 1) 0xFF ∧ bitAt (fwFail y c p v).2.hedge.evt 0 = true
    ∧ (y.hg = .ready → 7 ≤ y.bootFails → (fwFail y c p v).1.hg = .dead)
    ∧ (y.hg = .ready → y.bootFails < 7 → (fwFail y c p v).1.hg = .ready) := by
  refine ⟨rfl, rfl, rfl, ?_, fun hready h7 => if_pos ⟨hready, by omega⟩, fun hready h7 => (if_neg ?_).trans hready⟩
  · obtain ⟨e, w, l, hflag⟩ := setHedge_logHedge_changes c 0 1 0x30 (if v.status = .authFail then v.detail else 0) 0
    rw [fwFail]
    dsimp only
    rw [(answeredFrom_finalReply ..).hedge, hflag]
    exact bitAt_hedgeFlag c (by omega)
  · exact fun h => absurd h.2 (by omega)

/-- An admitted image: Hedge BOOTED with its versions, and RUN begun (R372). -/
theorem fwAdmit_begins {y : Sys} {c : Core} (p : Packet) (h : List Byte) :
    (fwAdmit y c p h).1 = { y with hg := .booted, fwVersion := bWord h 1 / 2 ^ 32 % 2 ^ 24, secVersion := bWord h 1 % 2 ^ 32, phase := .run,
                                   since := c.now }
    ∧ (fwAdmit y c p h).2.gc.count = 0 ∧ ((fwAdmit y c p h).2.ctx 0).st = .opened ∧ ((fwAdmit y c p h).2.ctx 0).handleLog2 = 0
    ∧ ((fwAdmit y c p h).2.queue 0).compl = 0 ∧ ((fwAdmit y c p h).2.ctx 0).spindleMask = 2 ^ c.cfg.spindles - 1
    ∧ (∀ e, c.present e = true → ((fwAdmit y c p h).2.port e).rstN = true) ∧ (fwAdmit y c p h).2.mem = c.mem := by
  have hkept : AnsweredFrom c ((c.finalReply 0 (pkTag p) vOk (pkIrq p) true).logHedge 8 0 0 0) :=
    (answeredFrom_finalReply ..).trans (answeredFrom_log ..)
  obtain ⟨hcount, hst, hlog2, hcompl, hmask, hports, hmem⟩ := enterRun_begins ((c.finalReply 0 (pkTag p) vOk (pkIrq p) true).logHedge 8 0 0 0)
  exact ⟨rfl, hcount, hst, hlog2, hcompl, hmask.trans (by rw [hkept.cfg]), fun e he => hports e (by rw [hkept.present]; exact he),
    hmem.trans hkept.mem⟩

/-- Settles O14: a good image by the entry to RUN, a bad one by what its failure counts, and the waits by the guards. -/
theorem fwLoadVerifiesImage : Obligations.FwLoadVerifiesImage := by
  unfold Obligations.FwLoadVerifiesImage
  refine ⟨fun s p h hphase hpacket hidle hlive h9 heven hverify => ?_, fun s p v hphase hpacket hidle hlive h9 hverify hheld => ?_,
    fun s p hphase hpacket hwaits => ?_⟩
  · obtain ⟨hsys, hcount, hst, hlog2, hcompl, hmask, hports, hmem⟩ := fwAdmit_begins (y := s.sys) (c := s.core.taken 0) p h
    have hexec := exec_fwLoad hphase hpacket hidle
    rw [fwLoad_admits hlive h9 hverify heven] at hexec
    refine ⟨_, hexec, ?_, ?_, ?_, ?_, ?_, hcount, hst, hlog2, hcompl, hmask, hports, hmem⟩ <;> rw [hsys]
  · obtain ⟨hreply, hstays, hfails, hflag, hdead, hready⟩ := fwFail_counts s.sys (s.core.taken 0) p v
    have hexec := exec_fwLoad hphase hpacket hidle
    rw [fwLoad_fails hlive h9 hverify hheld] at hexec
    refine ⟨_, (s.core.taken 0).fwFailed v, hexec, ?_, hstays.trans hphase, hfails, hflag, hdead, hready⟩
    rw [hreply, State.replied, State.withCore]
  · by_cases hidle : s.sys.hg = .selftest
    · change execFwLoad s = _
      simp only [execFwLoad, if_pos hphase, hpacket, if_pos hidle]
    · obtain ⟨hlive, h9, hverify⟩ := hwaits.resolve_left hidle
      rw [exec_fwLoad hphase hpacket hidle, fwLoad_waits hlive h9 hverify]

/-! Tokens (R374, R375) -/

theorem takes_taken {s : State} {op n : Nat} {p : Packet} (h : s.takes op n p = true) :
    s.running = true ∧ s.core.cpFree = true ∧ s.core.takes op = some p := by
  simp only [State.takes, Bool.and_eq_true, decide_eq_true_eq, beq_iff_eq] at h
  obtain ⟨⟨⟨⟨hrunning, hfree⟩, hnext⟩, hop⟩, hstate⟩ := h
  refine ⟨hrunning, hfree, ?_⟩
  rw [Core.takes, if_neg (by simp [hfree]), hnext]
  exact if_pos ⟨hop, hstate⟩

theorem readBytes_taken (c : Core) (n a len : Nat) : (c.taken n).readBytes a len = c.readBytes a len := rfl

theorem unlockOutcome_taken (y : Sys) (c : Core) (n : Nat) (p : Packet) : unlockOutcome y (c.taken n) p = unlockOutcome y c p := by
  rw [unlockOutcome, unlockOutcome]
  simp only [readBytes_taken]
  rfl

theorem exec_debugUnlock {s : State} {n : Nat} {p : Packet} {v : Verdict} {d : Core} (htakes : s.takes 0x91 n p = true)
    (hdone : (s.core.taken n).debugUnlock s.sys p = .ok (.done v d)) :
    exec .debugUnlock s = .next { s.replied n p v d with sys := s.sys.unlocked s.core } := by
  have hrun : s.sys.phase = .run := by simpa [State.running] using (takes_taken htakes).1
  have hcommand := onCommand_done (run := fun y c _ p => c.debugUnlock y p) htakes hdone
  rw [onCommand, onRun, if_pos hrun] at hcommand
  have htaken := congrArg State.core (Host.Outcome.next.inj hcommand)
  change execDebugUnlock s = _
  rw [execDebugUnlock, if_pos hrun]
  dsimp only at htaken
  rw [htaken, State.replied, State.withCore]

theorem unlocked_granted {y : Sys} {c : Core} {p : Packet} {t : List Byte} {u : Unit} (htakes : c.takes 0x91 = some p)
    (hout : unlockOutcome y c p = .ok (t, .ok u)) :
    y.unlocked c = { y with unlockNet := y.unlockNet || (bWord t 2).testBit 0, unlockScan := y.unlockScan || (bWord t 2).testBit 1,
                            unlockAt := if (bWord t 2).testBit 1 then some (c.now / 48) else y.unlockAt } := by
  simp only [Sys.unlocked, htakes, hout]

theorem unlocked_refused {y : Sys} {c : Core} {p : Packet} {t : List Byte} {v : Verdict} (htakes : c.takes 0x91 = some p)
    (hout : unlockOutcome y c p = .ok (t, .error v)) : y.unlocked c = y := by
  simp only [Sys.unlocked, htakes, hout]

/-- A record of Hedge beside a flag of SZ_HG_EVT keeps the nonce, and the flag is set. -/
theorem setHedge_logHedge_keeps (c : Core) {bit : Nat} (hbit : bit < 48) (reason status detail ctx : Nat) :
    ((c.setHedge bit).logHedge reason status detail ctx).hedge.nonce = c.hedge.nonce
    ∧ bitAt ((c.setHedge bit).logHedge reason status detail ctx).hedge.evt bit = true
    ∧ ((c.setHedge bit).logHedge reason status detail ctx).mem = c.mem := by
  obtain ⟨e, w, l, h⟩ := setHedge_logHedge_changes c bit reason status detail ctx
  rw [h]
  exact ⟨rfl, bitAt_hedgeFlag c hbit, rfl⟩

theorem newHedgeNonce_leaves (y : Sys) (c : Core) :
    (c.newHedgeNonce y).hedge.nonce = (if y.hedgeDown then c.hedge.nonce else Config.freeWord c.free) ∧ (c.newHedgeNonce y).mem = c.mem := by
  rw [Core.newHedgeNonce]
  split
  · exact ⟨rfl, rfl⟩
  · exact ⟨rfl, rfl⟩

/-- A token is accepted only where Hedge is up (R369). -/
theorem hedge_up_of_unlocked {y : Sys} {c : Core} {p : Packet} {t : List Byte} {u : Unit} (h : unlockOutcome y c p = .ok (t, .ok u)) :
    y.hedgeDown = false := by
  cases hdown : y.hedgeDown with
  | false => rfl
  | true =>
    rw [unlockOutcome] at h
    cases hlcs : ensure (y.lcs == .manufacture || y.lcs == .development) (vState 7) with
    | error v => rw [hlcs] at h; exact nomatch h
    | ok _ =>
      cases h9 : step9 p (physFaults p 2 0) with
      | error v => rw [hlcs, h9] at h; exact nomatch h
      | ok _ =>
        cases hlen : ensure (decide (288 ≤ pf p 3 0 32)) (vWord .badHandle 3 3) with
        | error v => rw [hlcs, h9, hlen] at h; exact nomatch h
        | ok _ => rw [hlcs, h9, hlen, hdown] at h; exact nomatch h

/-! The manual grant (R227) -/

theorem exec_szSmGrant {s : State} {v : W64} {acc : Access} (hserved : s.served 0x800008 acc = true)
    (hidle : bitAt s.core.sync.win.status 3 = false) :
    exec (.szSmGrant v acc) s = .next (s.withCore { s.core with sync := { s.core.sync with win := { s.core.sync.win with
      status := setBit (setBit s.core.sync.win.status 2 false) 3 true,
      grantAddr := some (fld v 6 42 * 64 + fld v 48 2 * 2 ^ 48) } } }) := by
  have hwrite : s.core.grantWrite v = some { s.core with sync := { s.core.sync with win := { s.core.sync.win with
      status := setBit (setBit s.core.sync.win.status 2 false) 3 true,
      grantAddr := some (fld v 6 42 * 64 + fld v 48 2 * 2 ^ 48) } } } := if_neg (Bool.eq_false_iff.mp hidle)
  exact onWrite_taken (f := fun _ c => c.grantWrite v) hserved hwrite

theorem exec_grantVerified {s : State} {a : Nat} {r : List Byte × Except Verdict Unit} (hrunning : s.running = true)
    (haddr : s.core.sync.win.grantAddr = some a) (hout : grantOutcome s.sys s.core a = some r) :
    exec .grantVerified s = .next (s.withCore (s.core.grantEnd s.sys r.1 r.2)) := by
  have hend : s.core.grantVerified s.sys = s.core.grantEnd s.sys r.1 r.2 := by
    simp only [Core.grantVerified, haddr, hout]
  exact (onRun_running hrunning _).trans (by rw [hend])

/-- The window once a verification has ended: granted with what word 2 of the token names. -/
theorem grantEnd_granted (y : Sys) (c : Core) (t : List Byte) :
    (c.grantEnd y t (.ok ())).sync.win = { (c.newGrantNonce y).sync.win with
      grantAddr := none,
      status := setFld (setFld (setBit (setBit (c.newGrantNonce y).sync.win.status 3 false) 2 true) 24 6 (bWord t 2 % 64)) 32 16
        (bWord t 2 / 2 ^ 16) } := rfl

theorem grantEnd_refused (y : Sys) (c : Core) (t : List Byte) (v : Verdict) :
    (c.grantEnd y t (.error v)).sync.win = { (c.newGrantNonce y).sync.win with
      grantAddr := none, status := setBit (setBit (setBit (c.newGrantNonce y).sync.win.status 3 false) 2 false) 1 true } := by
  rw [Core.grantEnd, Core.logHedge]
  dsimp only
  rw [(answeredFrom_log ..).sync]
  rfl

theorem nonce_newGrantNonce (y : Sys) (c : Core) :
    (c.newGrantNonce y).sync.win.nonce = if y.hedgeDown then c.sync.win.nonce else Config.freeWord c.free := by
  rw [Core.newGrantNonce]
  split <;> rfl

/-- Settles O15: an unlock by the outcome of its token, the grant by its write and by the end of its verification. -/
theorem tokensAreVerified : Obligations.TokensAreVerified := by
  unfold Obligations.TokensAreVerified
  refine ⟨fun s n p t htakes => ⟨fun u hout => ?_, fun v hout => ?_⟩, fun s v acc hserved hidle => ?_, fun s a r hrunning haddr hout => ?_⟩
  · have hdone : (s.core.taken n).debugUnlock s.sys p
        = .ok (.done vOk ((((s.core.taken n).newHedgeNonce s.sys).setHedge 3).logHedge 4 0 0 0)) := by
      rw [Core.debugUnlock, unlockOutcome_taken, hout]
    obtain ⟨hnonce, hflag, hmem⟩ := setHedge_logHedge_keeps ((s.core.taken n).newHedgeNonce s.sys) (bit := 3) (by omega) 4 0 0 0
    obtain ⟨hdrawn, hbytes⟩ := newHedgeNonce_leaves s.sys (s.core.taken n)
    have hexec := exec_debugUnlock htakes hdone
    rw [unlocked_granted (takes_taken htakes).2.2 hout] at hexec
    refine ⟨_, hexec, hnonce.trans (hdrawn.trans ?_), hflag, hmem.trans hbytes⟩
    rw [hedge_up_of_unlocked hout]
    rfl
  · have hdone : (s.core.taken n).debugUnlock s.sys p
        = .ok (.done v ((((s.core.taken n).newHedgeNonce s.sys).setHedge 0).logHedge 2 0x30 v.detail 0)) := by
      rw [Core.debugUnlock, unlockOutcome_taken, hout]
    obtain ⟨hnonce, hflag, hmem⟩ := setHedge_logHedge_keeps ((s.core.taken n).newHedgeNonce s.sys) (bit := 0) (by omega) 2 0x30 v.detail 0
    obtain ⟨hdrawn, hbytes⟩ := newHedgeNonce_leaves s.sys (s.core.taken n)
    have hexec := exec_debugUnlock htakes hdone
    rw [unlocked_refused (takes_taken htakes).2.2 hout] at hexec
    refine ⟨_, hexec.trans ?_, hnonce.trans hdrawn, hflag, hmem.trans hbytes⟩
    rw [State.replied, State.withCore]
  · refine ⟨_, exec_szSmGrant hserved hidle, bitAt_setBit_self _ _ (by omega), ?_, rfl, rfl⟩
    exact (bitAt_setBit_other _ _ (by omega)).trans (bitAt_setBit_self _ _ (by omega))
  · refine ⟨_, exec_grantVerified hrunning haddr hout, ?_⟩
    obtain ⟨t, _ | ⟨⟨⟩⟩⟩ := r
    · simp only [State.withCore_core, grantEnd_refused]
      refine ⟨nonce_newGrantNonce .., trivial, ?_, nofun, fun _ => ⟨?_, bitAt_setBit_self _ _ (by omega)⟩⟩
      · rw [bitAt_setBit_other _ _ (by omega), bitAt_setBit_other _ _ (by omega), bitAt_setBit_self _ _ (by omega)]
      · rw [bitAt_setBit_other _ _ (by omega), bitAt_setBit_self _ _ (by omega)]
    · simp only [State.withCore_core, grantEnd_granted]
      refine ⟨nonce_newGrantNonce .., trivial, ?_, fun _ => ⟨?_, ?_, fld_setFld_self _ _ (by omega)⟩, nofun⟩
      · rw [bitAt_setFld_outside _ _ (by omega), bitAt_setFld_outside _ _ (by omega), bitAt_setBit_other _ _ (by omega),
          bitAt_setBit_self _ _ (by omega)]
      · rw [bitAt_setFld_outside _ _ (by omega), bitAt_setFld_outside _ _ (by omega), bitAt_setBit_self _ _ (by omega)]
      · rw [fld_setFld_apart _ _ (by omega), fld_setFld_self _ _ (by omega)]
        exact Nat.mod_mod _ 64

end Sys2Proof.Machine
end

section
/-! PROOFS. The fetcher (O19): its grant, an attempt, and what the arrival of a ring line leads to. -/

namespace Sys2Proof.Machine

/-! The grant, the slice, and CHECK (R105, R108) -/

theorem findBelow_first {n i : Nat} {p : Nat → Bool} (hi : i < n) (hp : p i = true) (hfirst : ∀ j, j < i → p j = false) :
    findBelow n p = some i := by
  rw [findBelow, List.find?_range_eq_some]
  exact ⟨hp, List.mem_range.mpr hi, fun j hj => by rw [hfirst j hj]; rfl⟩

theorem fetcherGrant_grants {c : Core} {i : Nat} (hgoing : c.fe.stopped = false) (hfree : c.fe.holder = none) (hi : i < 64)
    (harmed : (c.queue ((c.fe.rot + i) % 64)).fetch = .armed)
    (hfirst : ∀ j, j < i → (c.queue ((c.fe.rot + j) % 64)).fetch ≠ .armed) :
    c.fetcherGrant = { c.setQueue ((c.fe.rot + i) % 64) { c.queue ((c.fe.rot + i) % 64) with fetch := .fetch } with
      fe := { c.fe with holder := some ((c.fe.rot + i) % 64), grantedAt := c.now, sliceOver := false,
                        rot := ((c.fe.rot + i) % 64 + 1) % 64 } } := by
  have hnext : c.nextArmed = some ((c.fe.rot + i) % 64) := by
    have hfound := findBelow_first (p := fun i => (c.queue ((c.fe.rot + i) % 64)).fetch == .armed) hi (beq_iff_eq.mpr harmed)
      fun j hj => beq_eq_false_iff_ne.mpr (hfirst j hj)
    rw [Core.nextArmed, hfound]
    rfl
  rw [Core.fetcherGrant, hgoing, hfree, hnext]
  rfl

theorem exec_fetchSliceEnd {s : State} (hawake : s.awake = true) (hheld : s.core.fe.holder.isSome = true)
    (hpast : s.core.fe.grantedAt + 64 * fld s.core.fe.ctrl 0 8 ≤ s.core.now) :
    exec .fetchSliceEnd s = .next (s.withCore { s.core with fe := { s.core.fe with sliceOver := true } }) := by
  have hended : s.core.sliceEnded = true := by
    rw [Core.sliceEnded, decide_eq_true (by omega), Bool.or_true]
  change execFetchSliceEnd s = _
  rw [execFetchSliceEnd, onBootRun_awake hawake, if_pos (Bool.and_eq_true_iff.mpr ⟨hheld, hended⟩)]

/-! An attempt (R104 to R106) -/

theorem exec_fetchAttempt {s : State} (hawake : s.awake = true) (hgoing : s.core.fe.stopped = false) :
    exec .fetchAttempt s = .next (s.withCore s.core.fetchAttempt) := by
  change execFetchAttempt s = _
  rw [execFetchAttempt, onBootRun_awake hawake, if_neg (Bool.eq_false_iff.mp hgoing)]

section Attempt
variable {c : Core} {n : Nat} (hholder : c.fe.holder = some n) (hnew : c.fe.fetch = none)
include hholder hnew

theorem fetchAttempt_eq : c.fetchAttempt
    = (let q := { c.queue n with p := false }
       if 4096 < sumBy (fun x => 8 * x.length) q.buf + 2040 then c.fetchLeave n { q with fetch := .room }
       else if diff32 q.tail q.head < 2 then c.fetchLeave n { q with fetch := .check }
       else (c.setQueue n q).askLines n q { avail := diff32 q.tail q.head, asked := 0, got := [] } 1) := by
  simp only [Core.fetchAttempt, hholder, hnew]

end Attempt

/-! A line that has arrived (R79, R104, R107) -/

theorem ringIn_failed {c : Core} {n k code : Nat} {ws : List W64} {f : RingFetch} (hfetch : c.fe.fetch = some f)
    (hgoing : c.fe.stopped = false) (hholder : c.fe.holder = some n) (hcode : code ≠ 0) :
    c.ringIn n k code ws = c.fetchHalt n noHandle false (vFaulted 0 code) := by
  simp [Core.ringIn, hfetch, hgoing, hholder, hcode]

theorem ringIn_looks {c : Core} {n k : Nat} {ws : List W64} {f : RingFetch} (hfetch : c.fe.fetch = some f)
    (hgoing : c.fe.stopped = false) (hholder : c.fe.holder = some n) :
    c.ringIn n k 0 ws = c.fetchLook n { f with got := aset f.got k ws } := by
  simp [Core.ringIn, hfetch, hgoing, hholder]

/-- A queue that halts at a packet: its reply is kept for HALT_REPLY, the fetcher is free, and a QUEUE record says so. -/
theorem fetchHalt_halts (c : Core) (n tag : Nat) (irq : Bool) (v : Verdict) :
    (c.fetchHalt n tag irq v).queue n = { c.queue n with
      fetch := .halted,
      haltWith := some { tag := tag, status := v.status, detail := v.detail, count := 0, final := true, irq := irq, gives := false } }
    ∧ (c.fetchHalt n tag irq v).fe = { c.fe with holder := none, sliceOver := false, fetch := none }
    ∧ (c.fetchHalt n tag irq v).mem = c.mem
    ∧ (diff32 c.evt.wr c.evt.rd < 1024 → c.logFresh = true →
        ∃ r, aget (c.fetchHalt n tag irq v).evt.recs (c.evt.wr % 1024) = some r ∧ r.cls = 2 ∧ fld r.w0 16 8 = 2) := by
  refine ⟨?_, (answeredFrom_log ..).fe, (answeredFrom_log ..).mem, fun hroom hf => ?_⟩
  · rw [Core.fetchHalt, Core.queue, queues_logQueue]
    exact agetD_aset_self ..
  · obtain ⟨r, hr, hcls, hw0⟩ := logRaw_stands (c := c.fetchLeave n { c.queue n with
      fetch := .halted,
      haltWith := some { tag := tag, status := v.status, detail := v.detail, count := 0, final := true, irq := irq, gives := false } })
      2 (genW0 v.detail v.status.code 2 n n) _ _ hroom hf
    exact ⟨r, hr, hcls, by rw [hw0, fld_genW0_reason]⟩

/-- Lines asked for one after the other change the Reel port alone. -/
theorem askLines_changes (c : Core) (n : Nat) (q : Queue) (f : RingFetch) (lines : Nat) :
    ∃ r, c.askLines n q f lines = { c with
      reel := r, fe := { c.fe with fetch := some { f with asked := f.asked + min (lines - f.asked) (8 - (f.asked - f.got.length)) } } } := by
  have hreads : ∀ (l : List Nat) (d : Core), ∃ r, l.foldl (fun d i => d.reelRead (q.ringLine (f.asked + i)) (.ringRead n (f.asked + i))) d
      = { d with reel := r } := by
    intro l
    induction l with
    | nil => exact fun d => ⟨d.reel, rfl⟩
    | cons i rest ih =>
      intro d
      obtain ⟨r, hr⟩ := reelIssue_changes d false (tierOf (q.ringLine (f.asked + i))) (q.ringLine (f.asked + i)) []
        (.ringRead n (f.asked + i))
      obtain ⟨r', hr'⟩ := ih { d with reel := r }
      exact ⟨r', by rw [List.foldl_cons, Core.reelRead, hr, hr']⟩
  exact hreads _ _

section Look
variable {c : Core} {n : Nat} {f : RingFetch} {first : List W64} (hfirst : aget f.got 0 = some first)
include hfirst

theorem fetchLook_eq : c.fetchLook n f
    = (let q := c.queue n
       let hd := first.drop (q.head % 8)
       if pkLen hd < 2 then c.fetchHalt n (pkTag hd) (pkIrq hd) { status := .badLength, detail := 0xFF00 + pkLen hd }
       else if f.avail < pkLen hd then c.fetchLeave n { q with fetch := .check }
       else if f.got.length < q.ringLines (pkLen hd) then c.askLines n q f (q.ringLines (pkLen hd))
       else c.fetchWhole n ((((List.range (q.ringLines (pkLen hd))).flatMap fun k => agetD f.got k []).drop (q.head % 8)).take (pkLen hd))) := by
  simp only [Core.fetchLook, hfirst]

end Look

/-- A whole packet stands last in the buffer, and the queue keeps the fetcher while its slice lasts (Table 04-11). -/
theorem fetchWhole_buffers (c : Core) (n : Nat) (p : Packet) :
    ((c.fetchWhole n p).queue n).buf = (c.queue n).buf ++ [p] ∧ ((c.fetchWhole n p).queue n).head = ((c.queue n).head + p.length) % 2 ^ 32
    ∧ (c.sliceEnded = false → (c.fetchWhole n p).fe = { c.fe with fetch := none } ∧ ((c.fetchWhole n p).queue n).fetch = (c.queue n).fetch)
    ∧ (c.sliceEnded = true → (c.fetchWhole n p).fe.holder = none ∧ ((c.fetchWhole n p).queue n).fetch = .armed)
    ∧ (c.fetchWhole n p).mem = c.mem ∧ (∀ m, m ≠ n → (c.fetchWhole n p).queue m = c.queue m) := by
  rw [Core.fetchWhole]
  cases hslice : c.sliceEnded with
  | true =>
    have hqueue : ∀ x, (c.fetchLeave n x).queue n = x := fun x => agetD_aset_self ..
    simp only [if_true, hqueue]
    exact ⟨trivial, trivial, nofun, fun _ => ⟨rfl, trivial⟩, rfl, fun m hm => agetD_aset_other _ _ _ _ _ hm⟩
  | false =>
    have hqueue : ∀ x f, ({ c.setQueue n x with fe := f } : Core).queue n = x := fun x f => agetD_aset_self ..
    simp only [Bool.false_eq_true, if_false, hqueue]
    exact ⟨trivial, trivial, fun _ => ⟨trivial, trivial⟩, nofun, rfl, fun m hm => agetD_aset_other _ _ _ _ _ hm⟩

/-- Settles O19: the grant by the first ARMED queue from the pointer, an attempt by the room and the words there are, a line by what
the lines that have arrived spell. -/
theorem fetchersTakePackets : Obligations.FetchersTakePackets := by
  unfold Obligations.FetchersTakePackets
  refine ⟨fun s hawake => ⟨fun hgoing hfree i hi harmed hfirst => ?_, fun hheld hpast => ?_, fun n hcheck => ?_⟩,
    fun s n hawake hgoing hholder hnew => ?_, fun c n k code ws f0 hfetch hgoing hholder => ?_⟩
  · change execFetcherGrant s = _
    rw [execFetcherGrant, onBootRun_awake hawake, fetcherGrant_grants hgoing hfree hi harmed hfirst]
  · exact exec_fetchSliceEnd hawake hheld hpast
  · change execCheckEnd n s = _
    rw [execCheckEnd, onBootRun_awake hawake, if_pos hcheck]
  · intro q leaves room
    have hexec := exec_fetchAttempt hawake hgoing
    rw [fetchAttempt_eq hholder hnew] at hexec
    refine ⟨fun hfull => ?_, fun hroom hfew => ?_, fun hroom hwords => ?_⟩
    · exact hexec.trans (by rw [if_pos hfull]; rfl)
    · exact hexec.trans (by rw [if_neg (Nat.not_lt.mpr hroom), if_pos hfew]; rfl)
    · exact hexec.trans (by rw [if_neg (Nat.not_lt.mpr hroom), if_neg (Nat.not_lt.mpr hwords)]; rfl)
  · intro q f d halts
    refine ⟨fun hcode => ?_, fun hcode first hfirst => ?_⟩
    · have hd : d = c.fetchHalt n noHandle false (vFaulted 0 code) := ringIn_failed hfetch hgoing hholder hcode
      obtain ⟨hqueue, hfe, hmem, hrec⟩ := fetchHalt_halts c n noHandle false (vFaulted 0 code)
      rw [← hd] at hqueue hfe hmem hrec
      exact ⟨hqueue.trans (by rw [vFaulted, vWord, Nat.zero_mul, Nat.zero_add]; rfl), hfe, hmem, hrec⟩
    · subst hcode
      intro hd
      have hlook : d = c.fetchLook n f := ringIn_looks hfetch hgoing hholder
      rw [fetchLook_eq hfirst] at hlook
      refine ⟨fun hshort => ?_, fun hlen hbeyond => ?_, fun hlen hwithin hmissing => ?_, fun hlen hwithin hall => ?_⟩
      · have hhalt := hlook.trans (if_pos hshort)
        obtain ⟨hqueue, hfe, hmem, hrec⟩ := fetchHalt_halts c n (pkTag hd) (pkIrq hd) { status := .badLength, detail := 0xFF00 + pkLen hd }
        rw [← hhalt] at hqueue hfe hmem hrec
        exact ⟨hqueue, hfe, hmem, hrec⟩
      · exact (hlook.trans (if_neg (Nat.not_lt.mpr hlen))).trans (if_pos hbeyond)
      · have hask := ((hlook.trans (if_neg (Nat.not_lt.mpr hlen))).trans (if_neg (Nat.not_lt.mpr hwithin))).trans (if_pos hmissing)
        obtain ⟨r, hr⟩ := askLines_changes c n q f (q.ringLines (pkLen hd))
        rw [hask.trans hr]
        refine ⟨_, rfl, rfl, rfl, ?_, Nat.le_add_right .., rfl, rfl⟩
        dsimp only
        omega
      · have hwhole := ((hlook.trans (if_neg (Nat.not_lt.mpr hlen))).trans (if_neg (Nat.not_lt.mpr hwithin))).trans
          (if_neg (Nat.not_lt.mpr hall))
        obtain ⟨hbuf, hhead, hkeeps, hleaves, hmem, hothers⟩ := fetchWhole_buffers c n
          ((((List.range (q.ringLines (pkLen hd))).flatMap fun i => agetD f.got i []).drop (q.head % 8)).take (pkLen hd))
        rw [hwhole]
        exact ⟨_, hbuf, rfl, hhead, hkeeps, hleaves, hmem, hothers⟩

end Sys2Proof.Machine
end

section
/-! PROOFS. Distaff's checks and the writes of replies (O20): the order of the packets that have been offered, a reply that halts its queue,
and what the acknowledgement of a reply leaves of its queue. -/

namespace Sys2Proof.Machine

/-! Steps 1 to 7 (R77, R109) -/

/-- A front packet whose queue is not held, by its verdict and by its fence. -/
theorem frontChecks_front {c : Core} {n : Nat} {p : Packet} {rest : List Packet} (boot : Bool) (hgoing : c.fe.stopped = false)
    (hheld : c.replyHeld n = false) (hcur : (c.queue n).cur = .none) (hbuf : (c.queue n).buf = p :: rest) :
    c.frontChecks boot n
      = (let q := Queue.room { c.queue n with buf := rest }
         match frontVerdict n p with
         | some v => (c.setQueue n q).finalReply n (pkTag p) v (pkIrq p) true
         | none =>
           if fenceMet p (c.queue n).compl then
             if boot && pkOp p != 0x90 then (c.setQueue n q).finalReply n (pkTag p) (vState 2) (pkIrq p) true
             else { c.setQueue n { q with cur := .offered p, passedAt := c.pclk } with fe := { c.fe with offered := c.offerOrder n } }
           else c) := by
  unfold Core.frontChecks
  dsimp only
  split
  next p' rest' _ hbuf' =>
    obtain ⟨rfl, rfl⟩ := List.cons.inj (hbuf.symm.trans hbuf')
    exact if_neg (by rw [hgoing, hheld]; exact Bool.false_ne_true)
  next hnone => exact absurd hbuf (hnone _ _ hcur)

theorem exec_frontEndChecks {s : State} {n : Nat} (hn : n < 64) (hrunning : s.running = true) :
    exec (.frontEndChecks n) s = .next (s.withCore (s.core.frontChecks false n)) := by
  have hrun : s.sys.phase = .run := by simpa [State.running] using hrunning
  change execFrontEndChecks n s = _
  rw [execFrontEndChecks, if_pos hn, onBootRun_awake (by simp [State.awake, hrun]), hrun]
  rfl

section Checks
variable {s : State} {n : Nat} {p : Packet} {rest : List Packet} (hn : n < 64) (hrunning : s.running = true)
  (hgoing : s.core.fe.stopped = false) (hheld : s.core.replyHeld n = false) (hcur : (s.core.queue n).cur = .none)
  (hbuf : (s.core.queue n).buf = p :: rest)
include hn hrunning hgoing hheld hcur hbuf

/-- A packet that passes steps 2 to 7 is offered. -/
theorem exec_frontEndChecks_offers (hpass : frontVerdict n p = none) (hfence : fenceMet p (s.core.queue n).compl = true) :
    exec (.frontEndChecks n) s = .next (s.withCore
      { s.core.setQueue n { Queue.room { s.core.queue n with buf := rest } with cur := .offered p, passedAt := s.core.pclk } with
        fe := { s.core.fe with offered := s.core.offerOrder n } }) := by
  rw [exec_frontEndChecks hn hrunning, frontChecks_front false hgoing hheld hcur hbuf, hpass]
  dsimp only
  rw [if_pos hfence, Bool.false_and, if_neg Bool.false_ne_true]

theorem exec_frontEndChecks_fails {v : Verdict} (hfail : frontVerdict n p = some v) :
    exec (.frontEndChecks n) s
      = .next (s.replied n p v (s.core.setQueue n (Queue.room { s.core.queue n with buf := rest }))) := by
  rw [exec_frontEndChecks hn hrunning, frontChecks_front false hgoing hheld hcur hbuf, hfail]
  rfl

end Checks

theorem insertBy_last {α : Type} {before : α → α → Bool} {x : α} {l : List α} (h : ∀ y ∈ l, before x y = false) :
    insertBy before x l = l ++ [x] := by
  induction l with
  | nil => rfl
  | cons y rest ih =>
    rw [insertBy, if_neg (by rw [h y List.mem_cons_self]; exact Bool.false_ne_true), ih fun z hz => h z (List.mem_cons_of_mem _ hz)]
    rfl

/-- A packet stands behind those that passed in earlier PCLK (R109). -/
theorem offerOrder_later {c : Core} {n : Nat} (h : ∀ m ∈ c.fe.offered, (c.queue m).passedAt < c.pclk) :
    c.offerOrder n = c.fe.offered ++ [n] := by
  refine insertBy_last fun m hm => ?_
  by_cases hmn : m = n
  · simp [hmn, keysLt]
  · simp [hmn, keysLt, h m hm, Nat.lt_asymm (h m hm)]

/-- A packet stands before one of a higher number that passed in the same PCLK (R109). -/
theorem offerOrder_same {c : Core} {n m : Nat} (h : c.fe.offered = [m]) (hlt : n < m) (hsame : (c.queue m).passedAt = c.pclk) :
    c.offerOrder n = [n, m] := by
  rw [Core.offerOrder, h]
  simp [insertBy, Nat.ne_of_gt hlt, hsame, keysLt, hlt]

/-! HALT_REPLY (R107) -/

theorem exec_haltReply {s : State} {n : Nat} {r : Reply} (hn : n < 64) (hawake : s.awake = true) (hgoing : s.core.fe.stopped = false)
    (hhalt : (s.core.queue n).haltWith = some r) (hcur : (s.core.queue n).cur = .none) (hbuf : (s.core.queue n).buf = []) :
    exec (.haltReply n) s = .next (s.withCore ((s.core.setQueue n { s.core.queue n with haltWith := none }).finalReplyOf n r.tag
      { status := r.status, detail := r.detail } r.irq false none true)) := by
  change execHaltReply n s = _
  rw [execHaltReply, if_pos hn, onBootRun_awake hawake]
  simp only [Core.haltReply, hhalt, hcur, hbuf, Core.mute, hgoing, Bool.false_and, Bool.false_eq_true, if_false]

/-! A reply that has been written (R110, R111) -/

theorem queue_setQueueFlag (c : Core) (n bit : Nat) :
    (c.setQueueFlag n bit).queue n = { c.queue n with status := setBit (c.queue n).status bit true } := agetD_aset_self ..

theorem queue_reelWrite (c : Core) (a : Nat) (bs : List Byte) (sv : Serves) (n : Nat) : (c.reelWrite a bs sv).queue n = c.queue n := by
  obtain ⟨r, h⟩ := reelWrite_changes c a bs sv
  rw [h]
  rfl

/-- The queue once a reply of it has been written, but for the mirror word and the interrupt cause. -/
theorem replyDone_leaves (c : Core) (n : Nat) (r : Reply) :
    ((c.replyDone n r).queue n).rplTail = (((c.haltFlag n r).queue n).rplTail + 1) % 2 ^ 32 ∧ ((c.replyDone n r).queue n).writing = none
    ∧ bitAt ((c.replyDone n r).queue n).status 2 = bitAt ((c.haltFlag n r).queue n).status 2 := by
  generalize hd : c.haltFlag n r = d
  rw [Core.replyDone, hd]
  dsimp only
  have htrim : ∀ x, (if r.rest.isSome then (d.setQueue n x).relocTrim else d.setQueue n x).queue n = x := by
    intro x
    split <;> exact Core.queue_setQueue d n x
  split
  · rw [queue_reelWrite, Core.queue_setQueue]
    exact ⟨rfl, rfl, rfl⟩
  · split
    · rw [Core.replyIrq, queue_setQueueFlag, htrim]
      exact ⟨rfl, rfl, bitAt_setBit_other _ _ (by omega)⟩
    · rw [htrim]
      exact ⟨rfl, rfl, rfl⟩

theorem rplTail_haltFlag (c : Core) (n : Nat) (r : Reply) : ((c.haltFlag n r).queue n).rplTail = (c.queue n).rplTail := by
  rw [Core.haltFlag]
  split
  · rw [queue_setQueueFlag]
  · rfl

theorem haltFlag_flags {c : Core} {n : Nat} {r : Reply} (h : r.halts = true) : bitAt ((c.haltFlag n r).queue n).status 2 = true := by
  rw [Core.haltFlag, if_pos h, queue_setQueueFlag]
  exact bitAt_setBit_self _ _ (by omega)

/-! REPLY_WRITE and RPL_FREE (R98, R110) -/

theorem exec_replyWrite {s : State} {n : Nat} {r : Reply} {rest : List Reply} (hn : n < 64) (hawake : s.awake = true)
    (hidle : (s.core.queue n).writing = none) (hreplies : (s.core.queue n).replies = r :: rest) (hroom : (s.core.queue n).hasRoom = true)
    (hfirst : s.core.afterQueueZero n r = false) :
    exec (.replyWrite n) s = .next (s.withCore
      ((s.core.setQueue n { s.core.queue n with replies := rest, writing := some r,
                                                cur := if r.gives then .none else (s.core.queue n).cur }).reelWrite
        ((s.core.queue n).replyAddr (s.core.queue n).rplTail) (wordBytes r.word0 ++ wordBytes (w64 r.count)) (.reply n r))) := by
  change execReplyWrite n s = _
  rw [execReplyWrite, if_pos hn, onBootRun_awake hawake]
  simp only [Core.replyWrite, hidle, hreplies, hroom, hfirst, Bool.not_false, Bool.and_self, if_true, Queue.giveWay]
  cases r.gives <;> rfl

theorem exec_rplFree {s : State} {n : Nat} {v : W64} {acc : Access} (hn : n < 64) (hserved : s.served (0x100010 + 0x1000 * n) acc = true)
    (hwithin : diff32 (fld v 0 32) (s.core.queue n).rplFree ≤ diff32 (s.core.queue n).rplTail (s.core.queue n).rplFree) :
    exec (.rplFree n v acc) s = .next (s.withCore (s.core.setQueue n { s.core.queue n with rplFree := fld v 0 32 })) := by
  have hwrite : s.core.rplFreeWrite n v = some (s.core.setQueue n { s.core.queue n with rplFree := fld v 0 32 }) := if_pos hwithin
  change execRplFree n v acc s = _
  rw [execRplFree, if_pos hn]
  exact onWrite_taken (f := fun _ c => c.rplFreeWrite n v) hserved hwrite

/-- Settles O20: the front packet by its verdict, the halting packet by its reply, a reply by its write and by what its acknowledgement
leaves. -/
theorem frontEndChecksAndReplies : Obligations.FrontEndChecksAndReplies := by
  unfold Obligations.FrontEndChecksAndReplies
  refine ⟨fun s n p rest hn hrunning hgoing hheld hcur hbuf => ⟨fun hpass hfence => ?_, fun v hfail => ?_⟩,
    fun s n r hn hawake hgoing hhalt hcur hbuf hfetch => ?_, fun c n r => ?_,
    fun s n r rest hn hawake hidle hreplies hroom hfirst => exec_replyWrite hn hawake hidle hreplies hroom hfirst,
    fun s n v acc hn hserved hwithin => exec_rplFree hn hserved hwithin⟩
  · exact ⟨_, exec_frontEndChecks_offers hn hrunning hgoing hheld hcur hbuf hpass hfence, offerOrder_later,
      fun m hoffered hlt hsame => offerOrder_same hoffered hlt hsame⟩
  · exact exec_frontEndChecks_fails hn hrunning hgoing hheld hcur hbuf hfail
  · have hm : (s.core.setQueue n { s.core.queue n with haltWith := none }).mute { status := r.status, detail := r.detail } = false := by
      rw [Core.mute, Core.setQueue_fe, hgoing, Bool.false_and]
    have hframe := answeredFrom_finalReplyOf (s.core.setQueue n { s.core.queue n with haltWith := none }) n r.tag
      { status := r.status, detail := r.detail } r.irq false none true
    have hqueues := queues_finalReplyOf (c := s.core.setQueue n { s.core.queue n with haltWith := none }) n r.tag r.irq false none true hm
    rw [Core.queue_setQueue, answered_on (by rw [hfetch]; nofun)] at hqueues
    refine ⟨_, exec_haltReply hn hawake hgoing hhalt hcur hbuf, ?_, fun m hm => ?_, hframe.mem, hframe.graph⟩
    · rw [State.withCore_core, Core.queue, hqueues, agetD_aset_self]
      rfl
    · rw [State.withCore_core, Core.queue, hqueues, agetD_aset_other _ _ _ _ _ hm]
      exact Core.queue_setQueue_other _ _ _ _ hm
  · obtain ⟨htail, hwriting, hstatus⟩ := replyDone_leaves c n r
    exact ⟨htail.trans (by rw [rplTail_haltFlag]), hwriting, fun hhalts => hstatus.trans (haltFlag_flags hhalts)⟩

end Sys2Proof.Machine
end

section
/-! PROOFS. Responses of the Reel port, and what a write leaves in memory (O60). -/

namespace Sys2Proof.Machine

theorem length_removeFirst {α : Type} {p : α → Bool} {l : List α} (h : ∃ x ∈ l, p x = true) : (removeFirst p l).length + 1 = l.length := by
  induction l with
  | nil =>
    obtain ⟨x, hx, -⟩ := h
    exact absurd hx List.not_mem_nil
  | cons a rest ih =>
    by_cases ha : p a = true
    · rw [removeFirst, if_pos ha, List.length_cons]
    · rw [removeFirst, if_neg ha, List.length_cons, ih, List.length_cons]
      obtain ⟨x, hx, hp⟩ := h
      rcases List.mem_cons.mp hx with rfl | hx
      · exact absurd hp ha
      · exact ⟨x, hx, hp⟩

/-! Bytes under a mask that covers them all (R33, R409) -/

/-- Cells at consecutive addresses are a run of bytes. -/
theorem memPutCells_run (m : List Host.Cell) (a : Nat) (l : List Byte) :
    memPutCells m (((List.range l.length).map (a + ·)).zip l) = memPutBytes m a l := by
  induction l generalizing m a with
  | nil => rfl
  | cons b rest ih =>
    rw [List.length_cons, List.range_succ_eq_map, List.map_cons, List.map_map, List.zip_cons_cons, memPutCells, memPutBytes, ← ih]
    congr 3
    funext i
    exact (Nat.add_right_comm a i 1 : a + i + 1 = a + 1 + i)

theorem cells_run (a : Nat) (l : List Byte) :
    ((List.range l.length).map (a + ·)).map (fun x => (x, l.getD (x - a) 0)) = ((List.range l.length).map (a + ·)).zip l := by
  refine List.ext_getElem (by simp) fun i hi _ => ?_
  have hlen : i < l.length := by simpa using hi
  simp [hlen]

theorem memGet_memPutBytes_inside {m : List Host.Cell} (a : Nat) {l : List Byte} (h : memWf m = true) {i : Nat} (hi : i < l.length) :
    memGet (memPutBytes m a l) (a + i) = l.getD i 0 := by
  induction l generalizing m a i with
  | nil => exact absurd hi (Nat.not_lt_zero i)
  | cons b rest ih =>
    cases i with
    | zero => rw [Nat.add_zero, memPutBytes, memGet_memPutBytes_outside _ _ (.inl (Nat.lt_succ_self a)), memGet_memPut a b h, if_pos rfl]; rfl
    | succ i =>
      rw [memPutBytes, show a + (i + 1) = a + 1 + i by omega, ih (a + 1) (memPut_wf a b h) (Nat.lt_of_succ_lt_succ hi)]
      rfl

/-- The bytes that free content gives a run. -/
def Core.freeRun (c : Core) (n : Nat) : List Byte := (List.range n).map fun i => Config.freeByte (c.free + i)

theorem length_freeRun (c : Core) (n : Nat) : (c.freeRun n).length = n := by
  rw [Core.freeRun, List.length_map, List.length_range]

theorem mem_freeBytes_run (c : Core) (a n : Nat) :
    (c.freeBytes ((List.range n).map (a + ·))).mem = memPutBytes c.mem a (c.freeRun n) := by
  rw [← memPutCells_run, length_freeRun, Core.freeBytes]
  simp only [List.length_map, List.length_range]
  rfl

section Written
variable {c : Core} {r : ReelReq} (hplain : ∀ n a i, r.serves ≠ .testWrite n a i)
include hplain

theorem covers_plain : r.covers = (List.range r.data.length).map (r.addr + ·) := by
  rw [ReelReq.covers]
  split
  next n a i h => exact absurd h (hplain n a i)
  next => rfl

theorem mem_ackMemory_ok : (c.ackMemory r 0).mem = memPutBytes c.mem r.addr r.data := by
  rw [Core.ackMemory, if_pos rfl]
  dsimp only
  rw [covers_plain hplain, cells_run, memPutCells_run]

theorem mem_ackMemory_poison {code : Nat} (h0 : code ≠ 0) (h1 : code ≠ 1) :
    (c.ackMemory r code).mem = memPutBytes c.mem r.addr (c.freeRun r.data.length) := by
  rw [Core.ackMemory, if_neg h0, if_neg h1, covers_plain hplain, ← mem_freeBytes_run]
  dsimp only
  split <;> rfl

end Written

theorem mem_ackMemory_decode (c : Core) (r : ReelReq) : (c.ackMemory r 1).mem = c.mem := rfl

/-! REEL_RESPONSE (R34, R58) -/

section Response
variable {s : State} {chan tag status : Nat} {write : Bool} {stores : List Host.Cell} {bad : List (Nat × Nat)}

/-- What the response finds: the stores of outside agents, and the lines that answer badly from now on. -/
def State.atResponse (s : State) (stores : List Host.Cell) (bad : List (Nat × Nat)) : Core :=
  bad.foldl (fun d l => d.markLine l.1 l.2) (s.core.store stores)

variable (hporst : s.sys.porst = false) (hwf : (Instr.reelResponse chan tag write status stores bad).wf = true)
include hporst hwf

theorem exec_reelResponse_owned {r : ReelReq} (howner : (s.atResponse stores bad).reelOwner chan tag write = some r) :
    exec (.reelResponse chan tag write status stores bad) s = .next (s.withCore ((s.atResponse stores bad).reelAnswer r status)) := by
  change execReelResponse chan tag write status stores s bad = _
  rw [execReelResponse, hporst, hwf, Bool.not_true, Bool.or_self, if_neg Bool.false_ne_true]
  dsimp only
  rw [show bad.foldl (fun d l => d.markLine l.1 l.2) (s.core.store stores) = s.atResponse stores bad from rfl, howner]
  rfl

/-- A response that no request waits for: one that DRAIN waits for, one that comes after DRAIN, or any other. -/
theorem exec_reelResponse_unowned (howner : (s.atResponse stores bad).reelOwner chan tag write = none) :
    exec (.reelResponse chan tag write status stores bad) s
      = if s.sys.drainOwed.contains (chan, tag) then
          .next { s with core := s.atResponse stores bad,
                         sys := { s.sys with drainOwed := removeFirst (fun p => p == (chan, tag)) s.sys.drainOwed } }
        else if s.sys.drainLate.contains (chan, tag) then
          .next { s with core := (s.atResponse stores bad).logPort 4 chan tag status,
                         sys := { s.sys with drainLate := removeFirst (fun p => p == (chan, tag)) s.sys.drainLate } }
        else .next (s.withCore ((s.atResponse stores bad).logPort 1 chan tag status)) := by
  change execReelResponse chan tag write status stores s bad = _
  rw [execReelResponse, hporst, hwf, Bool.not_true, Bool.or_self, if_neg Bool.false_ne_true]
  dsimp only
  rw [show bad.foldl (fun d l => d.markLine l.1 l.2) (s.core.store stores) = s.atResponse stores bad from rfl, howner]
  rfl

end Response

theorem removed_of_contains {l : List (Nat × Nat)} {x : Nat × Nat} (h : l.contains x = true) :
    (removeFirst (fun p => p == x) l).length + 1 = l.length :=
  length_removeFirst ⟨x, List.contains_iff_mem.mp h, beq_self_eq_true x⟩

/-- Settles O60: a response by what waits for it, and memory by the code of the answer. -/
theorem reelResponsesAnswered : Obligations.ReelResponsesAnswered := by
  unfold Obligations.ReelResponsesAnswered
  refine ⟨fun s chan tag write status stores bad hporst hwf => ?_, fun c r hmem hplain => ⟨fun hkeeps code => ?_, fun htier hwrite => ?_⟩⟩
  · intro c i
    have hunowned := exec_reelResponse_unowned (s := s) hporst hwf
    refine ⟨fun r howner => exec_reelResponse_owned hporst hwf howner, fun howner howed => ?_, fun howner hnot hlate => ?_,
      fun howner hnot hlate => ?_⟩
    · exact ⟨_, (hunowned howner).trans (if_pos howed), rfl, removed_of_contains howed, rfl⟩
    · refine ⟨_, ((hunowned howner).trans (if_neg (Bool.eq_false_iff.mp hnot))).trans (if_pos hlate), rfl, removed_of_contains hlate, rfl⟩
    · exact ((hunowned howner).trans (if_neg (Bool.eq_false_iff.mp hnot))).trans (if_neg (Bool.eq_false_iff.mp hlate))
  · rw [Core.rspMemory]
    split
    next => rfl
    next htier =>
      rw [if_neg (Bool.eq_false_iff.mp (hkeeps.resolve_left htier))]
      rfl
  · have hrsp : ∀ code, c.rspMemory r code = c.ackMemory r code := fun code => (if_neg htier).trans (if_pos hwrite)
    refine ⟨fun code a houtside => ?_, ?_, ?_, fun i hi => ?_⟩
    · rw [hrsp]
      by_cases h0 : code = 0
      · rw [h0, mem_ackMemory_ok hplain, memGet_memPutBytes_outside _ _ houtside]
      · by_cases h1 : code = 1
        · rw [h1, mem_ackMemory_decode]
        · rw [mem_ackMemory_poison hplain h0 h1, memGet_memPutBytes_outside _ _ (by rw [length_freeRun]; exact houtside)]
    · rw [hrsp, mem_ackMemory_ok hplain, memBytes_memPutBytes _ _ hmem]
    · rw [hrsp, mem_ackMemory_decode]
    · rw [hrsp, mem_ackMemory_poison hplain (by omega) (by omega), memGet_memPutBytes_inside _ hmem (by rw [length_freeRun]; exact hi)]
      simp [Core.freeRun, hi]

end Sys2Proof.Machine
end

section
/-! PROOFS. CANCEL, STOP_AT, STOP_COUNT and RESUME (O33): a stop whose point is reached, and the detail of a run's final reply. -/

namespace Sys2Proof.Machine

/-! A stop that is reached (R82, R90, R285) -/

theorem stopReached_eq {c : Core} {n : Nat} {a : StopArm} (harmed : (c.ctx n).stop = some a) (hopen : (c.ctx n).st = .opened) :
    c.stopReached n = (let d := c.stopCtx n .stopped
      (d.setCtx n { d.ctx n with stop := none }).finalReply n a.tag vOk a.irq false) := by
  simp only [Core.stopReached, harmed, hopen, if_true]

theorem ctx_stopCtx (c : Core) (n : Nat) (st : CtxState) :
    (c.stopCtx n st).ctx n = { c.ctx n with st := st, det := setBit (c.ctx n).det 1 true } := by
  change ((c.setCtx n { c.ctx n with st := st }).setDet n 1).ctx n = _
  rw [setDet_setCtx, Core.ctx_setCtx]

theorem ctx_stopCtx_other {c : Core} {n m : Nat} (st : CtxState) (h : m ≠ n) : (c.stopCtx n st).ctx m = c.ctx m := by
  change ((c.setCtx n { c.ctx n with st := st }).setDet n 1).ctx m = _
  rw [setDet_setCtx, Core.ctx_setCtx_other _ _ _ _ h]
  rfl

/-- A context whose stop is reached is STOPPED with timing broken and nothing armed, and its queue has the final reply of the STOP_AT. -/
theorem stopReached_stops {c : Core} {n : Nat} {a : StopArm} (harmed : (c.ctx n).stop = some a) (hopen : (c.ctx n).st = .opened)
    (hgoing : c.fe.stopped = false) :
    ((c.stopReached n).ctx n).st = .stopped ∧ ((c.stopReached n).ctx n).stop = none ∧ bitAt ((c.stopReached n).ctx n).det 1 = true
    ∧ ((c.stopReached n).queue n).compl = ((c.queue n).compl + 1) % 2 ^ 64
    ∧ (∀ m, m ≠ n → (c.stopReached n).ctx m = c.ctx m ∧ (c.stopReached n).queue m = c.queue m) ∧ (c.stopReached n).mem = c.mem := by
  have hm : ((c.stopCtx n .stopped).setCtx n { (c.stopCtx n .stopped).ctx n with stop := none }).mute vOk = false := by
    rw [Core.mute, Core.setCtx_fe, show (c.stopCtx n .stopped).fe.stopped = false from hgoing, Bool.false_and]
  rw [stopReached_eq harmed hopen]
  dsimp only
  rw [ctx_finalReply n a.tag a.irq false hm, queue_finalReply n a.tag a.irq false hm, Core.ctx_setCtx, ctx_stopCtx]
  refine ⟨rfl, rfl, bitAt_setBit_self _ _ (by omega), compl_answered .., fun m hne => ⟨?_, ?_⟩, (answeredFrom_finalReply ..).mem⟩
  · rw [ctx_finalReply_other _ _ _ _ hne, Core.ctx_setCtx_other _ _ _ _ hne, ctx_stopCtx_other _ hne]
  · rw [queue_finalReply_other _ _ _ _ hne]
    rfl

theorem stopDue_past {c : Core} {n k : Nat} {a : StopArm} (harmed : (c.ctx n).stop = some a) (hpoint : a.point = .atCount k)
    (hpast : k ≤ c.gc.count) : c.stopDue n = c.stopReached n := by
  simp only [Core.stopDue, harmed, hpoint, if_pos hpast]

theorem stopDue_early {c : Core} {n k : Nat} {a : StopArm} (harmed : (c.ctx n).stop = some a) (hpoint : a.point = .atCount k)
    (hearly : c.gc.count < k) : c.stopDue n = c := by
  simp only [Core.stopDue, harmed, hpoint, if_neg (Nat.not_le.mpr hearly)]

theorem stopDue_node {c : Core} {n id node : Nat} {a : StopArm} (harmed : (c.ctx n).stop = some a) (hpoint : a.point = .atNode id node) :
    c.stopDue n = c := by
  simp only [Core.stopDue, harmed, hpoint]

/-! STOP_AT (R90) -/

/-- A context whose STOP_AT has just been armed is looked at; no other is. -/
def Core.stopArmed (c e : Core) (n : Nat) : Core := if (c.ctx n).stop.isNone && (e.ctx n).stop.isSome then e.stopDue n else e

theorem stopArmed_same {c e : Core} {n : Nat} (h : (e.ctx n).stop = (c.ctx n).stop) : c.stopArmed e n = e := by
  rw [Core.stopArmed, h]
  cases (c.ctx n).stop <;> rfl

theorem stopArmed_disarmed {c e : Core} {n : Nat} (h : (e.ctx n).stop = none) : c.stopArmed e n = e := by
  rw [Core.stopArmed, h]
  exact if_neg (by simp)

/-- Where a STOP_AT has armed one context alone, that one is looked at and nothing else follows. -/
theorem foldl_stopArmed {c d : Core} {n : Nat} {l : List Nat} (hmem : n ∈ l) (hsame : ∀ m, m ≠ n → (d.ctx m).stop = (c.ctx m).stop)
    (harmed : (c.ctx n).stop.isNone = true ∧ (d.ctx n).stop.isSome = true)
    (hafter : ∀ m, m ≠ n → ((d.stopDue n).ctx m).stop = (c.ctx m).stop)
    (hdone : d.stopDue n = d ∨ ((d.stopDue n).ctx n).stop = none) : l.foldl c.stopArmed d = d.stopDue n := by
  have hlooked : c.stopArmed d n = d.stopDue n := if_pos (Bool.and_eq_true_iff.mpr harmed)
  have hstays : ∀ l : List Nat, l.foldl c.stopArmed (d.stopDue n) = d.stopDue n := by
    intro l
    induction l with
    | nil => rfl
    | cons m rest ih =>
      rw [List.foldl_cons, show c.stopArmed (d.stopDue n) m = d.stopDue n from ?_, ih]
      by_cases hm : m = n
      · subst hm
        rcases hdone with hsame | hnone
        · rw [hsame, hlooked, hsame]
        · exact stopArmed_disarmed hnone
      · exact stopArmed_same (hafter m hm)
  induction l with
  | nil => exact absurd hmem List.not_mem_nil
  | cons m rest ih =>
    rw [List.foldl_cons]
    by_cases hm : m = n
    · subst hm
      rw [hlooked, hstays]
    · rw [stopArmed_same (hsame m hm)]
      exact ih ((List.mem_cons.mp hmem).resolve_left (Ne.symm hm))

theorem stopAt_count {c : Core} {n : Nat} {p : Packet} (h9 : passes (step9 p []) = true) (hnode : pb p 2 0 = false)
    (hnone : (c.ctx n).stop = none) :
    c.stopAt n p = .ok (.accept (c.setCtx n { c.ctx n with
      stop := some { point := .atCount (pw p 3).toNat, tag := pkTag p, irq := pkIrq p } })) := by
  rw [Core.stopAt, hnode]
  exact bind_of_ok (passes_unit h9) (bind_of_ok (ensure_of _ (by rw [hnone]; rfl)) rfl)

theorem stopAt_node {c : Core} {n : Nat} {p : Packet} {k : Skein} (h9 : passes (step9 p (reservedIn p 3 (fields [(19, 0)]))) = true)
    (hnode : pb p 2 0 = true) (hnone : (c.ctx n).stop = none) (hskein : c.skein n (pf p 2 32 10) = some k) (hin : pf p 3 0 20 < k.nodeCount) :
    c.stopAt n p = .ok (.accept (c.setCtx n { c.ctx n with
      stop := some { point := .atNode k.id (pf p 3 0 20), tag := pkTag p, irq := pkIrq p } })) := by
  rw [Core.stopAt, hnode]
  refine bind_of_ok (passes_unit h9) (bind_of_ok (ensure_of _ (by rw [hnone]; rfl)) ?_)
  rw [if_pos rfl, hskein]
  exact bind_of_ok (ensure_of _ (decide_eq_true hin)) rfl

/-- STOP_AT in RUN: its answer, and then what its point leads to at once. -/
theorem exec_stopAt {s : State} {n : Nat} {p : Packet} {d : Core} (htakes : s.takes 0x26 n p = true)
    (haccept : (s.core.taken n).stopAt n p = .ok (.accept d)) :
    exec .stopAt s = .next (s.withCore ((List.range 64).foldl s.core.stopArmed (d.acceptedReply n p))) := by
  have hrunning := (takes_taken htakes).1
  have hcommand := onCommand_accept (run := fun _ c n p => c.stopAt n p) htakes haccept
  rw [onCommand, onRun_running hrunning] at hcommand
  have htaken := congrArg State.core (Host.Outcome.next.inj hcommand)
  change execStopAt s = _
  rw [execStopAt, onRun_running hrunning]
  dsimp only [State.withCore, State.acceptedWith] at htaken ⊢
  rw [htaken]
  rfl

/-- A context armed by an accepted STOP_AT. -/
def Core.armed (c : Core) (n : Nat) (p : Packet) (a : StopArm) : Core := (c.setCtx n { c.ctx n with stop := some a }).acceptedReply n p

section Armed
variable (c : Core) (n : Nat) (p : Packet) (a : StopArm)

theorem ctx_armed (m : Nat) : (c.armed n p a).ctx m = (c.setCtx n { c.ctx n with stop := some a }).ctx m := by
  obtain ⟨q, h⟩ := acceptedReply_changes (c.setCtx n { c.ctx n with stop := some a }) n p
  rw [Core.armed, h]
  rfl

theorem stop_armed : ((c.armed n p a).ctx n).stop = some a := by rw [ctx_armed, Core.ctx_setCtx]

theorem st_armed : ((c.armed n p a).ctx n).st = (c.ctx n).st := by rw [ctx_armed, Core.ctx_setCtx]

theorem ctx_armed_other {m : Nat} (h : m ≠ n) : (c.armed n p a).ctx m = c.ctx m := by rw [ctx_armed, Core.ctx_setCtx_other _ _ _ _ h]

theorem compl_armed : ((c.armed n p a).queue n).compl = (c.queue n).compl := by
  rw [Core.armed, Core.acceptedReply]
  dsimp only
  split <;> rw [Core.queue_setQueue] <;> rfl

theorem armed_keeps : (c.armed n p a).fe = c.fe ∧ (c.armed n p a).gc = c.gc ∧ (c.armed n p a).mem = c.mem
    ∧ (∀ m, m ≠ n → (c.armed n p a).queue m = c.queue m) := by
  obtain ⟨q, h⟩ := acceptedReply_changes (c.setCtx n { c.ctx n with stop := some a }) n p
  rw [Core.armed, h]
  exact ⟨rfl, rfl, rfl, fun m hm => Core.queue_setQueue_other _ _ _ _ hm⟩

end Armed

/-- An armed point that is not reached stands. -/
theorem foldl_stopArmed_stands {c : Core} {n : Nat} {p : Packet} {a : StopArm} (hn : n < 64) (hnone : (c.ctx n).stop = none)
    (hstands : (c.armed n p a).stopDue n = c.armed n p a) : (List.range 64).foldl c.stopArmed (c.armed n p a) = c.armed n p a := by
  have hothers : ∀ m, m ≠ n → ((c.armed n p a).ctx m).stop = (c.ctx m).stop := fun m hm => by rw [ctx_armed_other c n p a hm]
  refine (foldl_stopArmed (List.mem_range.mpr hn) hothers ⟨by rw [hnone]; rfl, by rw [stop_armed]; rfl⟩ ?_ (.inl hstands)).trans hstands
  rwa [hstands]

/-- An armed point that is reached at once stops its context. -/
theorem foldl_stopArmed_stops {c : Core} {n : Nat} {p : Packet} {a : StopArm} (hn : n < 64) (hnone : (c.ctx n).stop = none)
    (hopen : (c.ctx n).st = .opened) (hgoing : c.fe.stopped = false)
    (hreached : (c.armed n p a).stopDue n = (c.armed n p a).stopReached n) :
    (List.range 64).foldl c.stopArmed (c.armed n p a) = (c.armed n p a).stopReached n := by
  have hothers : ∀ m, m ≠ n → ((c.armed n p a).ctx m).stop = (c.ctx m).stop := fun m hm => by rw [ctx_armed_other c n p a hm]
  obtain ⟨-, hdisarmed, -, -, hafter, -⟩ := stopReached_stops (stop_armed c n p a) (by rw [st_armed, hopen])
    ((congrArg FrontEnd.stopped (armed_keeps c n p a).1).trans hgoing)
  refine (foldl_stopArmed (List.mem_range.mpr hn) hothers ⟨by rw [hnone]; rfl, by rw [stop_armed]; rfl⟩ (fun m hm => ?_)
    (.inr (by rw [hreached]; exact hdisarmed))).trans hreached
  rw [hreached, (hafter m hm).1, hothers m hm]

/-! The detail of a final reply (R91, Table 03-4) -/

/-- The node of the first fault, or 0, in a detail of 24 bits. -/
theorem detail_parts (r : Run) : ∃ node, node < 2 ^ 20 ∧ (r.firstFault = none → node = 0)
    ∧ (∀ d i, r.firstFault = some (d, i) → node = i % 2 ^ 20)
    ∧ r.detail = b2n r.timing * 2 ^ 23 + b2n r.cancelled * 2 ^ 22 + b2n r.deadline * 2 ^ 21 + node := by
  rw [Run.detail]
  cases r.firstFault with
  | none => exact ⟨0, by omega, fun _ => rfl, nofun, rfl⟩
  | some f => exact ⟨f.2 % 2 ^ 20, by omega, nofun, fun d i h => by rw [Option.some.inj h], rfl⟩

theorem b2n_le (b : Bool) : b2n b ≤ 1 := by cases b <;> decide

/-! The obligation -/

/-- The run that CANCEL names, marked and stopped. -/
def Core.cancelled (c : Core) (n : Nat) (r : Run) (tag : Nat) : Core :=
  (c.setRun { r with cancelled := true, cancelAt := some c.dclk }).stopRun n tag

section Cancel
variable {c : Core} {n : Nat} {p : Packet} {r : Run}

theorem cancel_eq (h9 : passes (step9 p []) = true) (hrun : c.findRun n (pf p 2 0 32) = some r) :
    c.cancel n p = .ok (if ((c.cancelled n r (pf p 2 0 32)).findRun n (pf p 2 0 32)).isNone then .done vOk (c.cancelled n r (pf p 2 0 32))
      else .hold (.cancelWait p (pf p 2 0 32)) (c.cancelled n r (pf p 2 0 32))) := by
  rw [Core.cancel]
  refine bind_of_ok (passes_unit h9) ?_
  simp only [hrun]
  rfl

theorem cancel_done (h9 : passes (step9 p []) = true) (hrun : c.findRun n (pf p 2 0 32) = some r)
    (hgone : (c.cancelled n r (pf p 2 0 32)).findRun n (pf p 2 0 32) = none) :
    c.cancel n p = .ok (.done vOk (c.cancelled n r (pf p 2 0 32))) := by
  rw [cancel_eq h9 hrun, if_pos (Option.isNone_iff_eq_none.mpr hgone)]

theorem cancel_holds (h9 : passes (step9 p []) = true) (hrun : c.findRun n (pf p 2 0 32) = some r)
    (hleft : (c.cancelled n r (pf p 2 0 32)).findRun n (pf p 2 0 32) ≠ none) :
    c.cancel n p = .ok (.hold (.cancelWait p (pf p 2 0 32)) (c.cancelled n r (pf p 2 0 32))) := by
  rw [cancel_eq h9 hrun, if_neg (Option.isNone_iff_eq_none.not.mpr hleft)]

end Cancel

theorem resume_unarmed {c : Core} {n : Nat} {p : Packet} (h9 : passes (step9 p []) = true) (hnone : (c.ctx n).stop = none)
    (hst : (c.ctx n).st = .stopped ∨ (c.ctx n).st = .halted) :
    c.resume n p = .ok (.done vOk (c.setCtx n { c.ctx n with st := .opened })) := by
  have hhere : c.stopHere n = false := by rw [Core.stopHere, hnone]; rfl
  rw [Core.resume]
  refine bind_of_ok (passes_unit h9) ?_
  rcases hst with hst | hst <;> simp only [hhere, Bool.false_eq_true, if_false, hst] <;> rfl

theorem resume_here {c : Core} {n : Nat} {p : Packet} {a : StopArm} (h9 : passes (step9 p []) = true) (harmed : (c.ctx n).stop = some a)
    (hopen : (c.ctx n).st = .opened) (hgoing : c.fe.stopped = false) (hhere : c.stopHere n = true) :
    c.resume n p = .ok (.done vOk ((c.stopReached n).setCtx n { (c.stopReached n).ctx n with st := .opened })) := by
  have hst := (stopReached_stops harmed hopen hgoing).1
  rw [Core.resume]
  refine bind_of_ok (passes_unit h9) ?_
  simp only [hhere, if_true, hst]
  rfl

theorem resume_disarms {c : Core} {n : Nat} {p : Packet} {a : StopArm} (h9 : passes (step9 p []) = true) (harmed : (c.ctx n).stop = some a)
    (hopen : (c.ctx n).st = .opened) (hhere : c.stopHere n = false) :
    c.resume n p = .ok (.done vOk
      ((c.setCtx n { c.ctx n with stop := none }).finalReply n a.tag { status := .ok, detail := 1 } a.irq false)) := by
  rw [Core.resume]
  refine bind_of_ok (passes_unit h9) ?_
  simp only [hhere, Bool.false_eq_true, if_false, hopen, harmed]
  rfl

/-- STOP_AT at a count still to come arms it. -/
theorem exec_stopAt_early {s : State} {n : Nat} {p : Packet} (hn : n < 64) (htakes : s.takes 0x26 n p = true)
    (hnone : ((s.core.taken n).ctx n).stop = none) (hnode : pb p 2 0 = false) (h9 : passes (step9 p []) = true)
    (hearly : (s.core.taken n).gc.count < (pw p 3).toNat) :
    exec .stopAt s = .next (s.withCore ((s.core.taken n).armed n p { point := .atCount (pw p 3).toNat, tag := pkTag p, irq := pkIrq p })) := by
  rw [exec_stopAt htakes (stopAt_count h9 hnode hnone)]
  refine congrArg (fun d => Host.Outcome.next (s.withCore d)) (foldl_stopArmed_stands (c := s.core.taken n) hn hnone ?_)
  refine stopDue_early (stop_armed ..) rfl ?_
  rwa [(armed_keeps ..).2.1]

/-- STOP_AT at a node arms it. -/
theorem exec_stopAt_node {s : State} {n : Nat} {p : Packet} {k : Skein} (hn : n < 64) (htakes : s.takes 0x26 n p = true)
    (hnone : ((s.core.taken n).ctx n).stop = none) (hnode : pb p 2 0 = true)
    (h9 : passes (step9 p (reservedIn p 3 (fields [(19, 0)]))) = true) (hskein : (s.core.taken n).skein n (pf p 2 32 10) = some k)
    (hin : pf p 3 0 20 < k.nodeCount) :
    exec .stopAt s = .next (s.withCore ((s.core.taken n).armed n p { point := .atNode k.id (pf p 3 0 20), tag := pkTag p, irq := pkIrq p })) := by
  rw [exec_stopAt htakes (stopAt_node h9 hnode hnone hskein hin)]
  exact congrArg (fun d => Host.Outcome.next (s.withCore d)) (foldl_stopArmed_stands (c := s.core.taken n) hn hnone
    (stopDue_node (stop_armed ..) rfl))

/-- STOP_AT at a count that is past stops its context at once. -/
theorem exec_stopAt_past {s : State} {n : Nat} {p : Packet} (hn : n < 64) (htakes : s.takes 0x26 n p = true)
    (hnone : ((s.core.taken n).ctx n).stop = none) (hnode : pb p 2 0 = false) (h9 : passes (step9 p []) = true)
    (hpast : (pw p 3).toNat ≤ (s.core.taken n).gc.count) (hopen : ((s.core.taken n).ctx n).st = .opened) :
    exec .stopAt s = .next (s.withCore
      (((s.core.taken n).armed n p { point := .atCount (pw p 3).toNat, tag := pkTag p, irq := pkIrq p }).stopReached n)) := by
  rw [exec_stopAt htakes (stopAt_count h9 hnode hnone)]
  refine congrArg (fun d => Host.Outcome.next (s.withCore d)) (foldl_stopArmed_stops (c := s.core.taken n) hn hnone hopen
    (not_stopped_of_cpFree (c := s.core) (takes_taken htakes).2.1) ?_)
  refine stopDue_past (stop_armed ..) rfl ?_
  rwa [(armed_keeps ..).2.1]

/-- A context whose armed point is reached, by what it was before the STOP_AT. -/
theorem armed_stops {c : Core} {n : Nat} {p : Packet} {a : StopArm} (hopen : (c.ctx n).st = .opened) (hgoing : c.fe.stopped = false) :
    (((c.armed n p a).stopReached n).ctx n).st = .stopped ∧ (((c.armed n p a).stopReached n).ctx n).stop = none
    ∧ bitAt (((c.armed n p a).stopReached n).ctx n).det 1 = true
    ∧ (((c.armed n p a).stopReached n).queue n).compl = ((c.queue n).compl + 1) % 2 ^ 64
    ∧ (∀ m, m ≠ n → ((c.armed n p a).stopReached n).ctx m = c.ctx m ∧ ((c.armed n p a).stopReached n).queue m = c.queue m)
    ∧ ((c.armed n p a).stopReached n).mem = c.mem := by
  obtain ⟨hfe, -, hmem, hqueues⟩ := armed_keeps c n p a
  obtain ⟨hst, hstop, hdet, hcompl, hothers, hmemory⟩ := stopReached_stops (stop_armed c n p a) (by rw [st_armed, hopen])
    ((congrArg FrontEnd.stopped hfe).trans hgoing)
  refine ⟨hst, hstop, hdet, by rw [hcompl, compl_armed], fun m hm => ⟨?_, ?_⟩, hmemory.trans hmem⟩
  · rw [(hothers m hm).1, ctx_armed_other c n p a hm]
  · rw [(hothers m hm).2, hqueues m hm]

theorem exec_stopCount {s : State} {n k : Nat} {a : StopArm} (hn : n < 64) (hrunning : s.running = true)
    (harmed : (s.core.ctx n).stop = some a) (hpoint : a.point = .atCount k) (hpast : k ≤ s.core.gc.count) :
    exec (.stopCount n) s = .next (s.withCore (s.core.stopReached n)) := by
  change execStopCount n s = _
  rw [execStopCount, if_pos hn, onRun_running hrunning, stopDue_past harmed hpoint hpast]

/-- Settles O33: CANCEL by what its stop leaves of the run, STOP_AT and STOP_COUNT by the point, RESUME by the stop that is armed, and the
detail by its parts. -/
theorem cancelStopAndResume : Obligations.CancelStopAndResume := by
  unfold Obligations.CancelStopAndResume
  refine ⟨fun s n p r htakes => ?_, ⟨fun s n p hn htakes => ?_, fun s n k a hn hrunning hgoing harmed hpoint hpast hopen => ?_,
    fun s n p htakes => ?_, fun s n p htakes => ?_⟩, fun r => ?_⟩
  · intro c c1 h9 hrun
    refine ⟨fun hgone => ?_, fun hleft => ?_⟩
    · exact onCommand_done (run := fun _ c n p => c.cancel n p) htakes (cancel_done h9 hrun hgone)
    · exact onCommand_hold (run := fun _ c n p => c.cancel n p) htakes (cancel_holds h9 hrun hleft)
  · intro c hnone
    refine ⟨fun hnode h9 hearly => exec_stopAt_early hn htakes hnone hnode h9 hearly, fun hnode h9 hpast hopen => ?_,
      fun k hnode h9 hskein hin => exec_stopAt_node hn htakes hnone hnode h9 hskein hin⟩
    exact ⟨_, exec_stopAt_past hn htakes hnone hnode h9 hpast hopen,
      armed_stops (c := s.core.taken n) hopen (not_stopped_of_cpFree (c := s.core) (takes_taken htakes).2.1)⟩
  · obtain ⟨hst, hnone, hdet, hcompl, hothers, hmem⟩ := stopReached_stops harmed hopen hgoing
    exact ⟨_, exec_stopCount hn hrunning harmed hpoint hpast, hst, hnone, hdet, hcompl, fun m hm => (hothers m hm).1, hmem⟩
  · intro c h9 hnone hst
    exact onCommand_done (run := fun _ c n p => c.resume n p) htakes (resume_unarmed h9 hnone hst)
  · intro c h9 hopen
    refine ⟨fun a harmed hhere => ?_, fun a harmed hhere => ?_⟩
    · exact onCommand_done (run := fun _ c n p => c.resume n p) htakes
        (resume_here h9 harmed hopen (not_stopped_of_cpFree (c := s.core) (takes_taken htakes).2.1) hhere)
    · exact onCommand_done (run := fun _ c n p => c.resume n p) htakes (resume_disarms h9 harmed hopen hhere)
  · obtain ⟨node, hlt, hnone, hsome, hdetail⟩ := detail_parts r
    have htiming := b2n_le r.timing
    have hcancelled := b2n_le r.cancelled
    have hdeadline := b2n_le r.deadline
    refine ⟨fun h => ?_, fun d i h => ?_, ?_, ?_, ?_⟩
    · have := hnone h
      omega
    · have := hsome d i h
      omega
    · omega
    · omega
    · omega

end Sys2Proof.Machine
end

section
/-! PROOFS. CTX_OPEN, NOP and CTX_CLOSE (O21): what a close keeps of the graph and of memory. -/

namespace Sys2Proof.Machine

/-! CTX_OPEN -/

theorem ctxOpen_done {c : Core} {p : Packet} (h9 : passes (step9 p (c.ctxOpenFaults p)) = true) (hzero : pf p 2 0 6 = 0 → c.owns 0 = false)
    (hother : pf p 2 0 6 ≠ 0 → c.testing = false ∧ (c.ctx (pf p 2 0 6)).st = .closed)
    (howners : c.maskUsed (pf p 2 0 6) (pf p 2 48 16) true = false)
    (hothers : (pkExp p && pb p 6 16 && c.maskUsed (pf p 2 0 6) (pf p 2 48 16) false) = false)
    (hobjs : pf p 5 0 19 + sumBy (fun m => (c.ctx m).syncQuota) (c.openCtxs.filter fun m => m != pf p 2 0 6) ≤ c.cfg.syncObjects)
    (hchans : pf p 5 32 13 + sumBy (fun m => (c.ctx m).chanQuota) (c.openCtxs.filter fun m => m != pf p 2 0 6) ≤ c.cfg.channels) :
    c.ctxOpen p = .ok (.done vOk (c.ctxOpenEffect p)) := by
  have htested : (pf p 2 0 6 == 0 || !c.testing) = true := by
    by_cases h : pf p 2 0 6 = 0
    · rw [h]; rfl
    · rw [(hother h).1, Bool.not_false, Bool.or_true]
  have howned : (pf p 2 0 6 != 0 || !c.owns 0) = true := by
    by_cases h : pf p 2 0 6 = 0
    · rw [hzero h, Bool.not_false, Bool.or_true]
    · rw [bne_iff_ne.mpr h, Bool.true_or]
  have hclosed : (pf p 2 0 6 == 0 || (c.ctx (pf p 2 0 6)).st == .closed) = true := by
    by_cases h : pf p 2 0 6 = 0
    · rw [h]; rfl
    · rw [(hother h).2]; exact Bool.or_true _
  rw [Core.ctxOpen]
  refine bind_of_ok (passes_unit h9) (bind_of_ok (ensure_of _ htested) (bind_of_ok (ensure_of _ howned) (bind_of_ok (ensure_of _ hclosed) ?_)))
  refine bind_of_ok (ensure_of _ ?_) (bind_of_ok (ensure_of _ ?_) (bind_of_ok (ensure_of _ (decide_eq_true hobjs))
    (bind_of_ok (ensure_of _ (decide_eq_true hchans)) rfl)))
  · rw [howners]; rfl
  · rw [hothers]; rfl

/-- The STALL record that may end an episode leaves the queues. -/
theorem queue_logStall (c : Core) (t reason m : Nat) : (c.logStall t reason).queue m = c.queue m := by
  obtain ⟨e, f, l, h⟩ := logStall_changes c t reason
  rw [h]
  rfl

theorem ctxOpenEffect_eq (c : Core) (p : Packet) : c.ctxOpenEffect p
    = (let t := pf p 2 0 6
       let x := c.ctx t
       let e := if x.stallTold then c.logStall t 2 else c
       ((e.setCtx t
       { Ctx.reset with
         st := if x.st = .closed then .opened else x.st, spindleMask := pf p 2 48 16, handleLog2 := pf p 2 32 8, syncLog2 := pf p 2 24 8,
         prioCeiling := pf p 2 16 4, owner := pkExp p && pb p 6 16, sliceLen := if pkExp p then pf p 6 0 16 else 0,
         htab := pw p 3, stab := pw p 4, chanQuota := pf p 5 32 13, syncQuota := pf p 5 0 19,
         peer := x.peer, sigrange := x.sigrange, flowrange := x.flowrange, stop := x.stop,
         progressed := x.progressed }).setQueue t { c.queue t with compl := 0 }).setPlyPage t .reset) := by
  have hqueue : (if (c.ctx (pf p 2 0 6)).stallTold then c.logStall (pf p 2 0 6) 2 else c).queue (pf p 2 0 6) = c.queue (pf p 2 0 6) := by
    split
    · exact queue_logStall ..
    · rfl
  rw [Core.ctxOpenEffect]
  dsimp only
  rw [hqueue]

/-! What a close keeps (R87, Table 03-10) -/

/-- A core with the graph and the memory of another. -/
structure GraphFrom (c d : Core) : Prop where
  graph : d.graph = c.graph
  mem   : d.mem = c.mem

theorem GraphFrom.refl (c : Core) : GraphFrom c c := ⟨rfl, rfl⟩

theorem GraphFrom.trans {c d e : Core} (h : GraphFrom c d) (k : GraphFrom d e) : GraphFrom c e :=
  ⟨k.graph.trans h.graph, k.mem.trans h.mem⟩

theorem GraphFrom.foldl {α : Type} {step : Core → α → Core} (hstep : ∀ d x, GraphFrom d (step d x)) (l : List α) (c : Core) :
    GraphFrom c (l.foldl step c) :=
  List.foldlRecOn l step (.refl c) fun d h x _ => h.trans (hstep d x)

theorem OnlyChan.graphFrom {n : Nat} {c d : Core} (h : OnlyChan n c d) : GraphFrom c d := ⟨h.graph, h.mem⟩

theorem onlyChan_closeRx (c : Core) (n reason : Nat) : OnlyChan n c (c.closeRx n reason) := by
  rw [Core.closeRx]
  split
  · exact onlyChan_closeEnd c n
  · exact (onlyChan_closeEnd c n).trans (onlyChan_setChan ..)

theorem graphFrom_tableFree (c : Core) (t : Nat) : GraphFrom c (c.tableFree t) := ⟨rfl, rfl⟩

/-- The ends and the tables of a context that closes. -/
def Core.closeParts (c : Core) (n : Nat) : Core :=
  let c3 := (c.chansWhere fun h => match h.rx with | some r => r.ctx == n | none => false).foldl (fun d k => d.closeRx k 1) c
  let c4 := (c3.chansWhere fun h => match h.tx with | some t => t.ctx == n | none => false).foldl (fun d k => d.closeTx k) c3
  (c4.tablesOf n).foldl (fun d t => d.tableFree t) c4

theorem graphFrom_closeParts (c : Core) (n : Nat) : GraphFrom c (c.closeParts n) := by
  rw [Core.closeParts]
  exact ((GraphFrom.foldl (fun d k => (onlyChan_closeRx d k 1).graphFrom) _ c).trans
    (.foldl (fun d k => (onlyChan_setChan d k _).graphFrom) _ _)).trans (.foldl (fun d t => graphFrom_tableFree d t) _ _)

/-- A closed context: its objects and its skeins are gone, what it held of the Spindles is free. -/
def Core.closed (c : Core) (n : Nat) : Core :=
  let c6 := c.freeObjs fun o => o.ctx == n
  let c7 := { c6 with graph := { c6.graph with skeins := c6.graph.skeins.filter fun k => k.ctx != n },
                      disp := { c6.disp with spindles := c6.disp.spindles.map fun (s : Nat × Spindle) =>
                        (s.1, if s.2.holder = some n then { s.2 with holder := none, prev := n } else s.2) } }
  c7.setCtx n { c7.ctx n with st := .closed, spindleMask := 0, chanQuota := 0, syncQuota := 0, stop := none }

/-- A queue is held by no wait. -/
def QCur.waits : QCur → Bool
  | .syncWait _ _ => true
  | .sigWait _ _ _ => true
  | _ => false

theorem closeEffect_eq {c : Core} {n : Nat} (hwaits : (c.queue n).cur.waits = false) (hstop : (c.ctx n).stop = none) :
    c.closeEffect n = (c.closeParts n).closed n := by
  cases hcur : (c.queue n).cur with
  | syncWait _ _ | sigWait _ _ _ => exact absurd (hcur ▸ hwaits) Bool.noConfusion
  | _ =>
    rw [Core.closeEffect]
    simp only [hcur, hstop]
    rfl

theorem closed_frees (c : Core) (n : Nat) : (((c.closed n).ctx n).st = .closed ∧ ((c.closed n).ctx n).spindleMask = 0
    ∧ ((c.closed n).ctx n).chanQuota = 0 ∧ ((c.closed n).ctx n).syncQuota = 0) ∧ (c.closed n).objsOf n = [] ∧ (c.closed n).skeinsOf n = []
    ∧ (c.closed n).graph.runs = c.graph.runs ∧ (c.closed n).mem = c.mem ∧ ∀ m, m ≠ n → (c.closed n).skeinsOf m = c.skeinsOf m := by
  rw [Core.closed]
  dsimp only
  rw [Core.ctx_setCtx]
  refine ⟨⟨rfl, rfl, rfl, rfl⟩, ?_, ?_, rfl, rfl, fun m hm => ?_⟩
  · change ((c.sync.objs.filter fun o => !(o.ctx == n)).filter fun o => o.ctx == n) = []
    exact List.filter_eq_nil_iff.mpr fun o ho => by simpa using (List.mem_filter.mp ho).2
  · change ((c.graph.skeins.filter fun k => k.ctx != n).filter fun k => k.ctx == n) = []
    exact List.filter_eq_nil_iff.mpr fun k hk => by simpa using (List.mem_filter.mp hk).2
  · change ((c.graph.skeins.filter fun k => k.ctx != n).filter fun k => k.ctx == m) = c.graph.skeins.filter fun k => k.ctx == m
    rw [List.filter_filter]
    refine List.filter_congr fun k _ => ?_
    by_cases hk : k.ctx = m
    · simp [hk, hm]
    · simp [hk]

/-- What the effect of CTX_CLOSE leaves of a context that owes nobody a reply. -/
theorem closeEffect_closes {c : Core} {n : Nat} (hwaits : (c.queue n).cur.waits = false) (hstop : (c.ctx n).stop = none) :
    (((c.closeEffect n).ctx n).st = .closed ∧ ((c.closeEffect n).ctx n).spindleMask = 0
    ∧ ((c.closeEffect n).ctx n).chanQuota = 0 ∧ ((c.closeEffect n).ctx n).syncQuota = 0) ∧ (c.closeEffect n).objsOf n = []
    ∧ (c.closeEffect n).skeinsOf n = [] ∧ (c.closeEffect n).graph.runs = c.graph.runs ∧ (c.closeEffect n).mem = c.mem
    ∧ ∀ m, m ≠ n → (c.closeEffect n).skeinsOf m = c.skeinsOf m := by
  obtain ⟨hgraph, hmem⟩ := graphFrom_closeParts c n
  obtain ⟨hctx, hobjs, hskeins, hruns, hmemory, hothers⟩ := closed_frees (c.closeParts n) n
  rw [closeEffect_eq hwaits hstop]
  refine ⟨hctx, hobjs, hskeins, by rw [hruns, hgraph], hmemory.trans hmem, fun m hm => ?_⟩
  rw [hothers m hm, Core.skeinsOf, hgraph, Core.skeinsOf]

/-! CTX_CLOSE -/

section Close
variable {c : Core} {p : Packet} (h9 : passes (step9 p (range 2 0 (pf p 2 0 6 != 0))) = true) (hopen : (c.ctx (pf p 2 0 6)).st ≠ .closed)
include h9 hopen

theorem ctxClose_done (hidle : c.noRuns (pf p 2 0 6) = true) (hwaits : (c.queue (pf p 2 0 6)).cur.waits = false)
    (hstop : (c.ctx (pf p 2 0 6)).stop = none) : c.ctxClose p = .ok (.done vOk (c.closeEffect (pf p 2 0 6))) := by
  have howed : c.closeAnswer p (pf p 2 0 6) false = .done vOk (c.closeEffect (pf p 2 0 6)) := by
    rw [Core.closeAnswer, hstop]
    cases hcur : (c.queue (pf p 2 0 6)).cur with
    | syncWait _ _ | sigWait _ _ _ => exact absurd (hcur ▸ hwaits) Bool.noConfusion
    | _ => rfl
  rw [Core.ctxClose]
  refine bind_of_ok (passes_unit h9) (bind_of_ok (ensure_of _ (bne_iff_ne.mpr hopen)) (bind_of_ok (ensure_of _ ?_) ?_))
  · rw [hidle, Bool.or_true]
  · rw [if_pos hidle, howed]
    rfl

theorem ctxClose_waits (hexpert : pkExp p = true) (hbusy : c.noRuns (pf p 2 0 6) = false)
    (hleft : (c.cancelAll (pf p 2 0 6)).noRuns (pf p 2 0 6) = false) :
    c.ctxClose p = .ok (.hold (.closeWait p (pf p 2 0 6)) (c.cancelAll (pf p 2 0 6))) := by
  rw [Core.ctxClose]
  refine bind_of_ok (passes_unit h9) (bind_of_ok (ensure_of _ (bne_iff_ne.mpr hopen)) (bind_of_ok (ensure_of _ ?_) ?_))
  · rw [hexpert, Bool.true_or]
  · simp only [hbusy, hleft, Bool.false_eq_true, if_false]
    rfl

end Close

theorem cancelAll_single {c : Core} {n : Nat} {r : Run} (hrun : c.findRun n r.tag = some r) (hall : c.runsOf n = [r]) :
    c.cancelAll n = (c.setRun { r with cancelled := true, cancelAt := some c.dclk }).stopRun n r.tag := by
  rw [Core.cancelAll, hall, List.foldl_cons, List.foldl_nil]
  simp only [hrun]

/-- Settles O21: CTX_OPEN by its checks and its effect, NOP by its reply, CTX_CLOSE by what the closing of ends, tables, objects and
skeins keeps. -/
theorem contextCommands : Obligations.ContextCommands := by
  unfold Obligations.ContextCommands
  refine ⟨fun s n p htakes => ?_, ⟨rfl, rfl, rfl, rfl, rfl⟩, fun s n p htakes h9 => ?_, fun s n p htakes => ?_⟩
  · intro c t x mask others h9 hzero hother howners hexcl hobjs hchans e
    have hdone : c.ctxOpen p = .ok (.done vOk (c.ctxOpenEffect p)) := ctxOpen_done h9 hzero hother howners hexcl hobjs hchans
    rw [ctxOpenEffect_eq] at hdone
    exact onCommand_done (run := fun _ c _ p => c.ctxOpen p) htakes hdone
  · exact onCommand_done (run := fun _ c _ p => do step9 p []; return .done vOk c) htakes (bind_of_ok (passes_unit h9) rfl)
  · intro c t h9 hopen
    refine ⟨fun hidle hstop hcur => ?_, fun hexpert hbusy hleft => ?_, fun r hrun hall => cancelAll_single hrun hall⟩
    · have hwaits : (c.queue t).cur.waits = false := by
        cases h : (c.queue t).cur with
        | syncWait _ _ | sigWait _ _ _ =>
          rw [h] at hcur
          exact hcur.elim
        | _ => rfl
      obtain ⟨⟨hst, hmask, hchan, hsync⟩, hrest⟩ := closeEffect_closes hwaits hstop
      exact ⟨_, onCommand_done (run := fun _ c _ p => c.ctxClose p) htakes (ctxClose_done h9 hopen hidle hwaits hstop), rfl,
        hst, hmask, hchan, hsync, hrest⟩
    · exact onCommand_hold (run := fun _ c _ p => c.ctxClose p) htakes (ctxClose_waits h9 hopen hexpert hbusy hleft)

end Sys2Proof.Machine
end

section
/-! PROOFS. HANDLE_FLUSH and QUERY (O22): entries that are read again, and the words of a record in memory. -/

namespace Sys2Proof.Machine

/-! HANDLE_FLUSH (R121) -/

/-- What reading the entries of an index range again does to one entry of the relocation store. -/
structure RelocEnt.Flushed (c : Core) (n first count : Nat) (e x : RelocEnt) : Prop where
  named   : x.ctx = e.ctx ∧ x.idx = e.idx ∧ x.gen = e.gen
  outside : ¬(e.ctx = n ∧ first ≤ e.idx ∧ e.idx < first + count) → x = e
  inside  : e.ctx = n → first ≤ e.idx → e.idx < first + count →
    ∃ ws, c.readWords (fld (c.ctx n).htab 0 48 + 16 * e.idx) 2 = .ok ws
      ∧ x.region = (entryRegion (ws.getD 0 0) (ws.getD 1 0) e.gen false).map fun g => (g.write, g.base, g.size)

/-- A flush reads each entry of the range again, in its place. -/
theorem flushEntries_flushes {c : Core} {n first count : Nat} {es l : List RelocEnt} (h : c.flushEntries n first count es = .ok l) :
    List.Forall₂ (RelocEnt.Flushed c n first count) es l := by
  induction es generalizing l with
  | nil => exact Except.ok.inj h ▸ .nil
  | cons e rest ih =>
    rw [Core.flushEntries] at h
    split at h
    next => cases h
    next l' hrest =>
      split at h
      next hin =>
        split at h
        next => cases h
        next ws hread => exact Except.ok.inj h ▸ .cons ⟨⟨rfl, rfl, rfl⟩, fun hout => absurd hin hout, fun _ _ _ => ⟨ws, hread, rfl⟩⟩ (ih hrest)
      next hout =>
        exact Except.ok.inj h ▸ .cons ⟨⟨rfl, rfl, rfl⟩, fun _ => rfl, fun hctx hlo hhi => absurd ⟨hctx, hlo, hhi⟩ hout⟩ (ih hrest)

theorem handleFlush_done {c : Core} {n : Nat} {p : Packet} {l : List RelocEnt}
    (h9 : passes (step9 p (range 2 0 (decide (1 ≤ pf p 2 0 21) && decide (pf p 2 0 21 ≤ 2 ^ 20)))) = true)
    (htable : (c.ctx n).handleLog2 ≠ 0) (hin : pf p 2 32 20 + pf p 2 0 21 ≤ 2 ^ (c.ctx n).handleLog2)
    (hread : c.flushEntries n (pf p 2 32 20) (pf p 2 0 21) c.graph.reloc = .ok l) :
    c.handleFlush n p = .ok (.done vOk { c with graph := { c.graph with reloc := l } }) := by
  rw [Core.handleFlush]
  refine bind_of_ok (passes_unit h9) (bind_of_ok (ensure_of _ (Bool.and_eq_true_iff.mpr ⟨bne_iff_ne.mpr htable, decide_eq_true hin⟩)) ?_)
  rw [hread]
  rfl

/-! Words in memory -/

theorem bytesNat_natBytes (n v : Nat) : bytesNat (natBytes n v) = v % 256 ^ n := by
  induction n generalizing v with
  | zero => rw [natBytes, bytesNat, Nat.pow_zero, Nat.mod_one]
  | succ n ih => rw [natBytes, bytesNat, ih, BitVec.toNat_ofNat, Nat.pow_succ' (n := n), Nat.mod_mul]

theorem bytesNat_wordBytes (w : W64) : w64 (bytesNat (wordBytes w)) = w := by
  rw [wordBytes, bytesNat_natBytes, w64, Nat.mod_eq_of_lt (b := 256 ^ 8) w.isLt, BitVec.ofNat_toNat, BitVec.setWidth_eq]

theorem memBytes_eq_map (m : List Host.Cell) (a n : Nat) : memBytes m a n = (List.range n).map fun i => memGet m (a + i) := by
  induction n generalizing a with
  | zero => rfl
  | succ n ih =>
    rw [memBytes, ih, List.range_succ_eq_map, List.map_cons, List.map_map, Nat.add_zero]
    exact congrArg _ (List.map_congr_left fun i _ => by rw [Function.comp, Nat.succ_eq_add_one, Nat.add_right_comm, Nat.add_assoc])

/-- A part of what was written, read back. -/
theorem memBytes_memPutBytes_part {m : List Host.Cell} (a : Nat) {l : List Byte} {k n : Nat} (h : memWf m = true) (hin : k + n ≤ l.length) :
    memBytes (memPutBytes m a l) (a + k) n = (l.drop k).take n := by
  have hlen : ((l.drop k).take n).length = n := by
    rw [List.length_take, List.length_drop]
    omega
  rw [memBytes_eq_map]
  refine List.ext_getElem (by rw [List.length_map, List.length_range, hlen]) fun i hi _ => ?_
  rw [List.length_map, List.length_range] at hi
  rw [List.getElem_map, List.getElem_range, Nat.add_assoc, memGet_memPutBytes_inside a h (by omega), List.getElem_take, List.getElem_drop,
    List.getD_eq_getElem]

/-- A word of a list of bytes that was written, read back. -/
theorem memWord_memPutBytes {m : List Host.Cell} (a : Nat) {l : List Byte} {k : Nat} {w : W64} (h : memWf m = true)
    (hin : k + 8 ≤ l.length) (hword : (l.drop k).take 8 = wordBytes w) : memWord (memPutBytes m a l) (a + k) = w := by
  rw [memWord, memBytes_memPutBytes_part a h hin, hword, bytesNat_wordBytes]

theorem mem_writeBytes (c : Core) (a : Nat) (l : List Byte) : (c.writeBytes a l).mem = memPutBytes c.mem a l := rfl

/-! QUERY (R88, R329) -/

theorem length_queryRecord (sel : Nat) (f : List Nat) : (queryRecord sel f).length = 64 := by
  exact (length_flatMap_same (fun i => length_natBytes 8 _) (List.range 8)).trans rfl

/-- The first three words of a record of selector 0x04, in their places. -/
theorem queryRecord_words (f : List Nat) : ((queryRecord 4 f).drop 0).take 8 = wordBytes (w64 (f.getD 0 0))
    ∧ ((queryRecord 4 f).drop 8).take 8 = wordBytes (w64 (f.getD 1 0))
    ∧ ((queryRecord 4 f).drop 16).take 8 = wordBytes (w64 (f.getD 2 0)) := ⟨rfl, rfl, rfl⟩

/-- They are read back where the record was written. -/
theorem memWord_queryRecord {m : List Host.Cell} (a : Nat) (f : List Nat) (h : memWf m = true) :
    memWord (memPutBytes m a (queryRecord 4 f)) a = w64 (f.getD 0 0)
    ∧ memWord (memPutBytes m a (queryRecord 4 f)) (a + 8) = w64 (f.getD 1 0)
    ∧ memWord (memPutBytes m a (queryRecord 4 f)) (a + 16) = w64 (f.getD 2 0) := by
  obtain ⟨h0, h1, h2⟩ := queryRecord_words f
  have hlen := length_queryRecord 4 f
  exact ⟨memWord_memPutBytes (k := 0) a h (by omega) h0, memWord_memPutBytes (k := 8) a h (by omega) h1,
    memWord_memPutBytes (k := 16) a h (by omega) h2⟩

section Query
variable {y : Sys} {c : Core} {n : Nat} {p : Packet} {g : Region} {f : List Nat}

theorem query_done (h9 : passes (step9 p (range 2 0 (decide (pf p 2 0 8 ≤ 5)) ++ range 2 16 (pf p 2 0 8 != 3 || decide (pf p 2 16 32 < 1024)))) = true)
    (hdst : c.handleParam n p 3 0 true 64 = .ok g) (hfigures : c.queryFigures y n (pf p 2 0 8) (pf p 2 16 32) = .ok f)
    (hfault : c.writeFault g.base 64 = none) :
    c.query y n p = .ok (.done vOk (c.writeBytes g.base (queryRecord (pf p 2 0 8) f))) := by
  rw [Core.query]
  refine bind_of_ok (passes_unit h9) (bind_of_ok hdst (bind_of_ok hfigures ?_))
  exact writeThen_next _ (by rw [length_queryRecord]; exact hfault)

/-- The record of selector 0x04 begins with cmds, tasks and assigns (R329). -/
theorem queryFigures_four {subject : Nat} (hfigures : c.queryFigures y n 4 subject = .ok f) :
    f.getD 0 0 = (c.ctx n).cmds ∧ f.getD 1 0 = (c.ctx n).tasks ∧ f.getD 2 0 = (c.ctx n).assigns := by
  rw [← Except.ok.inj hfigures]
  exact ⟨rfl, rfl, rfl⟩

/-- What the record of a QUERY leaves in memory. -/
theorem queryRecord_written {sel subject : Nat} (a : Nat) (hwf : memWf c.mem = true) (hfigures : c.queryFigures y n sel subject = .ok f) :
    memBytes (c.writeBytes a (queryRecord sel f)).mem a 64 = queryRecord sel f
    ∧ (∀ j, j < a ∨ a + 64 ≤ j → memGet (c.writeBytes a (queryRecord sel f)).mem j = memGet c.mem j)
    ∧ (sel = 4 → memWord (c.writeBytes a (queryRecord sel f)).mem a = w64 (c.ctx n).cmds
      ∧ memWord (c.writeBytes a (queryRecord sel f)).mem (a + 8) = w64 (c.ctx n).tasks
      ∧ memWord (c.writeBytes a (queryRecord sel f)).mem (a + 16) = w64 (c.ctx n).assigns) := by
  have hlen := length_queryRecord sel f
  have hbytes := memBytes_memPutBytes a (queryRecord sel f) hwf
  rw [mem_writeBytes]
  rw [hlen] at hbytes
  refine ⟨hbytes, fun j hj => memGet_memPutBytes_outside _ _ ?_, ?_⟩
  · rw [hlen]
    exact hj
  · rintro rfl
    obtain ⟨hcmds, htasks, hassigns⟩ := queryFigures_four hfigures
    rw [← hcmds, ← htasks, ← hassigns]
    exact memWord_queryRecord a f hwf

end Query

/-- Settles O22: HANDLE_FLUSH by the entries of the store, each against its range, and QUERY by the bytes of its record. -/
theorem flushAndQuery : Obligations.FlushAndQuery := by
  unfold Obligations.FlushAndQuery
  refine ⟨fun s n p l htakes => ?_, fun s n p g f htakes => ?_⟩
  · intro c h9 htable hin hread
    have hflushed := flushEntries_flushes hread
    refine ⟨onCommand_done (run := fun _ c n p => c.handleFlush n p) htakes (handleFlush_done h9 htable hin hread), hflushed.length_eq.symm,
      fun i _ e x he hx => ?_⟩
    obtain ⟨hi, rfl⟩ := List.getElem?_eq_some_iff.mp he
    obtain ⟨hi', rfl⟩ := List.getElem?_eq_some_iff.mp hx
    obtain ⟨⟨hctx, hidx, hgen⟩, hout, hinside⟩ := hflushed.get hi hi'
    exact ⟨hctx, hidx, hgen, hout, hinside⟩
  · intro c sel h9 hdst hfigures hfault hwf d
    exact ⟨onCommand_done (run := fun y c n p => c.query y n p) htakes (query_done h9 hdst hfigures hfault),
      queryRecord_written g.base hwf hfigures⟩

end Sys2Proof.Machine
end

section
/-! PROOFS. SKEIN_UNLOAD, SKEIN_PATCH and PAGE_REFILL (O30): the store without a skein, and with one of its skeins changed. -/

namespace Sys2Proof.Machine

/-! SKEIN_UNLOAD (R87, R133) -/

/-- A core without the skein of a name. -/
def Core.withoutSkein (c : Core) (n id : Nat) : Core :=
  { c with graph := { c.graph with skeins := c.graph.skeins.filter fun k => !(k.ctx == n && k.id == id) } }

theorem skein_withoutSkein (c : Core) (n id : Nat) : (c.withoutSkein n id).skein n id = none := by
  refine List.find?_eq_none.mpr fun k hk => Bool.eq_false_iff.mp ?_
  exact (Bool.not_eq_true' _).mp (List.mem_filter.mp hk).2

theorem skein_withoutSkein_other (c : Core) {n id j i : Nat} (h : ¬(j = n ∧ i = id)) : (c.withoutSkein n id).skein j i = c.skein j i := by
  change (c.graph.skeins.filter fun k => !(k.ctx == n && k.id == id)).find? _ = c.graph.skeins.find? _
  rw [List.find?_filter]
  refine congrArg (fun p => c.graph.skeins.find? p) (funext fun k => ?_)
  cases hk : (k.ctx == j && k.id == i) with
  | false => simp
  | true =>
    obtain ⟨rfl, rfl⟩ : k.ctx = j ∧ k.id = i := by simpa using hk
    have hother : (k.ctx == n && k.id == id) = false := Bool.eq_false_iff.mpr fun e => h (by simpa using e)
    simp [hother]

theorem skeinUnload_done {c : Core} {n : Nat} {p : Packet} (h9 : passes (step9 p []) = true) (hloaded : (c.skein n (pf p 2 32 10)).isSome = true)
    (hidle : c.skeinIdle n (pf p 2 32 10) = true) (hunread : c.skeinRead n (pf p 2 32 10) = false) :
    c.skeinUnload n p = .ok (.done vOk (c.withoutSkein n (pf p 2 32 10))) := by
  rw [Core.skeinUnload]
  exact bind_of_ok (passes_unit h9) (bind_of_ok (ensure_of _ hloaded) (bind_of_ok (ensure_of _ (by rw [hidle, hunread]; rfl)) rfl))

/-! SKEIN_PATCH (R87) -/

/-- A skein of a name with other parameter registers; any other skein as it is. -/
def Skein.patched (n id : Nat) (params : AMap W64) (k : Skein) : Skein := if k.ctx = n ∧ k.id = id then { k with params := params } else k

/-- A core with the parameter registers of one skein replaced. -/
def Core.patched (c : Core) (n id : Nat) (params : AMap W64) : Core :=
  { c with graph := { c.graph with skeins := c.graph.skeins.map (Skein.patched n id params) } }

theorem skein_patched (c : Core) (n id : Nat) (params : AMap W64) (j i : Nat) :
    (c.patched n id params).skein j i = (c.skein j i).map (Skein.patched n id params) := by
  have hname : ((fun k : Skein => k.ctx == j && k.id == i) ∘ Skein.patched n id params) = fun k : Skein => k.ctx == j && k.id == i := by
    funext k
    rw [Function.comp, Skein.patched]
    split <;> rfl
  change (c.graph.skeins.map (Skein.patched n id params)).find? _ = _
  rw [List.find?_map, hname]
  rfl

theorem skein_name {c : Core} {n id : Nat} {k : Skein} (h : c.skein n id = some k) : k.ctx = n ∧ k.id = id := by
  simpa using List.find?_some h

theorem skein_patched_other (c : Core) {n id j i : Nat} (params : AMap W64) (h : ¬(j = n ∧ i = id)) :
    (c.patched n id params).skein j i = c.skein j i := by
  rw [skein_patched]
  cases hk : c.skein j i with
  | none => rfl
  | some k =>
    obtain ⟨rfl, rfl⟩ := skein_name hk
    exact congrArg some (if_neg h)

/-- Registers written one after another, from the first named. -/
def patchParams (first : Nat) (w : Nat → W64) (params : AMap W64) (cnt : Nat) : AMap W64 :=
  (List.range cnt).foldl (fun a i => aset a (first + i) (w i)) params

theorem patchParams_succ (first : Nat) (w : Nat → W64) (params : AMap W64) (cnt : Nat) :
    patchParams first w params (cnt + 1) = aset (patchParams first w params cnt) (first + cnt) (w cnt) := by
  rw [patchParams, List.range_succ, List.foldl_concat]
  rfl

theorem aget_patchParams (first : Nat) (w : Nat → W64) (params : AMap W64) {cnt i : Nat} (h : i < cnt) :
    aget (patchParams first w params cnt) (first + i) = some (w i) := by
  induction cnt with
  | zero => exact absurd h (Nat.not_lt_zero i)
  | succ cnt ih =>
    rw [patchParams_succ]
    by_cases hi : i = cnt
    · rw [hi, aget_aset_self]
    · rw [aget_aset_other _ _ _ _ (by omega), ih (by omega)]

theorem aget_patchParams_outside (first : Nat) (w : Nat → W64) (params : AMap W64) {cnt j : Nat} (h : j < first ∨ first + cnt ≤ j) :
    aget (patchParams first w params cnt) j = aget params j := by
  induction cnt with
  | zero => rfl
  | succ cnt ih => rw [patchParams_succ, aget_aset_other _ _ _ _ (by omega), ih (by omega)]

theorem skeinPatch_done {c : Core} {n : Nat} {p : Packet} {k : Skein}
    (h9 : passes (step9 p (range 3 0 (decide (pf p 3 0 8 + (pkLen p - 4) ≤ 256)))) = true) (hskein : c.skein n (pf p 2 32 10) = some k)
    (hidle : c.skeinIdle n (pf p 2 32 10) = true) (hreplay : k.hasReplay = true) :
    c.skeinPatch n p = .ok (.done vOk (c.patched n (pf p 2 32 10)
      (patchParams (pf p 3 0 8) (fun i => pw p (4 + i)) k.params (pkLen p - 4)))) := by
  obtain ⟨-, hid⟩ := skein_name hskein
  rw [Core.skeinPatch]
  refine bind_of_ok (passes_unit h9) ?_
  simp only [hskein]
  rw [hid]
  exact bind_of_ok (ensure_of _ hidle) (bind_of_ok (ensure_of _ hreplay) rfl)

/-! PAGE_REFILL (R134, R364) -/

/-- A core in which one page more of a skein is resident. -/
def Core.withPage (c : Core) (n id page : Nat) : Core :=
  { c with graph := { c.graph with skeins := c.graph.skeins.map fun q =>
    if q.ctx = n ∧ q.id = id then { q with resident := insertBy (fun a b => decide (a < b)) page q.resident } else q } }

section Refill
variable {y : Sys} {c : Core} {n id page : Nat} {k : Skein} {r : Run} {bs : List Byte} (hskein : c.skein n id = some k)
  (hrun : c.runOfSkein n id = some r) (hpage : page < k.pages) (habsent : k.resident.contains page = false) (hup : y.hedgeDown = false)
  (hread : c.readBytes (k.spillAt + 4160 * page) 4160 = .ok bs)
include hskein hrun hpage habsent hup hread

/-- An authentic page that the store has room for is resident. -/
theorem pageRefill_refills (hauth : k.pageAuthentic y.keys page bs = true)
    (hroom : (c.withPage n id page).pagesUsed + (c.withPage n id page).graph.badPages ≤ (c.withPage n id page).cfg.storePages) :
    c.pageRefill y n id page = (c.withPage n id page).activateRun r := by
  have hkept : (let c2 := Core.evict 1 (c.withPage n id page)
      (if c2.pagesUsed + c2.graph.badPages ≤ c2.cfg.storePages then c2 else c).activateRun r) = (c.withPage n id page).activateRun r := by
    rw [show Core.evict 1 (c.withPage n id page) = c.withPage n id page from if_pos hroom]
    exact congrArg (fun d : Core => d.activateRun r) (if_pos hroom)
  have hout : ¬(k.pages ≤ page ∨ k.resident.contains page = true) := by
    rw [habsent]
    simpa using hpage
  rw [Core.pageRefill]
  simp only [hskein, hrun, if_neg hout, hup, Bool.false_eq_true, if_false, hread, hauth, if_true]
  exact hkept

/-- A page that does not authenticate sets auth_fail, and the task that needed it faults. -/
theorem pageRefill_rejects (hauth : k.pageAuthentic y.keys page bs = false) :
    c.pageRefill y n id page = ((c.setHedge 1).logHedge 6 0x30 0 n).faultNeeder k page .authFail 1 := by
  have hout : ¬(k.pages ≤ page ∨ k.resident.contains page = true) := by
    rw [habsent]
    simpa using hpage
  simp only [Core.pageRefill, hskein, hrun, if_neg hout, hup, Bool.false_eq_true, if_false, hread, hauth]
  rfl

end Refill

/-- The flag and the record of Hedge leave the graph. -/
theorem graph_setHedge_logHedge (c : Core) (bit reason status detail ctx : Nat) :
    ((c.setHedge bit).logHedge reason status detail ctx).graph = c.graph := by
  obtain ⟨e, w, l, h⟩ := setHedge_logHedge_changes c bit reason status detail ctx
  rw [h]
  rfl

theorem pageNeeder_of_graph {c d : Core} (h : d.graph = c.graph) (k : Skein) (page : Nat) : d.pageNeeder k page = c.pageNeeder k page := by
  rw [Core.pageNeeder, Core.runOfSkein, h, Core.pageNeeder, Core.runOfSkein]

theorem faultNeeder_none {c : Core} {k : Skein} {page : Nat} (st : Status) (reason : Nat) (h : c.pageNeeder k page = none) :
    c.faultNeeder k page st reason = c := by rw [Core.faultNeeder, h]

theorem faultNeeder_some {c : Core} {k : Skein} {page : Nat} {x : TaskRef} (st : Status) (reason : Nat) (h : c.pageNeeder k page = some x) :
    c.faultNeeder k page st reason = c.faultPlain x st reason := by rw [Core.faultNeeder, h]

theorem exec_pageRefill {s : State} (n id page : Nat) (hrunning : s.running = true) :
    exec (.pageRefill n id page) s = .next (s.withCore (s.core.pageRefill s.sys n id page)) := by
  change execPageRefill n id page s = _
  rw [execPageRefill, onRun_running hrunning]

/-- Settles O30: SKEIN_UNLOAD and SKEIN_PATCH by the store that they leave, PAGE_REFILL by what authenticates. -/
theorem skeinUnloadPatchAndRefill : Obligations.SkeinUnloadPatchAndRefill := by
  unfold Obligations.SkeinUnloadPatchAndRefill
  refine ⟨⟨fun s n p htakes => ?_, fun s n p k htakes => ?_⟩,
    fun s n id page k r bs hrunning hskein hrun hpage habsent hup hread => ?_⟩
  · intro c id h9 hloaded hidle hunread
    exact ⟨_, onCommand_done (run := fun _ c n p => c.skeinUnload n p) htakes (skeinUnload_done h9 hloaded hidle hunread),
      skein_withoutSkein c n id, fun j i h => skein_withoutSkein_other c h, rfl, rfl⟩
  · intro c id first cnt h9 hskein hidle hreplay
    refine ⟨_, Skein.patched n id (patchParams first (fun i => pw p (4 + i)) k.params cnt) k,
      onCommand_done (run := fun _ c n p => c.skeinPatch n p) htakes (skeinPatch_done h9 hskein hidle hreplay), ?_, ?_⟩
    · rw [skein_patched, hskein]
      rfl
    · rw [Skein.patched, if_pos (skein_name hskein)]
      exact ⟨rfl, fun i hi => aget_patchParams _ _ _ hi, fun j hj => aget_patchParams_outside _ _ _ hj,
        fun j i h => skein_patched_other c _ h, rfl, rfl⟩
  · intro c1
    have hneeder : ∀ bit reason status detail ctx, ((s.core.setHedge bit).logHedge reason status detail ctx).pageNeeder k page
        = s.core.pageNeeder k page := fun bit reason status detail ctx => pageNeeder_of_graph (graph_setHedge_logHedge ..) k page
    rw [exec_pageRefill n id page hrunning]
    refine ⟨fun hauth hroom => ?_, fun hauth hnone => ?_, fun x hauth hsome => ?_⟩
    · rw [pageRefill_refills hskein hrun hpage habsent hup hread hauth hroom]
      rfl
    · obtain ⟨-, hflag, hmem⟩ := setHedge_logHedge_keeps s.core (bit := 1) (by omega) 6 0x30 0 n
      rw [pageRefill_rejects hskein hrun hpage habsent hup hread hauth, faultNeeder_none _ _ ((hneeder ..).trans hnone)]
      exact ⟨_, rfl, hflag, graph_setHedge_logHedge .., hmem⟩
    · rw [pageRefill_rejects hskein hrun hpage habsent hup hread hauth, faultNeeder_some _ _ ((hneeder ..).trans hsome)]

end Sys2Proof.Machine
end

section
/-! PROOFS. LAUNCH, LAUNCH_AT, REPLAY and INSTANCE_START (O32): the run that a launch adds. -/

namespace Sys2Proof.Machine

/-- An accepted command, and what follows its reply in the same instruction. -/
theorem onRun_accept {s : State} {op n : Nat} {p : Packet} {run : Sys → Core → Nat → Packet → Except Verdict CpRes} {d : Core}
    (next : Core → Core) (htakes : s.takes op n p = true) (haccept : run s.sys (s.core.taken n) n p = .ok (.accept d)) :
    onRun s (fun y c => next (c.cpTake op (run y))) = .next (s.withCore (next (d.acceptedReply n p))) := by
  have hrunning := (takes_taken htakes).1
  have hcommand := onCommand_accept htakes haccept
  rw [onCommand, onRun_running hrunning] at hcommand
  have htaken : s.core.cpTake op (run s.sys) = d.acceptedReply n p := congrArg State.core (Host.Outcome.next.inj hcommand)
  rw [onRun_running hrunning, htaken]

/-- The constant buffer of a launch is the region of its handle, if it names one. -/
def Core.launchBuffer (c : Core) (n : Nat) (p : Packet) : Except Verdict (Option Region) :=
  if pf p 2 0 32 = noHandle then .ok none else (c.handleParam n p 2 0 false 0).map some

theorem launchBuffer_ok {c : Core} {n : Nat} {p : Packet} {cb : Option Region}
    (h : (pf p 2 0 32 = noHandle ∧ cb = none) ∨ (pf p 2 0 32 ≠ noHandle ∧ ∃ g, c.handleParam n p 2 0 false 0 = .ok g ∧ cb = some g)) :
    c.launchBuffer n p = .ok cb := by
  rw [Core.launchBuffer]
  rcases h with ⟨hno, rfl⟩ | ⟨hyes, g, hg, rfl⟩
  · rw [if_pos hno]
  · rw [if_neg hyes, hg]
    rfl

section Launch
variable {c : Core} {n : Nat} {p : Packet} {cb : Option Region} {k : Skein} {cbuf : Option (Nat × Nat)} {l : List RelocEnt}
  (hcb : c.launchBuffer n p = .ok cb) (hnamed : c.launchNamed n p = .ok k) (hconst : constCheck k cb = .ok cbuf)
  (hlist : c.resolveList n (pkBase p) (k.handles.zipIdx.map fun x => (x.2, x.1)) = .ok l)
  (hcuts : ∀ i, i ∈ c.cutNodes n k.id → k.isHead i = true)
  (hslots : (c.slotsOf n k.id).findSome? (c.slotCheck n k (c.launchRegion n l)) = none) (hroom : passes (c.launchRoom n k l) = true)
include hcb hnamed hconst hlist hcuts hslots hroom

theorem launchRun_now (h9 : passes (step9 p []) = true) : ∃ slack,
    c.launchRun n p none (some 3) = .ok (.accept (c.addRun n (c.newRun n p k l .launch c.gc.count cbuf slack) l)) := by
  have hheads : ((c.cutNodes n k.id).find? fun i => !k.isHead i) = none :=
    List.find?_eq_none.mpr fun i hi => by simp [hcuts i hi]
  refine ⟨c.slackOf (if pkExp p then some (pw p 3) else none), ?_⟩
  rw [Core.launchRun]
  refine bind_of_ok rfl (bind_of_ok (passes_unit h9) (bind_of_ok hcb (bind_of_ok hnamed (bind_of_ok hconst (bind_of_ok hlist ?_)))))
  simp only [hheads, hslots]
  exact bind_of_ok rfl (bind_of_ok rfl (bind_of_ok (passes_unit hroom) rfl))

theorem launchRun_at (haligned : bitAt c.gc.status 0 = true) (hahead : c.gc.count + 16384 ≤ (pw p 3).toNat)
    (h9 : passes (step9 p []) = true) : ∃ slack,
    c.launchRun n p (some 3) (some 4) = .ok (.accept (c.addRun n (c.newRun n p k l .launch (pw p 3).toNat cbuf slack) l)) := by
  have hheads : ((c.cutNodes n k.id).find? fun i => !k.isHead i) = none :=
    List.find?_eq_none.mpr fun i hi => by simp [hcuts i hi]
  refine ⟨c.slackOf (if pkExp p then some (pw p 4) else none), ?_⟩
  rw [Core.launchRun]
  refine bind_of_ok (ensure_of _ haligned) (bind_of_ok (a := ()) ?_
    (bind_of_ok hcb (bind_of_ok hnamed (bind_of_ok hconst (bind_of_ok hlist ?_)))))
  · rw [if_neg (by omega)]
    exact passes_unit h9
  · simp only [hheads, hslots]
    exact bind_of_ok rfl (bind_of_ok rfl (bind_of_ok (passes_unit hroom) rfl))

end Launch

/-- A launched run has one WAITING task for each head. -/
theorem newRun_tasks (c : Core) (n : Nat) (p : Packet) (k : Skein) (l : List RelocEnt) (start : Nat) (cbuf : Option (Nat × Nat))
    (slack : Nat × Nat × Bool) : (c.newRun n p k l .launch start cbuf slack).tasks.length = k.heads.length
    ∧ ∀ t, t ∈ (c.newRun n p k l .launch start cbuf slack).tasks → t.st = .waiting ∧ t.node ∈ k.heads := by
  have htasks : (c.newRun n p k l .launch start cbuf slack).tasks
      = k.heads.map fun i => Task.fresh i none .static 0 0 (hDepInit (k.record i)) := rfl
  rw [htasks]
  refine ⟨List.length_map _, fun t ht => ?_⟩
  obtain ⟨i, hi, rfl⟩ := List.mem_map.mp ht
  exact ⟨rfl, hi⟩

/-! REPLAY (R150) -/

/-- The run that a REPLAY adds. -/
def Core.newReplay (c : Core) (n : Nat) (p : Packet) (k : Skein) (l : List RelocEnt) (ws : List W64) : Run :=
  { c.newRun n p k l .replay c.gc.count none (0, 0, false) with
    counted := true, started := true, steps := replaySteps (k.replaySteps + 1) ws }

theorem replay_accept {c : Core} {n : Nat} {p : Packet} {k : Skein} {l : List RelocEnt} {ws : List W64} (h9 : passes (step9 p []) = true)
    (hnamed : c.launchNamed n p = .ok k) (hreplay : k.hasReplay = true)
    (hlist : c.resolveList n 0 (k.handles.zipIdx.map fun x => (x.2, x.1)) = .ok l) (hruns : c.unfinished n < 64)
    (hreloc : (c.newReloc n l).length ≤ c.relocFree) (hread : c.readFor 2 k.replayAt (4 * (k.replaySteps + 1)) = .ok ws) :
    c.replay n p = .ok (.accept (c.addRun n (c.newReplay n p k l ws) l)) := by
  rw [Core.replay]
  refine bind_of_ok (passes_unit h9) (bind_of_ok hnamed (bind_of_ok (ensure_of _ hreplay) (bind_of_ok hlist ?_)))
  exact bind_of_ok (ensure_of _ (decide_eq_true hruns)) (bind_of_ok (ensure_of _ (decide_eq_true hreloc)) (bind_of_ok hread rfl))

/-! INSTANCE_START (R135, R277) -/

theorem startRun_starts {c : Core} {n tag : Nat} {r : Run} (hrun : c.findRun n tag = some r) (hfresh : r.started = false)
    (huncut : r.cut = false) (hdue : r.start ≤ c.gc.count) :
    c.startRun n tag = ((c.setRun { r with started := true }).activateRun { r with started := true }).settle n tag := by
  simp only [Core.startRun, hrun, hfresh, huncut, decide_eq_false (Nat.not_lt.mpr hdue), Bool.or_self, Bool.false_eq_true, if_false]

/-- Settles O32: LAUNCH, LAUNCH_AT and REPLAY by the run they add, INSTANCE_START by the start of its run. -/
theorem launchAndReplay : Obligations.LaunchAndReplay := by
  unfold Obligations.LaunchAndReplay
  refine ⟨fun s n p cb k cbuf l => ?_, fun s n p k l ws htakes => ?_, fun s n tag r hrunning hrun hfresh huncut hdue => ?_⟩
  · intro c hcb hnamed hconst hlist hcuts hslots hroom
    refine ⟨fun htakes h9 => ?_, fun htakes haligned hahead h9 => ?_⟩
    · obtain ⟨slack, hrun⟩ := launchRun_now (launchBuffer_ok hcb) hnamed hconst hlist hcuts hslots hroom h9
      exact ⟨_, onRun_accept (run := fun _ c n p => c.launchRun n p none (some 3)) Core.startDue htakes hrun, rfl, rfl, rfl, rfl, rfl, rfl,
        newRun_tasks ..⟩
    · obtain ⟨slack, hrun⟩ := launchRun_at (launchBuffer_ok hcb) hnamed hconst hlist hcuts hslots hroom haligned hahead h9
      exact ⟨_, onCommand_accept (run := fun _ c n p => c.launchRun n p (some 3) (some 4)) htakes hrun, rfl, rfl, rfl, rfl, rfl, rfl,
        newRun_tasks ..⟩
  · intro c h9 hnamed hreplay hlist hruns hreloc hread
    exact ⟨c.newReplay n p k l ws, onRun_accept (run := fun _ c n p => c.replay n p) Core.startReplays htakes
      (replay_accept h9 hnamed hreplay hlist hruns hreloc hread), rfl, rfl, rfl, rfl, rfl, rfl, rfl⟩
  · change execInstanceStart n tag s = _
    rw [execInstanceStart, onRun_running hrunning, startRun_starts hrun hfresh huncut hdue]

end Sys2Proof.Machine
end

section
/-! PROOFS. SYNC_SET, SYNC_WAIT, SYNC_ALLOC and SYNC_FREE (O40): the lowest free objects, and a list of translations. -/

namespace Sys2Proof.Machine

/-! SYNC_SET and SYNC_WAIT (R220, R224) -/

theorem syncNamed_mapped {c : Core} {n vid : Nat} {o : SyncObj} (h : c.syncLookup n vid = .ok (some o)) : c.syncNamed n vid = .ok o := by
  rw [Core.syncNamed, h]

theorem syncSet_done {c : Core} {n : Nat} {p : Packet} {o : SyncObj} (h9 : passes (step9 p (range 2 32 (pf p 2 32 2 != 3))) = true)
    (hobj : c.syncLookup n (pf p 2 0 24) = .ok (some o)) (hfits : (syncOpOf (pf p 2 32 2)).fits o.token false = true) :
    c.syncSet n p = .ok (.done vOk (c.syncUpdate o 1 (syncOpOf (pf p 2 32 2)) (pw p 3))) := by
  rw [Core.syncSet]
  exact bind_of_ok (passes_unit h9) (bind_of_ok (syncNamed_mapped hobj) (bind_of_ok (ensure_of _ hfits) rfl))

theorem syncWait_signal {c : Core} {n : Nat} {p : Packet} (hexpert : pkExp p = true)
    (h9 : passes (step9 p (range 2 0 (c.sigIn n (pf p 2 0 12)))) = true) :
    c.syncWait n p = .ok (.hold (.sigWait p (pf p 2 0 12) (pw p 3)) c) := by
  rw [Core.syncWait, if_pos hexpert]
  exact bind_of_ok (passes_unit h9) rfl

theorem syncWait_object {c : Core} {n : Nat} {p : Packet} {o : SyncObj} (hplain : pkExp p = false) (h9 : passes (step9 p []) = true)
    (hobj : c.syncLookup n (pf p 2 0 24) = .ok (some o)) :
    c.syncWait n p = .ok (.hold (.syncWait p (pf p 2 0 24)) (c.syncArm o { who := .queue n, skein := 0, equal := false, threshold := pw p 3 })) := by
  rw [Core.syncWait, if_neg (by rw [hplain]; exact Bool.false_ne_true)]
  exact bind_of_ok (passes_unit h9) (bind_of_ok (syncNamed_mapped hobj) rfl)

/-! The lowest free objects (R219) -/

theorem lowestFree_free (used : List Nat) (fuel i count : Nat) {q : Nat} (h : q ∈ lowestFree used fuel i count) :
    q ∉ used ∧ i ≤ q ∧ q < i + fuel := by
  induction fuel generalizing i count with
  | zero => exact absurd h List.not_mem_nil
  | succ fuel ih =>
    cases count with
    | zero => exact absurd h List.not_mem_nil
    | succ count =>
      rw [lowestFree] at h
      split at h
      next =>
        obtain ⟨hfree, hlo, hhi⟩ := ih _ _ h
        exact ⟨hfree, by omega, by omega⟩
      next hunused =>
        rcases List.mem_cons.mp h with rfl | hmem
        · exact ⟨fun hq => hunused (List.contains_iff_mem.mpr hq), by omega, by omega⟩
        · obtain ⟨hfree, hlo, hhi⟩ := ih _ _ hmem
          exact ⟨hfree, by omega, by omega⟩

theorem nodup_lowestFree (used : List Nat) (fuel i count : Nat) : (lowestFree used fuel i count).Nodup := by
  induction fuel generalizing i count with
  | zero => exact List.nodup_nil
  | succ fuel ih =>
    cases count with
    | zero => exact List.nodup_nil
    | succ count =>
      rw [lowestFree]
      split
      next => exact ih ..
      next => exact List.nodup_cons.mpr ⟨fun h => by have := (lowestFree_free _ _ _ _ h).2.1; omega, ih ..⟩

/-- There are as many free numbers as are asked for, where the range is by that many longer than what is used of it. -/
theorem length_lowestFree (used : List Nat) (fuel i count : Nat)
    (h : ((List.range' i fuel).filter fun q => used.contains q).length + count ≤ fuel) : (lowestFree used fuel i count).length = count := by
  induction fuel generalizing i count with
  | zero => rw [lowestFree, List.length_nil]; omega
  | succ fuel ih =>
    cases count with
    | zero => rw [lowestFree, List.length_nil]; exact nofun
    | succ count =>
      rw [List.range'_succ, List.filter_cons] at h
      rw [lowestFree]
      split at h
      next hused =>
        rw [List.length_cons] at h
        rw [if_pos hused]
        exact ih _ _ (by omega)
      next hunused =>
        rw [if_neg hunused, List.length_cons, ih _ _ (by omega)]

/-- No more numbers of a range are used than there are used ones. -/
theorem length_used_le (used : List Nat) (i fuel : Nat) : ((List.range' i fuel).filter fun q => used.contains q).length ≤ used.length := by
  refine (List.subperm_of_subset ((List.nodup_range' (step := 1)).filter _) fun q hq => ?_).length_le
  exact List.contains_iff_mem.mp (List.mem_filter.mp hq).2

theorem length_lowestFree_used (used : List Nat) (count : Nat) : (lowestFree used (used.length + count) 0 count).length = count :=
  length_lowestFree _ _ _ _ (Nat.add_le_add_right (length_used_le ..) count)

/-! Translations -/

theorem mapM_ok {ε α β : Type} {f : α → Except ε β} {g : α → β} {l : List α} (h : ∀ a, a ∈ l → f a = .ok (g a)) : l.mapM f = .ok (l.map g) := by
  induction l with
  | nil => rfl
  | cons a rest ih =>
    rw [List.mapM_cons, h a List.mem_cons_self]
    exact bind_of_ok rfl (bind_of_ok (ih fun b hb => h b (List.mem_cons_of_mem a hb)) rfl)

theorem mapM_range_ok {ε β : Type} {f : Nat → Except ε β} {l : List β} (start : Nat) (h : ∀ i b, l[i]? = some b → f (start + i) = .ok b) :
    (List.range' start l.length).mapM f = .ok l := by
  induction l generalizing start with
  | nil => rfl
  | cons b rest ih =>
    rw [List.length_cons, List.range'_succ, List.mapM_cons, show f start = .ok b from h 0 b rfl]
    refine bind_of_ok rfl (bind_of_ok (ih (start + 1) fun i x hx => ?_) rfl)
    rw [Nat.add_assoc, Nat.add_comm 1 i]
    exact h (i + 1) x hx

/-- The objects that SYNC_ALLOC maps: the lowest free ones. -/
def Core.newObjs (c : Core) (n vid count : Nat) (token : Bool) : List SyncObj :=
  (lowestFree (c.sync.objs.map (·.phys)) ((c.sync.objs.map (·.phys)).length + count) 0 count).zipIdx.map fun q =>
    ({ phys := q.1, ctx := n, vid := vid + q.2, token := token, value := 0, waiters := [], upds := [], arms := [] } : SyncObj)

section NewObjs
variable (c : Core) (n vid count : Nat) (token : Bool)

theorem length_newObjs : (c.newObjs n vid count token).length = count := by
  rw [Core.newObjs, List.length_map, List.length_zipIdx, length_lowestFree_used]

theorem phys_newObjs : (c.newObjs n vid count token).map (·.phys)
    = lowestFree (c.sync.objs.map (·.phys)) ((c.sync.objs.map (·.phys)).length + count) 0 count := by
  rw [Core.newObjs, List.map_map]
  exact List.zipIdx_map_fst ..

theorem vid_newObjs : (c.newObjs n vid count token).map (·.vid) = (List.range count).map (vid + ·) := by
  rw [Core.newObjs, List.map_map]
  have hidx : (fun q : Nat × Nat => vid + q.2) = (vid + ·) ∘ Prod.snd := rfl
  change List.map (fun q : Nat × Nat => vid + q.2) _ = _
  rw [hidx, ← List.map_map, List.zipIdx_map_snd, length_lowestFree_used, List.range_eq_range']

/-- Each object that is mapped was free, and is zero with nobody waiting. -/
theorem newObjs_fresh {o : SyncObj} (ho : o ∈ c.newObjs n vid count token) : o.phys ∉ c.sync.objs.map (·.phys)
    ∧ o.phys < c.sync.objs.length + count ∧ o.ctx = n ∧ o.token = token ∧ o.value = 0 ∧ o.waiters = [] ∧ o.arms = [] ∧ o.upds = [] := by
  have hphys := List.mem_map_of_mem (f := (·.phys)) ho
  rw [phys_newObjs] at hphys
  obtain ⟨hfree, -, hlt⟩ := lowestFree_free _ _ _ _ hphys
  rw [List.length_map, Nat.zero_add] at hlt
  obtain ⟨q, -, rfl⟩ := List.mem_map.mp ho
  exact ⟨hfree, hlt, rfl, rfl, rfl, rfl, rfl, rfl⟩

end NewObjs

/-- The entries of a table of objects. -/
def entryBytes (base : Nat) (objs : List SyncObj) : List Byte := objs.flatMap fun o => wordBytes (w64 (base + b2n o.token * 2 ^ 62 + o.phys))

theorem length_entryBytes (base : Nat) (objs : List SyncObj) : (entryBytes base objs).length = 8 * objs.length :=
  length_flatMap_same (fun _ => length_natBytes 8 _) objs

section Alloc
variable {c : Core} {n : Nat} {p : Packet}
  (h9 : passes (step9 p (range 3 0 (decide (1 ≤ pf p 3 0 19) && decide (pf p 3 0 19 ≤ 262144)))) = true)
include h9

theorem syncAlloc_done (htable : (c.ctx n).syncLog2 ≠ 0) (hin : pf p 2 0 24 + pf p 3 0 19 ≤ 2 ^ (c.ctx n).syncLog2)
    (hunmapped : ∀ i, i < pf p 3 0 19 → c.syncLookup n (pf p 2 0 24 + i) = .ok none)
    (hquota : (c.objsOf n).length + pf p 3 0 19 ≤ (c.ctx n).syncQuota) (hroom : c.sync.objs.length + pf p 3 0 19 ≤ c.cfg.syncObjects)
    (hfault : c.writeFault (c.syncEntryAddr n (pf p 2 0 24)) (8 * pf p 3 0 19) = none) :
    c.syncAlloc n p = .ok (.done vOk
      { c.writeBytes (c.syncEntryAddr n (pf p 2 0 24)) (entryBytes (2 ^ 63) (c.newObjs n (pf p 2 0 24) (pf p 3 0 19) (pb p 3 32))) with
        sync := { c.sync with objs := c.sync.objs ++ c.newObjs n (pf p 2 0 24) (pf p 3 0 19) (pb p 3 32) } }) := by
  have hfound : ((List.range (pf p 3 0 19)).mapM fun i => match c.syncLookup n (pf p 2 0 24 + i) with
      | .error k => Except.error (vFaulted 2 k)
      | .ok o => .ok o) = .ok ((List.range (pf p 3 0 19)).map fun _ => none) :=
    mapM_ok fun i hi => by rw [hunmapped i (List.mem_range.mp hi)]
  have hnone : ((List.range (pf p 3 0 19)).map fun _ => (none : Option SyncObj)).all Option.isNone = true :=
    List.all_eq_true.mpr fun o ho => by
      obtain ⟨_, -, rfl⟩ := List.mem_map.mp ho
      rfl
  rw [Core.syncAlloc]
  refine bind_of_ok (passes_unit h9) (bind_of_ok (ensure_of _ (Bool.and_eq_true_iff.mpr ⟨bne_iff_ne.mpr htable, decide_eq_true hin⟩)) ?_)
  refine bind_of_ok hfound (bind_of_ok (ensure_of _ hnone) (bind_of_ok (ensure_of _ ?_) ?_))
  · exact Bool.and_eq_true_iff.mpr ⟨decide_eq_true hquota, decide_eq_true hroom⟩
  · have hbytes : ((c.newObjs n (pf p 2 0 24) (pf p 3 0 19) (pb p 3 32)).flatMap fun o =>
        wordBytes (w64 (bitW 63 true + bitW 62 (pb p 3 32) + o.phys)))
        = entryBytes (2 ^ 63) (c.newObjs n (pf p 2 0 24) (pf p 3 0 19) (pb p 3 32)) :=
      List.flatMap_congr fun o ho => by
        rw [(newObjs_fresh _ _ _ _ _ ho).2.2.2.1, bitW, bitW, b2n, if_pos rfl, Nat.one_mul]
    change c.writeThen 2 _ ((c.newObjs n (pf p 2 0 24) (pf p 3 0 19) (pb p 3 32)).flatMap _) _ = _
    rw [hbytes]
    exact writeThen_next _ (by rw [length_entryBytes, length_newObjs]; exact hfault)

theorem syncFree_done {objs : List SyncObj} (hlen : objs.length = pf p 3 0 19)
    (hmapped : ∀ i o, objs[i]? = some o → c.syncLookup n (pf p 2 0 24 + i) = .ok (some o)) (hunwaited : objs.any c.hasWaiter = false)
    (hfault : c.writeFault (c.syncEntryAddr n (pf p 2 0 24)) (8 * pf p 3 0 19) = none) :
    c.syncFree n p = .ok (.done vOk ((c.writeBytes (c.syncEntryAddr n (pf p 2 0 24))
        (objs.flatMap fun o => wordBytes (w64 (b2n o.token * 2 ^ 62 + o.phys)))).freeObjs
      fun o => o.ctx == n && decide (pf p 2 0 24 ≤ o.vid) && decide (o.vid < pf p 2 0 24 + pf p 3 0 19))) := by
  have hfound : ((List.range (pf p 3 0 19)).mapM fun i => match c.syncLookup n (pf p 2 0 24 + i) with
      | .error k => Except.error (vFaulted 2 k)
      | .ok none => .error (vState 4)
      | .ok (some o) => .ok o) = .ok objs := by
    rw [← hlen, List.range_eq_range']
    exact mapM_range_ok 0 fun i o ho => by rw [Nat.zero_add, hmapped i o ho]
  rw [Core.syncFree]
  refine bind_of_ok (passes_unit h9) (bind_of_ok hfound (bind_of_ok (ensure_of _ (by rw [hunwaited]; rfl)) ?_))
  have hbytes : (objs.flatMap fun o => wordBytes (w64 (bitW 62 o.token + o.phys))).length = 8 * pf p 3 0 19 :=
    hlen ▸ length_flatMap_same (fun _ => length_natBytes 8 _) objs
  exact writeThen_next _ (by rw [hbytes]; exact hfault)

end Alloc

/-- Settles O40: SYNC_SET and SYNC_WAIT by the object named, SYNC_ALLOC by the lowest free objects, SYNC_FREE by those that are mapped. -/
theorem syncCommands : Obligations.SyncCommands := by
  unfold Obligations.SyncCommands
  refine ⟨fun s n p => ?_, fun s n p htakes => ?_, fun s n p objs htakes => ?_⟩
  · intro c
    refine ⟨fun o htakes h9 hobj hfits => ?_, fun htakes hexpert h9 => ?_, fun o htakes hplain h9 hobj => ?_⟩
    · exact onCommand_done (run := fun _ c n p => c.syncSet n p) htakes (syncSet_done h9 hobj hfits)
    · exact onCommand_hold (run := fun _ c n p => c.syncWait n p) htakes (syncWait_signal hexpert h9)
    · exact onCommand_hold (run := fun _ c n p => c.syncWait n p) htakes (syncWait_object hplain h9 hobj)
  · intro c vid count h9 htable hin hunmapped hquota hroom hfault
    refine ⟨c.newObjs n vid count (pb p 3 32), onCommand_done (run := fun _ c n p => c.syncAlloc n p) htakes
      (syncAlloc_done h9 htable hin hunmapped hquota hroom hfault), length_newObjs .., ?_, vid_newObjs .., fun o ho => ?_⟩
    · rw [phys_newObjs]
      exact nodup_lowestFree ..
    · obtain ⟨hfree, hlt, hrest⟩ := newObjs_fresh c n vid count _ ho
      exact ⟨hfree, Nat.lt_of_lt_of_le hlt hroom, hrest⟩
  · intro c vid count h9 hlen hmapped hunwaited hfault d
    exact onCommand_done (run := fun _ c n p => c.syncFree n p) htakes (syncFree_done h9 hlen hmapped hunwaited hfault)

end Sys2Proof.Machine
end

section
/-! PROOFS. The evaluation of synchronisation objects and the end of their DCLK (O41): one object after another. -/

namespace Sys2Proof.Machine

/-! Each object once -/

/-- In a list without a name twice, the object of a name is found, and replacing it leaves every other. -/
theorem obj_alone {pre suf : List SyncObj} {o x : SyncObj} (hx : x.phys = o.phys) (h : ((pre ++ o :: suf).map (·.phys)).Nodup) :
    ((pre ++ o :: suf).find? fun p => p.phys == o.phys) = some o
    ∧ ((pre ++ o :: suf).map fun p => if p.phys = x.phys then x else p) = pre ++ x :: suf := by
  rw [List.map_append, List.map_cons] at h
  obtain ⟨-, hsuf, hpre⟩ := List.nodup_append.mp h
  have hbefore : ∀ p, p ∈ pre → p.phys ≠ o.phys := fun p hp => hpre _ (List.mem_map_of_mem hp) _ List.mem_cons_self
  have hafter : ∀ p, p ∈ suf → p.phys ≠ o.phys := fun p hp e =>
    (List.nodup_cons.mp hsuf).1 (e ▸ List.mem_map_of_mem (f := (·.phys)) hp)
  have hkept : ∀ l : List SyncObj, (∀ p, p ∈ l → p.phys ≠ o.phys) → (l.map fun p => if p.phys = x.phys then x else p) = l := fun l hl =>
    (List.map_congr_left fun p hp => if_neg (hx ▸ hl p hp)).trans (List.map_id l)
  constructor
  · rw [List.find?_append, List.find?_eq_none.mpr fun p hp => by simpa using hbefore p hp, Option.none_or,
      List.find?_cons_of_pos (p := fun p : SyncObj => p.phys == o.phys) (beq_self_eq_true _)]
  · rw [List.map_append, List.map_cons, hkept pre hbefore, hkept suf hafter, if_pos hx.symm]

/-- A step that replaces the object of its name, taken once for each object, replaces them all. -/
theorem foldl_eachObj {f : SyncObj → SyncObj} (hf : ∀ o, (f o).phys = o.phys) {step : Core → Nat → Core} {R : List SyncObj → Core → Prop}
    {l : List SyncObj} {c : Core} (hnodup : (l.map (·.phys)).Nodup) (hstart : R l c)
    (hstep : ∀ pre o suf d, o ∈ l → ((pre ++ o :: suf).map (·.phys)).Nodup → R (pre ++ o :: suf) d → R (pre ++ f o :: suf) (step d o.phys)) :
    R (l.map f) ((l.map (·.phys)).foldl step c) := by
  have hall : ∀ suf pre d, l = pre ++ suf → R (pre.map f ++ suf) d → R (l.map f) ((suf.map (·.phys)).foldl step d) := by
    intro suf
    induction suf with
    | nil =>
      intro pre d hl hR
      rwa [List.append_nil, ← (List.append_nil pre ▸ hl : l = pre)] at hR
    | cons o rest ih =>
      intro pre d hl hR
      have hnames : ((pre.map f ++ o :: rest).map (·.phys)).Nodup := by
        rw [hl, List.map_append] at hnodup
        rwa [List.map_append, List.map_map, show (fun p : SyncObj => p.phys) ∘ f = fun p => p.phys from funext hf]
      have hnext := hstep (pre.map f) o rest d (hl ▸ List.mem_append_right pre List.mem_cons_self) hnames hR
      refine ih (pre ++ [o]) (step d o.phys) (by rw [hl, List.append_assoc, List.singleton_append]) ?_
      rwa [List.map_append, List.map_cons, List.map_nil, List.append_assoc, List.singleton_append]
  exact hall l [] c rfl hstart

/-! The evaluation (R222 steps 1 and 2) -/

/-- A core with other contexts and other objects, evaluated in a DCLK. -/
def Core.evaluated (c : Core) (xs : AMap Ctx) (at_ : Option Nat) (l : List SyncObj) : Core :=
  { c with ctxs := xs, sync := { c.sync with evalAt := at_, objs := l } }

/-- Contexts that differ in their counts of non-deterministic releases. -/
def CountsFrom (xs ys : AMap Ctx) : Prop := ∀ n, agetD ys n Ctx.reset = { agetD xs n Ctx.reset with ndc := (agetD ys n Ctx.reset).ndc }

theorem CountsFrom.refl (xs : AMap Ctx) : CountsFrom xs xs := fun _ => rfl

theorem CountsFrom.count {xs ys : AMap Ctx} (h : CountsFrom xs ys) (m k : Nat) :
    CountsFrom xs (aset ys m { agetD ys m Ctx.reset with ndc := k }) := by
  intro n
  by_cases hn : n = m
  · rw [hn, agetD_aset_self, h m]
  · rw [agetD_aset_other _ _ _ _ _ hn]
    exact h n

/-- The contexts after the count of a release of an object. -/
def Core.countsOf (c : Core) (xs : AMap Ctx) (o : SyncObj) : AMap Ctx :=
  if (c.evalObj o).2.2 then aset xs o.ctx { agetD xs o.ctx Ctx.reset with ndc := sat64 (agetD xs o.ctx Ctx.reset).ndc 1 } else xs

theorem evalOne_evaluated {c : Core} {xs : AMap Ctx} {at_ : Option Nat} {pre suf : List SyncObj} {o : SyncObj}
    (h : ((pre ++ o :: suf).map (·.phys)).Nodup) :
    (c.evaluated xs at_ (pre ++ o :: suf)).evalOne o.phys = c.evaluated (c.countsOf xs o) at_ (pre ++ (c.evalObj o).2.1 :: suf) := by
  obtain ⟨hfind, hmap⟩ := obj_alone (o := o) (x := (c.evalObj o).2.1) rfl h
  have hset : (c.evaluated xs at_ (pre ++ o :: suf)).setObj (c.evalObj o).2.1 = c.evaluated xs at_ (pre ++ (c.evalObj o).2.1 :: suf) := by
    rw [← hmap]
    rfl
  rw [Core.evalOne, show (c.evaluated xs at_ (pre ++ o :: suf)).sync.objs = pre ++ o :: suf from rfl, hfind]
  change (if (c.evalObj o).2.2 then ((c.evaluated xs at_ (pre ++ o :: suf)).setObj (c.evalObj o).2.1).ndInc o.ctx 1
    else (c.evaluated xs at_ (pre ++ o :: suf)).setObj (c.evalObj o).2.1) = _
  rw [hset, Core.countsOf]
  split <;> rfl

/-- SYNC_OBJECT_EVALUATION evaluates each object against the values of the DCLK before. -/
theorem foldl_evalOne {c : Core} {at_ : Option Nat} (hnodup : (c.sync.objs.map (·.phys)).Nodup) :
    ∃ xs, (c.sync.objs.map (·.phys)).foldl Core.evalOne (c.evaluated c.ctxs at_ c.sync.objs)
        = c.evaluated xs at_ (c.sync.objs.map fun o => (c.evalObj o).2.1)
      ∧ CountsFrom c.ctxs xs ∧ ((∀ o, o ∈ c.sync.objs → (c.evalObj o).2.2 = false) → xs = c.ctxs) := by
  refine foldl_eachObj (f := fun o => (c.evalObj o).2.1) (fun _ => rfl) (R := fun l d => ∃ xs, d = c.evaluated xs at_ l
    ∧ CountsFrom c.ctxs xs ∧ ((∀ o, o ∈ c.sync.objs → (c.evalObj o).2.2 = false) → xs = c.ctxs)) hnodup
    ⟨_, rfl, .refl _, fun _ => rfl⟩ ?_
  rintro pre o suf d ho hnames ⟨xs, rfl, hcounts, hnone⟩
  refine ⟨c.countsOf xs o, evalOne_evaluated hnames, ?_, fun h => ?_⟩
  · rw [Core.countsOf]
    split
    · exact hcounts.count o.ctx _
    · exact hcounts
  · rw [Core.countsOf, h o ho]
    exact hnone h

/-! What an object releases (R222 step 2) -/

/-- The waiters of an object that are not withdrawn. -/
def Core.standing (c : Core) (o : SyncObj) : List SyncWaiter := o.waiters.filter fun w => !c.waiterGone o w

theorem evalObj_semaphore {c : Core} {o : SyncObj} (h : o.token = true) :
    (c.evalObj o).1 = (c.standing o).take (min o.value.toNat (c.standing o).length)
    ∧ (c.evalObj o).2.1.waiters = (c.standing o).drop (min o.value.toNat (c.standing o).length)
    ∧ (c.evalObj o).2.1.value.toNat + (c.evalObj o).1.length = o.value.toNat := by
  have hrelease : o.release (c.standing o) = ((c.standing o).take (min o.value.toNat (c.standing o).length),
      (c.standing o).drop (min o.value.toNat (c.standing o).length), o.value - w64 (min o.value.toNat (c.standing o).length)) := by
    rw [SyncObj.release, if_pos h]
  have heval : (c.evalObj o).1 = (o.release (c.standing o)).1 ∧ (c.evalObj o).2.1.waiters = (o.release (c.standing o)).2.1
      ∧ (c.evalObj o).2.1.value = (o.release (c.standing o)).2.2 := ⟨rfl, rfl, rfl⟩
  obtain ⟨hout, hwaiters, hvalue⟩ := heval
  rw [hout, hwaiters, hvalue, hrelease]
  refine ⟨rfl, rfl, ?_⟩
  have hlt := o.value.isLt
  have hn : (w64 (min o.value.toNat (c.standing o).length)).toNat = min o.value.toNat (c.standing o).length := by
    rw [w64, BitVec.toNat_ofNat, Nat.mod_eq_of_lt (by omega)]
  rw [BitVec.toNat_sub_of_le (by rw [BitVec.le_def, hn]; omega), hn, List.length_take]
  omega

theorem evalObj_counter {c : Core} {o : SyncObj} (h : o.token = false) : (c.evalObj o).2.1.value = o.value
    ∧ ∀ w, w ∈ (c.evalObj o).1 ↔ w ∈ c.standing o ∧ (if w.equal then o.value = w.threshold else w.threshold.toNat ≤ o.value.toNat) := by
  have heval : (c.evalObj o).1 = (o.release (c.standing o)).1 ∧ (c.evalObj o).2.1.value = (o.release (c.standing o)).2.2 := ⟨rfl, rfl⟩
  obtain ⟨hout, hvalue⟩ := heval
  rw [hout, hvalue, SyncObj.release, h]
  refine ⟨rfl, fun w => ?_⟩
  change w ∈ List.filter _ _ ↔ _
  rw [List.mem_filter]
  cases w.equal <;> simp

/-! The end of the DCLK (R222 steps 3 and 4) -/

/-- An object from which nothing was released, at the end of its DCLK. -/
def Core.endObj (c : Core) (o : SyncObj) : SyncObj :=
  { o with value := (sortBy (fun a b : SyncUpd => decide (a.rank < b.rank)) o.upds).foldl (fun a u => u.apply a) o.value,
           waiters := c.standing o ++ sortBy (fun a b : SyncWaiter => keysLt a.key b.key) o.arms, upds := [], arms := [] }

theorem reviseObj_unreleased {c : Core} {o : SyncObj} (h : o.out = []) : c.reviseObj o = { o with waiters := c.standing o } := by
  have hkept : (o.out.filter fun w => !c.waiterGone o w) = o.out := by rw [h]; rfl
  have hback : o.out.length - o.out.length = 0 := Nat.sub_self _
  rw [Core.reviseObj]
  dsimp only
  rw [hkept, hback, Nat.zero_min, List.take_zero, List.drop_zero, List.append_nil, w64, BitVec.add_zero]
  exact ite_id _

theorem endOne_evaluated {c : Core} {pre suf : List SyncObj} {o : SyncObj} (hout : o.out = []) (hcounted : o.counted = false)
    (h : ((pre ++ o :: suf).map (·.phys)).Nodup) :
    (c.evaluated c.ctxs c.sync.evalAt (pre ++ o :: suf)).endOne o.phys
      = c.evaluated c.ctxs c.sync.evalAt (pre ++ c.endObj o :: suf) := by
  obtain ⟨hfind, hmap⟩ := obj_alone (o := o) (x := c.endObj o) rfl h
  have hrevised : (c.evaluated c.ctxs c.sync.evalAt (pre ++ o :: suf)).reviseObj o = { o with waiters := c.standing o } :=
    reviseObj_unreleased hout
  have hfold : ({ o with waiters := c.standing o } : SyncObj).fold = c.endObj o := by
    rw [SyncObj.fold, Core.endObj, hout, hcounted]
  rw [Core.endOne, show (c.evaluated c.ctxs c.sync.evalAt (pre ++ o :: suf)).sync.objs = pre ++ o :: suf from rfl, hfind]
  dsimp only
  rw [hrevised, hfold, hout, List.foldl_nil, Core.uncount, hcounted, Bool.false_and, if_neg Bool.false_ne_true, ← hmap]
  rfl

theorem syncEnd_unreleased {c : Core} (hnodup : (c.sync.objs.map (·.phys)).Nodup)
    (hnone : ∀ o, o ∈ c.sync.objs → o.out = [] ∧ o.counted = false) :
    c.syncEnd = c.evaluated c.ctxs c.sync.evalAt (c.sync.objs.map c.endObj) :=
  foldl_eachObj (f := c.endObj) (fun _ => rfl) (R := fun l d => d = c.evaluated c.ctxs c.sync.evalAt l) hnodup rfl
    fun _ _ _ _ ho hnames hd => hd ▸ endOne_evaluated (hnone _ ho).1 (hnone _ ho).2 hnames

/-- A queue that is released has its final reply (R224). -/
theorem releaseWaiter_queue {c : Core} {w : SyncWaiter} {n vid : Nat} {p : Packet} (hwho : w.who = .queue n)
    (hcur : (c.queue n).cur = .syncWait p vid) : c.releaseWaiter w = c.finalReply n (pkTag p) vOk (pkIrq p) true := by
  rw [Core.releaseWaiter, hwho]
  simp only [Core.release, hcur]

/-- Settles O41: the evaluation and the end of the DCLK, object by object, and what one object releases by its kind. -/
theorem syncEvaluation : Obligations.SyncEvaluation := by
  unfold Obligations.SyncEvaluation
  refine ⟨fun s hrunning hnodup => ?_, fun c o => ?_, fun c hnodup hnone => ?_, fun c w n vid p hwho hcur => releaseWaiter_queue hwho hcur⟩
  · refine ⟨fun hdone => ?_, fun hfresh => ?_⟩
    · change execSyncObjectEvaluation s = _
      rw [execSyncObjectEvaluation, onRun_running hrunning, if_pos hdone]
      rfl
    · obtain ⟨xs, hfold, hcounts, hsame⟩ := foldl_evalOne (at_ := some s.core.dclk) hnodup
      refine ⟨xs, ?_, hcounts, hsame⟩
      change execSyncObjectEvaluation s = _
      rw [execSyncObjectEvaluation, onRun_running hrunning, if_neg hfresh]
      exact congrArg (fun d => Host.Outcome.next (s.withCore d)) hfold
  · intro ws
    exact ⟨fun h => evalObj_semaphore h, fun h => evalObj_counter h⟩
  · rw [syncEnd_unreleased hnodup hnone]
    rfl

end Sys2Proof.Machine
end

section
/-! PROOFS. The operations of the manual-access window (O42): what an operation uses of its grant, and its record. -/

namespace Sys2Proof.Machine

/-! SZ_SM_STATUS after an operation (R228) -/

/-- The status word after an operation that passes its checks. -/
def manualPassed (w : W64) : W64 := setFld (manualUsed w) 16 8 0

/-- An operation counts, uses up one operation of its grant, ends the grant with the last one, and shows status 0. -/
structure ManualUse (w v : W64) : Prop where
  counts : fld v 48 16 = min (fld w 48 16 + 1) (2 ^ 16 - 1)
  left   : fld v 32 16 = fld w 32 16 - 1
  grant  : bitAt v 2 = decide (1 < fld w 32 16)
  status : fld v 16 8 = 0

theorem manualUse_passed (w : W64) : ManualUse w (manualPassed w) where
  counts := by
    rw [manualPassed, fld_setFld_apart _ _ (by omega), manualUsed, fld_setBit_apart _ _ (by omega), fld_setFld_apart _ _ (by omega),
      fld_satAdd_self _ _ (by omega)]
  left := by
    have := fld_lt w 32 16
    rw [manualPassed, fld_setFld_apart _ _ (by omega), manualUsed, fld_setBit_apart _ _ (by omega), fld_setFld_self _ _ (by omega),
      Nat.mod_eq_of_lt (by omega)]
  grant := by
    rw [manualPassed, bitAt_setFld_outside _ _ (by omega), manualUsed, bitAt_setBit_self _ _ (by omega)]
    by_cases h : 1 < fld w 32 16
    · rw [decide_eq_true h]
      exact bne_iff_ne.mpr (by omega)
    · rw [decide_eq_false h, show fld w 32 16 - 1 = 0 by omega]
      rfl
  status := by rw [manualPassed, fld_setFld_self _ _ (by omega), Nat.zero_mod]

/-- The bit that shows the kind of the object read is no part of the use. -/
theorem ManualUse.setKind {w v : W64} (h : ManualUse w v) (token : Bool) : ManualUse w (setBit v 5 token) where
  counts := by rw [fld_setBit_apart _ _ (by omega), h.counts]
  left := by rw [fld_setBit_apart _ _ (by omega), h.left]
  grant := by rw [bitAt_setBit_other _ _ (by omega), h.grant]
  status := by rw [fld_setBit_apart _ _ (by omega), h.status]

/-! The operation -/

section Manual
variable {c : Core} {o : SyncObj} (hgranted : bitAt c.sync.win.status 2 = true) (hidle : bitAt c.sync.win.status 3 = false)
  (hctx : fld c.sync.win.target 0 6 = fld c.sync.win.status 24 6)
  (hobj : c.syncLookup (fld c.sync.win.target 0 6) (fld c.sync.win.target 8 24) = .ok (some o))

include hgranted hidle hobj in
/-- Under a grant, with nothing under way and the entry at hand, an operation completes at once. -/
theorem manualOp_completes (code : Nat) (op : Option SyncOp) : c.manualOp code op = some (c.manualDo code op) := by
  have hread : c.manualHeld = false := by rw [Core.manualHeld, hobj]
  simp only [Core.manualOp, hgranted, hidle, hread, Bool.not_true, Bool.or_self, Bool.false_eq_true, if_false]

/-- A window that shows what was read. -/
def Core.manualShown (c : Core) (o : SyncObj) : Core := c.setWin (setBit (manualPassed c.sync.win.status) 5 o.token) o.value

/-- An object updated by the window. -/
def Core.manualUpdated (c : Core) (o : SyncObj) (op : SyncOp) : Core :=
  ((c.setWin (manualPassed c.sync.win.status) c.sync.win.data).syncUpdate o 0 op c.sync.win.data).ndInc o.ctx 1

include hctx hobj

theorem manualDo_read : c.manualDo 0 none = (c.manualShown o).logManual o.ctx o.vid 0 o.value o.value := by
  have hcheck : c.manualCheck none = (0, some o) := by
    rw [Core.manualCheck]
    dsimp only
    rw [if_neg (not_not.mpr hctx), hobj]
  rw [Core.manualDo, hcheck]
  rfl

theorem manualDo_update {op : SyncOp} (code : Nat) (hfits : op.fits o.token true = true) : c.manualDo code (some op)
    = (c.manualUpdated o op).logManual o.ctx o.vid code (c.manualBefore o)
      ((SyncUpd.mk 0 op c.sync.win.data).apply (c.manualBefore o)) := by
  have hcheck : c.manualCheck (some op) = (0, some o) := by
    rw [Core.manualCheck]
    dsimp only
    rw [if_neg (not_not.mpr hctx), hobj]
    exact if_pos hfits
  rw [Core.manualDo, hcheck]
  rfl

end Manual

/-! The record (Table 13-4) -/

/-- A MANUAL record leaves all that the window and the objects hold. -/
theorem logManual_keeps (c : Core) (ctx vid code : Nat) (before after : W64) :
    (c.logManual ctx vid code before after).sync = c.sync ∧ (c.logManual ctx vid code before after).graph = c.graph
    ∧ (c.logManual ctx vid code before after).mem = c.mem ∧ (c.logManual ctx vid code before after).queues = c.queues
    ∧ (c.logManual ctx vid code before after).ctxs = c.ctxs := by
  obtain ⟨e, f, l, h⟩ := logRaw_changes_fault c 0x07 (w64 (vid * 2 ^ 40 + code * 2 ^ 16 + ctx)) before after
  rw [Core.logManual, h]
  exact ⟨rfl, rfl, rfl, rfl, rfl⟩

theorem logManual_stands {c : Core} (ctx vid code : Nat) (before after : W64) (hroom : diff32 c.evt.wr c.evt.rd < 1024)
    (hfresh : c.logFresh = true) : ∃ x, aget (c.logManual ctx vid code before after).evt.recs (c.evt.wr % 1024) = some x ∧ x.cls = 7
    ∧ x.w0 = w64 (vid * 2 ^ 40 + code * 2 ^ 16 + ctx) ∧ x.w1 = before ∧ x.w3 = after :=
  ⟨_, (aget_logRaw_fresh _ _ _ _ hroom hfresh).1, rfl, rfl, rfl, rfl⟩

/-- What every operation under a grant leaves: its use of the grant, the rest of the window, the graph, memory and the queues, and its
record where the log has room. -/
structure ManualDone (c d : Core) (o : SyncObj) (code : Nat) (before after : W64) : Prop where
  use    : ManualUse c.sync.win.status d.sync.win.status
  target : d.sync.win.target = c.sync.win.target
  graph  : d.graph = c.graph
  mem    : d.mem = c.mem
  queues : d.queues = c.queues
  logged : diff32 c.evt.wr c.evt.rd < 1024 → c.logFresh = true → ∃ x, aget d.evt.recs (c.evt.wr % 1024) = some x ∧ x.cls = 7
    ∧ x.w0 = w64 (o.vid * 2 ^ 40 + code * 2 ^ 16 + o.ctx) ∧ x.w1 = before ∧ x.w3 = after

section Done
variable {c : Core} {o : SyncObj} (hgranted : bitAt c.sync.win.status 2 = true) (hidle : bitAt c.sync.win.status 3 = false)
  (hctx : fld c.sync.win.target 0 6 = fld c.sync.win.status 24 6)
  (hobj : c.syncLookup (fld c.sync.win.target 0 6) (fld c.sync.win.target 8 24) = .ok (some o))
include hgranted hidle hctx hobj

theorem manualOp_reads : ∃ d, c.manualOp 0 none = some d ∧ d.sync.win.data = o.value ∧ bitAt d.sync.win.status 5 = o.token
    ∧ ManualDone c d o 0 o.value o.value ∧ d.sync.objs = c.sync.objs ∧ d.ctxs = c.ctxs := by
  obtain ⟨hsync, hgraph, hmem, hqueues, hctxs⟩ := logManual_keeps (c.manualShown o) o.ctx o.vid 0 o.value o.value
  have hwin : (c.manualShown o).sync.win = { c.sync.win with
      status := setBit (manualPassed c.sync.win.status) 5 o.token, data := o.value } := rfl
  refine ⟨_, (manualOp_completes hgranted hidle hobj 0 none).trans (congrArg some (manualDo_read hctx hobj)), ?_, ?_, ?_, ?_, hctxs⟩
  · rw [hsync, hwin]
  · rw [hsync, hwin]
    exact bitAt_setBit_self _ _ (by omega)
  · refine ⟨?_, ?_, hgraph, hmem, hqueues, fun hroom hfresh => ?_⟩
    · rw [hsync, hwin]
      exact (manualUse_passed c.sync.win.status).setKind o.token
    · rw [hsync, hwin]
    · exact logManual_stands (c := c.manualShown o) o.ctx o.vid 0 o.value o.value hroom hfresh
  · rw [hsync]
    rfl

theorem manualOp_updates {op : SyncOp} (code : Nat) (hfits : op.fits o.token true = true) : ∃ d, c.manualOp code (some op) = some d
    ∧ d.sync.objs = (c.setObj { o with upds := o.upds ++ [SyncUpd.mk 0 op c.sync.win.data] }).sync.objs
    ∧ d.ctxs = (c.ndInc o.ctx 1).ctxs ∧ d.sync.win.data = c.sync.win.data
    ∧ ManualDone c d o code (c.manualBefore o) ((SyncUpd.mk 0 op c.sync.win.data).apply (c.manualBefore o)) := by
  obtain ⟨hsync, hgraph, hmem, hqueues, hctxs⟩ := logManual_keeps (c.manualUpdated o op) o.ctx o.vid code (c.manualBefore o)
    ((SyncUpd.mk 0 op c.sync.win.data).apply (c.manualBefore o))
  have hwin : (c.manualUpdated o op).sync.win = { c.sync.win with status := manualPassed c.sync.win.status } := rfl
  refine ⟨_, (manualOp_completes hgranted hidle hobj code (some op)).trans (congrArg some (manualDo_update hctx hobj code hfits)),
    ?_, hctxs, ?_, ?_, ?_, hgraph, hmem, hqueues, fun hroom hfresh => ?_⟩
  · rw [hsync]
    rfl
  · rw [hsync, hwin]
  · rw [hsync, hwin]
    exact manualUse_passed c.sync.win.status
  · rw [hsync, hwin]
  · exact logManual_stands (c := c.manualUpdated o op) o.ctx o.vid code _ _ hroom hfresh

end Done

/-- The write of SZ_SM_OP that each operation is. -/
theorem exec_manualUpdate {s : State} {acc : Access} {i : Instr} {op : SyncOp} {code : Nat} {d : Core}
    (hop : (i = Instr.manualSet acc ∧ op = SyncOp.set ∧ code = 1) ∨ (i = .manualAdd acc ∧ op = .add ∧ code = 2)
      ∨ (i = .manualSignal acc ∧ op = .signal ∧ code = 3))
    (hserved : s.served 0x800028 acc = true) (hdone : s.core.manualOp code (some op) = some d) : exec i s = .next (s.withCore d) := by
  rcases hop with ⟨rfl, rfl, rfl⟩ | ⟨rfl, rfl, rfl⟩ | ⟨rfl, rfl, rfl⟩
  · exact onWrite_taken (f := fun _ c => c.manualOp 1 (some .set)) hserved hdone
  · exact onWrite_taken (f := fun _ c => c.manualOp 2 (some .add)) hserved hdone
  · exact onWrite_taken (f := fun _ c => c.manualOp 3 (some .signal)) hserved hdone

/-- Settles O42: each operation by what it uses of the grant, what it does to the object, and its record. -/
theorem manualOperations : Obligations.ManualOperations := by
  unfold Obligations.ManualOperations
  intro s acc o hserved hgranted hidle hctx hobj hown hvid used logged
  refine ⟨?_, fun i op code hop hfits => ?_⟩
  · obtain ⟨d, hdone, hdata, hkind, ⟨huse, htarget, hgraph, hmem, hqueues, hlogged⟩, hobjs, hctxs⟩ :=
      manualOp_reads hgranted hidle hctx hobj
    exact ⟨_, onWrite_taken (f := fun _ c => c.manualOp 0 none) hserved hdone, hdata, hkind,
      ⟨huse.counts, huse.left, huse.grant, huse.status, htarget, hgraph, hmem, hqueues⟩, hlogged, hobjs, hctxs⟩
  · obtain ⟨d, hdone, hobjs, hctxs, hdata, huse, htarget, hgraph, hmem, hqueues, hlogged⟩ :=
      manualOp_updates hgranted hidle hctx hobj code hfits
    exact ⟨_, exec_manualUpdate hop hserved hdone, hobjs, hctxs, hdata,
      ⟨huse.counts, huse.left, huse.grant, huse.status, htarget, hgraph, hmem, hqueues⟩, hlogged⟩

end Sys2Proof.Machine
end

section
/-! PROOFS. MOE_TABLE_LOAD, MOE_TABLE_UNLOAD and MOE_STATS (O47): tables, the live maps that they hold, and the words of a history. -/

namespace Sys2Proof.Machine

/-! MOE_TABLE_LOAD (R187, R188) -/

/-- A table resident, with the live map that it names. -/
def Core.withTable (c : Core) (tn : Nat) (t : MoeTable) : Core :=
  let e := c.setTable tn { Moe.reset with tab := some t }
  { e with moe := { e.moe with
    maps := if t.mapEn && (aget c.moe.maps t.mapId).isNone
            then aset c.moe.maps t.mapId (LiveMap.mk t.ctx t.nLocal (List.replicate t.nLocal true)) else c.moe.maps } }

theorem takeMap_setTable (c : Core) (tn : Nat) (t : MoeTable) :
    (c.setTable tn { Moe.reset with tab := some t }).takeMap t = c.withTable tn t := by
  change (if (t.mapEn && (aget c.moe.maps t.mapId).isNone) = true then _ else _) = _
  rw [Core.withTable]
  split
  · rfl
  · rfl

theorem moeLoad_done {c : Core} {n : Nat} {p : Packet} {image : Region} {h ents : List W64} {t : MoeTable}
    (h9 : passes (step9 p (moeFaults p)) = true) (himage : c.handleParam n p 2 32 false (64 + 16 * pf p 3 0 14) = .ok image)
    (hhead : c.readFor 2 image.base 8 = .ok h) (hents : c.readFor 2 (image.base + 64) (2 * pf p 3 0 14) = .ok ents)
    (hregions : c.moeRegions n p h (tableOf n p h ents) = .ok t) (hfree : (c.table (pf p 2 0 6)).tab = none) (hgood : imageBad t h ents = false)
    (hmap : t.mapEn = true → ∀ m, aget c.moe.maps t.mapId = some m → m.ctx = n ∧ m.nLocal = t.nLocal) :
    c.moeLoad n p = .ok (.done vOk (c.withTable (pf p 2 0 6) t)) := by
  have hheld : ∀ m, (if t.mapEn then aget c.moe.maps t.mapId else none) = some m → m.ctx = n ∧ m.nLocal = t.nLocal := fun m hm => by
    split at hm
    next hen => exact hmap hen m hm
    next => cases hm
  rw [Core.moeLoad]
  refine bind_of_ok (passes_unit h9) (bind_of_ok himage (bind_of_ok hhead (bind_of_ok hents (bind_of_ok hregions ?_))))
  simp only [hfree]
  refine bind_of_ok rfl (bind_of_ok (ensure_of _ ?_) (bind_of_ok (ensure_of _ (by rw [hgood]; rfl)) (bind_of_ok (ensure_of _ ?_) ?_)))
  · split
    next m hm => exact beq_iff_eq.mpr (hheld m hm).1
    next => rfl
  · split
    next m hm => exact beq_iff_eq.mpr (hheld m hm).2
    next => rfl
  · rw [takeMap_setTable]
    rfl

/-! MOE_TABLE_UNLOAD (R87, R188, R215) -/

theorem moeUnload_done {c : Core} {n : Nat} {p : Packet} {t : MoeTable} (h9 : passes (step9 p []) = true)
    (htab : (c.table (pf p 2 0 6)).tab = some t) (hctx : t.ctx = n) (hidle : c.skeinIdle n t.routeSkein = true) :
    c.moeUnload n p = .ok (.done vOk (c.tableFree (pf p 2 0 6))) := by
  rw [Core.moeUnload]
  refine bind_of_ok (passes_unit h9) ?_
  simp only [htab]
  exact bind_of_ok (ensure_of _ (beq_iff_eq.mpr hctx)) (bind_of_ok (ensure_of _ hidle) rfl)

theorem mapUsed_iff {c : Core} {m : Nat} : c.mapUsed m = true
    ↔ ∃ j x, j < 64 ∧ (c.table j).tab = some x ∧ x.mapEn = true ∧ x.mapId = m := by
  rw [Core.mapUsed, List.any_eq_true]
  constructor
  · rintro ⟨j, hj, h⟩
    cases htab : (c.table j).tab with
    | none => simp [htab] at h
    | some x =>
      obtain ⟨hen, hid⟩ : x.mapEn = true ∧ x.mapId = m := by simpa [htab] using h
      exact ⟨j, x, List.mem_range.mp hj, htab, hen, hid⟩
  · rintro ⟨j, x, hj, htab, hen, hid⟩
    exact ⟨j, List.mem_range.mpr hj, by simp [htab, hen, hid]⟩

/-- A map is held after a table is released where another table names it. -/
theorem mem_maps_tableFree {c : Core} {tn : Nat} {m : Nat × LiveMap} : m ∈ (c.tableFree tn).moe.maps
    ↔ m ∈ c.moe.maps ∧ ∃ j x, j < 64 ∧ j ≠ tn ∧ (c.table j).tab = some x ∧ x.mapEn = true ∧ x.mapId = m.1 := by
  change m ∈ (c.moe.maps.filter fun m : Nat × LiveMap => (c.setTable tn .reset).mapUsed m.1) ↔ _
  rw [List.mem_filter, mapUsed_iff]
  refine and_congr_right fun _ => exists₂_congr fun j x => and_congr_right fun _ => ?_
  by_cases hj : j = tn
  · subst hj
    rw [Core.table_setTable]
    exact iff_of_false (fun h => nomatch h.1) fun h => absurd rfl h.1
  · rw [Core.table_setTable_other _ _ _ _ hj]
    exact (and_iff_right hj).symm

/-! MOE_STATS (R213) -/

/-- What MOE_STATS writes: the header, and the blocks of the history. -/
def statsBytes (m : Moe) (gen : Nat) : List Byte :=
  natBytes 8 (m.hist.length * 2 ^ 32 + gen % 2 ^ 32) ++ natBytes 56 0 ++ m.hist.flatMap StepBlock.bytes

/-- The generation of the header: that of the newest block, or a free value. -/
def Core.statsGen (c : Core) (m : Moe) : Nat :=
  match m.hist with
  | b :: _ => b.gen
  | [] => (Config.freeWord c.free).toNat

/-- A core after the draw of a free value for the header of an empty history. -/
def Core.statsDrawn (c : Core) (m : Moe) : Core := { c with free := if m.hist.isEmpty then c.free + 1 else c.free }

theorem stats_drawn (c : Core) (m : Moe) : (match m.hist with
    | b :: _ => (b.gen, c)
    | [] => (c.drawWord.1.toNat, c.drawWord.2)) = (c.statsGen m, c.statsDrawn m) := by
  rw [Core.statsGen, Core.statsDrawn]
  cases m.hist with
  | nil => rfl
  | cons b rest => rfl

theorem writeBytes_statsDrawn (c : Core) (m : Moe) (a : Nat) (l : List Byte) : (c.statsDrawn m).writeBytes a l
    = { c.writeBytes a l with free := if m.hist.isEmpty then c.free + 1 else c.free } := rfl

theorem moeStats_done {c : Core} {n : Nat} {p : Packet} {t : MoeTable} {dst : Region} {m : Moe} (h9 : passes (step9 p []) = true)
    (hdst : c.handleParam n p 3 0 true 0 = .ok dst) (hm : c.table (pf p 2 0 6) = m) (htab : m.tab = some t) (hctx : t.ctx = n)
    (hextent : passes (extentCheck 3 dst (64 + 8 * t.blockSize)) = true) {l : List Byte} (hl : statsBytes m (c.statsGen m) = l)
    (hfault : c.writeFault dst.base l.length = none) :
    c.moeStats n p = .ok (.done vOk { c.writeBytes dst.base l with free := if m.hist.isEmpty then c.free + 1 else c.free }) := by
  rw [Core.moeStats]
  refine bind_of_ok (passes_unit h9) (bind_of_ok hdst ?_)
  simp only [hm, htab]
  refine bind_of_ok (ensure_of _ (beq_iff_eq.mpr hctx)) (bind_of_ok (passes_unit hextent) ?_)
  refine (congrArg (fun x : Nat × Core => x.2.writeThen 3 dst.base (statsBytes m x.1) fun d => .ok (.done vOk d)) (stats_drawn c m)).trans ?_
  dsimp only
  rw [hl, ← writeBytes_statsDrawn]
  exact writeThen_next _ hfault

/-- Settles O47: MOE_TABLE_LOAD and MOE_TABLE_UNLOAD by the table and the maps that they leave, MOE_STATS by its bytes. -/
theorem expertTableCommands : Obligations.ExpertTableCommands := by
  unfold Obligations.ExpertTableCommands
  intro s n p c tn
  refine ⟨fun image h ents t htakes h9 himage hhead hents hregions hfree hgood hmap => ?_, fun t htakes h9 htab hctx hidle => ?_,
    fun t dst htakes h9 hdst htab hctx hextent => ?_⟩
  · intro e d
    exact ⟨onCommand_done (run := fun _ c n p => c.moeLoad n p) htakes (moeLoad_done h9 himage hhead hents hregions hfree hgood hmap),
      fun j hj => Core.table_setTable_other _ _ _ _ hj⟩
  · exact ⟨_, onCommand_done (run := fun _ c n p => c.moeUnload n p) htakes (moeUnload_done h9 htab hctx hidle),
      Core.table_setTable .., fun j hj => Core.table_setTable_other _ _ _ _ hj, fun m => mem_maps_tableFree, rfl, rfl, rfl, rfl⟩
  · intro m gen bytes hfault
    refine ⟨onCommand_done (run := fun _ c n p => c.moeStats n p) htakes (moeStats_done h9 hdst rfl htab hctx hextent rfl hfault), fun hwf => ?_⟩
    rw [mem_writeBytes]
    exact ⟨memBytes_memPutBytes _ _ hwf, fun a ha => memGet_memPutBytes_outside _ _ ha⟩

end Sys2Proof.Machine
end

section
/-! PROOFS. What the end of a run leaves alone: memory, the count, the time, and the ramp governor's status and grant. -/

namespace Sys2Proof.Machine

/-- Memory, the count, the time, and the status and the grant of the power port. -/
def Core.steadyPart (c : Core) : List Host.Cell × GCount × Nat × W64 × Option StartReq := (c.mem, c.gc, c.now, c.pwr.status, c.pwr.granted)

/-- A core with the steady part of another. -/
def Steady (c d : Core) : Prop := d.steadyPart = c.steadyPart

theorem Steady.refl (c : Core) : Steady c c := rfl

theorem Steady.trans {c d e : Core} (h : Steady c d) (k : Steady d e) : Steady c e := Eq.trans k h

theorem Steady.foldl {α : Type} {step : Core → α → Core} (hstep : ∀ d x, Steady d (step d x)) (l : List α) (c : Core) :
    Steady c (l.foldl step c) :=
  List.foldlRecOn l step (.refl c) fun d h x _ => h.trans (hstep d x)

theorem Steady.ite {p : Prop} [Decidable p] {c d e : Core} (hd : p → Steady c d) (he : ¬p → Steady c e) : Steady c (if p then d else e) := by
  split
  next hp => exact hd hp
  next hp => exact he hp

section Parts
variable {c d : Core} (h : Steady c d)
include h

theorem Steady.mem : d.mem = c.mem := congrArg Prod.fst h
theorem Steady.gc : d.gc = c.gc := congrArg (fun x => x.2.1) h
theorem Steady.now : d.now = c.now := congrArg (fun x => x.2.2.1) h
theorem Steady.status : d.pwr.status = c.pwr.status := congrArg (fun x => x.2.2.2.1) h
theorem Steady.granted : d.pwr.granted = c.pwr.granted := congrArg (fun x => x.2.2.2.2) h

end Parts

/-! Records, flags, replies and frames -/

theorem steady_logRaw (c : Core) (cls : Nat) (w0 w1 w3 : W64) : Steady c (c.logRaw cls w0 w1 w3) := by
  obtain ⟨e, f, l, h⟩ := logRaw_changes_fault c cls w0 w1 w3
  rw [h]
  rfl

theorem AnsweredFrom.steady {c d : Core} (h : AnsweredFrom c d) : Steady c d := by
  obtain ⟨q, x, e, w, l, rfl⟩ := h
  rfl

theorem SentFrom.steady {c d : Core} (h : SentFrom c d) : Steady c d := by
  obtain ⟨f, k, rfl⟩ := h
  rfl

theorem steady_setPlyFlag (c : Core) (n bit : Nat) : Steady c (c.setPlyFlag n bit) := by
  obtain ⟨e, w, l, h⟩ := setPlyFlag_changes c n bit
  rw [h]
  rfl

theorem steady_setMoeEvt (c : Core) (t bit : Nat) : Steady c (c.setMoeEvt t bit) :=
  Steady.trans (d := (c.setTable t { c.table t with evt := setBit (c.table t).evt bit true }).mark (0x1800000 + 0x1000 * t + 0x8) bit) rfl
    (steady_logRaw ..)

theorem steady_setChanEvt (c : Core) (n bit ctx : Nat) : Steady c (c.setChanEvt n bit ctx) := by
  obtain ⟨e, w, l, h⟩ := setChanEvt_changes c n bit ctx
  rw [h]
  rfl

theorem steady_modTask (c : Core) (ref : TaskRef) (f : Task → Task) : Steady c (c.modTask ref f) := by
  obtain ⟨l, h⟩ := modTask_changes c ref f
  rw [h]
  rfl

theorem steady_release (c : Core) (n : Nat) (v : Verdict) : Steady c (c.release n v) := by
  rw [Core.release]
  cases (c.queue n).cur with
  | none | offered _ | replying => rfl
  | _ => exact (answeredFrom_finalReply ..).steady

/-! The end of a task, and the generations that a final reply begins -/

theorem steady_taskEnd (c : Core) (ref : TaskRef) (st : TaskSt) : Steady c (c.taskEnd ref st) := by
  refine (steady_modTask c ref fun t => { t with st := st, delay := none, held := [] }).trans ?_
  rw [Core.taskEnd]
  exact .ite (fun _ => rfl) fun _ => rfl

theorem steady_endIdle (c : Core) (r : Run) : Steady c (c.endIdle r) :=
  .foldl (fun _ _ => .ite (fun _ => steady_taskEnd ..) fun _ => .refl _) _ _

theorem steady_moeDrop (c : Core) (t : Nat) (ahead : Bool) : Steady c (c.moeDrop t ahead) := by
  have hflag : Steady c ((c.setTable t { c.table t with cnt0 := satAdd (c.table t).cnt0 0 32 1 }).setMoeEvt t 4) :=
    Steady.trans (d := c.setTable t { c.table t with cnt0 := satAdd (c.table t).cnt0 0 32 1 }) rfl (steady_setMoeEvt ..)
  exact .ite (fun _ => hflag.trans (steady_setMoeEvt ..)) fun _ => hflag

theorem steady_plyDrop (c : Core) (n : Nat) (mismatch : Bool) : Steady c (c.plyDrop n mismatch) :=
  Steady.trans (d := c.setPlyPage n { c.plyPage n with cnt1 := satAdd (c.plyPage n).cnt1 0 32 1 }) rfl (steady_setPlyFlag ..)

theorem steady_tableDrop (c : Core) (t n : Nat) (ahead : Bool) : Steady c (c.tableDrop t n ahead) :=
  (steady_moeDrop ..).trans (steady_plyDrop ..)

theorem steady_takeHeld (c : Core) (p : PlyKey → Bool) : Steady c (c.takeHeld p).2 := rfl

theorem steady_moeNextGen (c : Core) (t : Nat) : Steady c (c.moeNextGen t) := by
  have hlate : ∀ (d : Core) (x : Moe) (k : Nat), Steady c d →
      Steady c ((List.range k).foldl (fun d _ => d.moeDrop t false) (d.setTable t x)) :=
    fun d x k h => (Steady.trans h (e := d.setTable t x) rfl).trans (.foldl (fun _ _ => steady_moeDrop ..) _ _)
  rw [Core.moeNextGen]
  refine .ite (fun _ => hlate _ _ _ (steady_takeHeld ..)) fun _ => .trans ?_ (.foldl (fun _ _ => steady_tableDrop ..) _ _)
  exact hlate _ _ _ (steady_takeHeld ..)

theorem steady_setCollRun (c : Core) (n k : Nat) (r : CollRun) : Steady c (c.setCollRun n k r) := rfl

theorem steady_collNextGen (c : Core) (n k : Nat) : Steady c (c.collNextGen n k) := by
  rw [Core.collNextGen]
  refine .ite (fun _ => (steady_takeHeld ..).trans (steady_setCollRun ..)) fun _ => .trans ?_ (.foldl (fun _ _ => steady_plyDrop ..) _ _)
  exact (steady_takeHeld ..).trans (steady_setCollRun ..)

/-! The close of a context -/

theorem steady_chanDiscard (c : Core) (n ctx pos chan epoch reason : Nat) : Steady c (c.chanDiscard n ctx pos chan epoch reason) :=
  (Steady.trans (d := c.setChan n { c.chan n with discarded := sat32 (c.chan n).discarded 1 }) rfl (steady_setChanEvt ..)).trans
    (sentFrom_sendFrame ..).steady

theorem steady_closeEnd (c : Core) (n : Nat) : Steady c (c.closeEnd n) := by
  unfold Core.closeEnd
  dsimp only
  split
  next => rfl
  next k _ =>
    refine .trans ?_ (sentFrom_chanNotice ..).steady
    refine .trans ?_ (.foldl (fun _ _ => steady_chanDiscard ..) k.late _)
    refine .trans ?_ (.foldl (fun _ _ => steady_chanDiscard ..) k.lost _)
    exact Steady.trans rfl (sentFrom_chanNotice ..).steady

theorem steady_closeRx (c : Core) (n reason : Nat) : Steady c (c.closeRx n reason) := by
  rw [Core.closeRx]
  split
  · exact steady_closeEnd c n
  · exact (steady_closeEnd c n).trans rfl

theorem steady_closeTx (c : Core) (n : Nat) : Steady c (c.closeTx n) := rfl

theorem steady_tableFree (c : Core) (t : Nat) : Steady c (c.tableFree t) := rfl

theorem steady_closeParts (c : Core) (n : Nat) : Steady c (c.closeParts n) := by
  rw [Core.closeParts]
  refine .trans (.trans ?_ (.foldl (fun _ _ => steady_closeTx ..) _ _)) (.foldl (fun _ _ => steady_tableFree ..) _ _)
  exact .foldl (fun _ _ => steady_closeRx ..) _ _

theorem steady_closed (c : Core) (n : Nat) : Steady c (c.closed n) := rfl

/-- A context that closes gives its held packet a final reply, and then its STOP_AT one. -/
def Core.closeWait (c : Core) (n : Nat) : Core :=
  match (c.queue n).cur with
  | .syncWait _ _ => c.release n (vState 4)
  | .sigWait _ _ _ => c.release n (vState 4)
  | _ => c

def Core.closeStop (c : Core) (n : Nat) : Core :=
  match (c.ctx n).stop with
  | some a => c.finalReply n a.tag (vState 4) a.irq false
  | none => c

theorem closeEffect_parts (c : Core) (n : Nat) : c.closeEffect n = (((c.closeWait n).closeStop n).closeParts n).closed n := by
  unfold Core.closeEffect Core.closed Core.closeParts Core.closeStop Core.closeWait
  rfl

theorem steady_closeWait (c : Core) (n : Nat) : Steady c (c.closeWait n) := by
  rw [Core.closeWait]
  split
  · exact steady_release ..
  · exact steady_release ..
  · rfl

theorem steady_closeStop (c : Core) (n : Nat) : Steady c (c.closeStop n) := by
  rw [Core.closeStop]
  split
  · exact (answeredFrom_finalReply ..).steady
  · rfl

theorem steady_closeEffect (c : Core) (n : Nat) : Steady c (c.closeEffect n) := by
  rw [closeEffect_parts]
  exact (((steady_closeWait ..).trans (steady_closeStop ..)).trans (steady_closeParts ..)).trans (steady_closed ..)

theorem steady_setQueue (c : Core) (n : Nat) (q : Queue) : Steady c (c.setQueue n q) := rfl

theorem steady_closeNow (c : Core) (p : Packet) (target : Nat) (caused : Bool) : Steady c (c.closeNow p target caused) := by
  rw [Core.closeNow]
  refine .ite (fun _ => (steady_closeEffect ..).trans (steady_setQueue ..)) fun _ => .trans ?_ (steady_release ..)
  exact (steady_closeEffect ..).trans (steady_setQueue ..)

/-! The final reply of a run -/

/-- The run that has had its final reply leaves the store, with the entries that it alone used. -/
def Core.runGone (c : Core) (r : Run) : Core :=
  ({ c with graph := { c.graph with runs := c.graph.runs.filter fun q => !(q.ctx == r.ctx && q.tag == r.tag) } }).relocTrim

/-- The steps and the collectives of the skein of a run begin a new generation. -/
def Core.nextGens (c : Core) (r : Run) : Core :=
  let c3 := (c.routedBy r.ctx r.skein).foldl (fun d t => d.moeNextGen t) c
  (c3.slotsOf r.ctx r.skein).foldl (fun d k => d.collNextGen r.ctx k) c3

/-- A CANCEL and a CTX_CLOSE that waited for a run. -/
def Core.cancelDone (c : Core) (r : Run) (spared : Bool) : Core :=
  match (c.queue r.ctx).cur with
  | .cancelWait _ tag => if tag = r.tag then c.release r.ctx (if spared then vState 4 else vOk) else c
  | _ => c

def Core.closeDone (c : Core) (r : Run) : Core :=
  match (c.queue 0).cur with
  | .closeWait p target => if target = r.ctx ∧ c.noRuns target then c.closeNow p target true else c
  | _ => c

/-- The final reply of a run that is as it was, or is spared its CANCEL. -/
def Core.runReply (c : Core) (r : Run) : Core :=
  c.finalReplyOf r.ctx r.tag { status := if r.firstFault.isSome then .faulted else .ok, detail := r.detail } r.irq false (some r.kept) false

theorem finalizeRun_parts (c : Core) (r : Run) : c.finalizeRun r
    = (let q := { r with cancelled := r.cancelled && !c.spared r }
       (((((c.runReply q).runGone q).nextGens q).forgetSetup q).cancelDone q (c.spared r)).closeDone q) := rfl

theorem steady_runGone (c : Core) (r : Run) : Steady c (c.runGone r) := rfl

theorem steady_nextGens (c : Core) (r : Run) : Steady c (c.nextGens r) := by
  rw [Core.nextGens]
  refine .trans ?_ (.foldl (fun _ _ => steady_collNextGen ..) _ _)
  exact .foldl (fun _ _ => steady_moeNextGen ..) _ _

theorem steady_forgetSetup (c : Core) (r : Run) : Steady c (c.forgetSetup r) := rfl

theorem steady_cancelDone (c : Core) (r : Run) (spared : Bool) : Steady c (c.cancelDone r spared) := by
  rw [Core.cancelDone]
  split
  · exact .ite (fun _ => steady_release ..) fun _ => .refl _
  · rfl

theorem steady_closeDone (c : Core) (r : Run) : Steady c (c.closeDone r) := by
  rw [Core.closeDone]
  split
  · exact .ite (fun _ => steady_closeNow ..) fun _ => .refl _
  · rfl

theorem steady_finalizeRun (c : Core) (r : Run) : Steady c (c.finalizeRun r) := by
  rw [finalizeRun_parts]
  refine .trans (.trans (.trans (.trans (.trans ?_ (steady_runGone ..)) (steady_nextGens ..)) (steady_forgetSetup ..))
    (steady_cancelDone ..)) (steady_closeDone ..)
  exact (answeredFrom_finalReplyOf ..).steady

theorem steady_settle (c : Core) (ctx tag : Nat) : Steady c (c.settle ctx tag) := by
  rw [Core.settle]
  split
  next => rfl
  next r _ =>
    have hidle : Steady c (if r.stopping then c.endIdle r else c) := .ite (fun _ => steady_endIdle c r) fun _ => .refl c
    dsimp only
    split
    next => exact hidle
    next => exact hidle.trans (.ite (fun _ => steady_finalizeRun ..) fun _ => .refl _)

theorem steady_settleStopping (c : Core) : Steady c c.settleStopping := .foldl (fun _ _ => steady_settle ..) _ _

end Sys2Proof.Machine
end

section
/-! PROOFS. The power port, the throttle, and the ramp governor (O27). -/

namespace Sys2Proof.Machine

/-! The power port (R43, R68, R69) -/

theorem exec_powerRequest {s : State} (hrunning : s.running = true) (hfree : s.core.pwr.reqValid = false)
    (hchanged : s.core.powerSum ≠ s.core.pwr.sumSent) (hfell : ∀ t, s.core.pwr.fellAt = some t → t / 48 ≠ s.core.now / 48) :
    exec .powerRequest s = .next (s.withCore { s.core with pwr := { s.core.pwr with
      reqValid := true, sumSent := s.core.powerSum, status := setFld s.core.pwr.status 32 16 s.core.powerSum } }) := by
  have hrecent : (s.core.pwr.fellAt.any fun t => t / 48 == s.core.now / 48) = false := by
    cases hat : s.core.pwr.fellAt with
    | none => rfl
    | some t => exact beq_false_of_ne (hfell t hat)
  have hidle : ¬(s.core.pwr.reqValid = true ∨ s.core.powerSum = s.core.pwr.sumSent
      ∨ (s.core.pwr.fellAt.any fun t => t / 48 == s.core.now / 48) = true) := by
    rw [hfree, hrecent]
    simpa using hchanged
  change execPowerRequest s = _
  rw [execPowerRequest, onRun_running hrunning, if_neg hidle]

theorem exec_powerGrant {s : State} {amps : Nat} (hrunning : s.running = true) (h : amps < 2 ^ 16) :
    exec (.powerGrant amps) s = .next (s.withCore { s.core with pwr := { s.core.pwr with
      grantNext := some (amps, s.core.now / 48 * 48 + 48),
      reqDropAt := if s.core.pwr.reqValid then some (s.core.now / 48 * 48 + 48) else s.core.pwr.reqDropAt } }) := by
  change execPowerGrant amps s = _
  rw [execPowerGrant, onRun_running hrunning, Nat.mod_eq_of_lt h]
  rfl

theorem exec_powerRequestDue {s : State} {n tag : Nat} {r : Run} (hrunning : s.running = true) (hrun : s.core.findRun n tag = some r)
    (hdue : r.start ≤ s.core.gc.count + s.core.powerLead) :
    exec (.powerRequestDue n tag) s = .next (s.withCore (s.core.setRun { r with counted := true })) := by
  change execPowerRequestDue n tag s = _
  rw [execPowerRequestDue, onRun_running hrunning]
  simp only [hrun, if_pos hdue]

/-- A request that is answered falls at an SCLK edge. -/
def Core.requestFalls (c : Core) : Core :=
  match c.pwr.reqDropAt with
  | some t => if t ≤ c.now then { c with pwr := { c.pwr with reqValid := false, reqDropAt := none, fellAt := some c.now } } else c
  | none => c

theorem requestFalls_keeps (c : Core) : c.requestFalls.pwr.status = c.pwr.status ∧ c.requestFalls.pwr.grantNext = c.pwr.grantNext := by
  unfold Core.requestFalls
  split
  · split <;> exact ⟨rfl, rfl⟩
  · exact ⟨rfl, rfl⟩

theorem requestFalls_due {c : Core} {u : Nat} (hdrop : c.pwr.reqDropAt = some u) (hdue : u ≤ c.now) :
    c.requestFalls.pwr.reqValid = false ∧ c.requestFalls.pwr.fellAt = some c.now := by
  simp only [Core.requestFalls, hdrop, if_pos hdue, and_self]

theorem sclkEdge_due {c : Core} {a t : Nat} (hgrant : c.pwr.grantNext = some (a, t)) (hdue : t ≤ c.now) : c.sclkEdge
    = ({ c with pwr := { c.pwr with grantNext := none, status := setFld c.pwr.status 48 16 a } } : Core).requestFalls := by
  unfold Core.sclkEdge Core.requestFalls
  simp only [hgrant, if_pos hdue] <;> rfl

/-- A grant takes force at the first SCLK edge after it, at which the request that it answers falls. -/
theorem sclkEdge_grants {c : Core} {a t : Nat} (hgrant : c.pwr.grantNext = some (a, t)) (hdue : t ≤ c.now) (ha : a < 2 ^ 16) :
    fld c.sclkEdge.pwr.status 48 16 = a ∧ c.sclkEdge.pwr.grantNext = none
    ∧ ∀ u, c.pwr.reqDropAt = some u → u ≤ c.now → c.sclkEdge.pwr.reqValid = false ∧ c.sclkEdge.pwr.fellAt = some c.now := by
  rw [sclkEdge_due hgrant hdue, (requestFalls_keeps _).1, (requestFalls_keeps _).2]
  refine ⟨?_, rfl, fun u hdrop hu => requestFalls_due hdrop hu⟩
  rw [fld_setFld_self _ _ (by omega), Nat.mod_eq_of_lt ha]

/-! The throttle (R62, R69) -/

theorem steady_withdrawStarts (c : Core) (which : TaskRef → Bool) : Steady c (c.withdrawStarts which) := rfl

/-- A granted start waits again. -/
def Core.startBack (c : Core) (w : StartReq) : Core :=
  { c with pwr := { c.pwr with granted := none, waits := c.pwr.waits ++ [w], startsUsed := c.pwr.startsUsed - 1 } }

/-- The start granted in this ECLK is withdrawn, and with it nothing of the status or of memory changes. -/
theorem ungrant_withdraws (c : Core) : c.ungrant.pwr.granted = none ∧ c.ungrant.pwr.status = c.pwr.status ∧ c.ungrant.mem = c.mem := by
  rw [Core.ungrant]
  split
  next hnone => exact ⟨hnone, rfl, rfl⟩
  next w _ =>
    have hwaits : ∀ e : Core, Steady (c.startBack w) e → ((e.withdrawStarts e.stoppingRef).settleStopping).pwr.granted = none
        ∧ ((e.withdrawStarts e.stoppingRef).settleStopping).pwr.status = c.pwr.status
        ∧ ((e.withdrawStarts e.stoppingRef).settleStopping).mem = c.mem := fun e he => by
      have h := (he.trans (steady_withdrawStarts e e.stoppingRef)).trans (steady_settleStopping _)
      exact ⟨h.granted, h.status, h.mem⟩
    cases hkind : w.kind with
    | enable => exact hwaits (c.startBack w) (.refl _)
    | beat => exact hwaits ((c.startBack w).setPort w.port { c.port w.port with waiting := true }) rfl

/-- A rise of PW_THROTTLE: its level, its flag and its count, and no start granted. -/
theorem throttleRise_leaves (c : Core) : bitAt c.throttleRise.pwr.status 5 = true ∧ bitAt c.throttleRise.pwr.status 3 = true
    ∧ fld c.throttleRise.pwr.status 16 16 = min (fld c.pwr.status 16 16 + 1) (2 ^ 16 - 1)
    ∧ c.throttleRise.pwr.granted = none ∧ c.throttleRise.mem = c.mem := by
  obtain ⟨hgranted, hstatus, hmem⟩ := ungrant_withdraws ((({ c.throttleLevel true with
    pwr := { (c.throttleLevel true).pwr with status := satAdd (c.throttleLevel true).pwr.status 16 16 1 } } : Core).setPwr 3).logClock 3)
  obtain ⟨e, f, l, hlog⟩ := logClock_changes (({ c.throttleLevel true with
    pwr := { (c.throttleLevel true).pwr with status := satAdd (c.throttleLevel true).pwr.status 16 16 1 } } : Core).setPwr 3) 3
  have hword : c.throttleRise.pwr.status = setBit (satAdd (setBit c.pwr.status 5 true) 16 16 1) 3 true := by
    refine hstatus.trans ?_
    rw [hlog]
    rfl
  rw [hword]
  refine ⟨?_, bitAt_setBit_self _ _ (by omega), ?_, hgranted, hmem.trans ?_⟩
  · rw [bitAt_setBit_other _ _ (by omega), bitAt_satAdd_outside _ _ (by omega), bitAt_setBit_self _ _ (by omega)]
  · rw [fld_setBit_apart _ _ (by omega), fld_satAdd_self _ _ (by omega), fld_setBit_apart _ _ (by omega)]
  · rw [hlog]
    rfl

theorem exec_throttleRise_counted {s : State} (hup : s.sys.porst = false) : ∃ d, exec .throttleRise s = .next (s.withCore d)
    ∧ bitAt d.pwr.status 5 = true ∧ bitAt d.pwr.status 3 = true
    ∧ fld d.pwr.status 16 16 = min (fld s.core.pwr.status 16 16 + 1) (2 ^ 16 - 1) ∧ d.pwr.granted = none ∧ d.mem = s.core.mem :=
  ⟨_, congrArg s.put (if_neg (by rw [hup]; exact Bool.false_ne_true)), throttleRise_leaves s.core⟩

theorem exec_throttleRise_level {s : State} (hheld : s.sys.porst = true) : exec .throttleRise s
    = .next (s.withCore { s.core with pwr := { s.core.pwr with status := setBit s.core.pwr.status 5 true } }) :=
  congrArg s.put (if_pos hheld)

theorem exec_throttleFall_run {s : State} (hrunning : s.running = true) (hhigh : bitAt s.core.pwr.status 5 = true) :
    exec .throttleFall s = .next (s.withCore { s.core with pwr := { s.core.pwr with
      status := setBit s.core.pwr.status 5 false, resumeAt := some (s.core.rampIndex + 1) } }) :=
  if_pos ⟨by simpa [State.running] using hrunning, hhigh⟩

/-! The ramp governor (R64 to R66) -/

theorem exec_rampWindow {s : State} (hrunning : s.running = true) (hnew : s.core.pwr.windowAt ≠ some s.core.rampIndex) :
    exec .rampWindow s = .next (s.withCore { s.core with pwr := { s.core.pwr with windowAt := some s.core.rampIndex, startsUsed := 0 } }) := by
  change execRampWindow s = _
  rw [execRampWindow, onRun_running hrunning, if_neg hnew]

section Grant
variable {c : Core} {w : StartReq} (hedge : c.now % 2 = 0) (hlow : bitAt c.pwr.status 5 = false)
  (hresumed : ∀ k, c.pwr.resumeAt = some k → k ≤ c.rampIndex) (hleft : c.startsUsed < fld c.pwr.ramp 0 7)
  (hfirst : c.pwr.grantAt ≠ some (c.now / 2)) (hnext : c.nextStart = some w)
include hedge hlow hresumed hleft hfirst

theorem mayGrant_of : c.mayGrant = true := by
  rw [Core.mayGrant, hedge, hlow, decide_eq_true hleft, bne_iff_ne.mpr hfirst]
  cases hat : c.pwr.resumeAt with
  | none => rfl
  | some k =>
    simp only [decide_eq_true (hresumed k hat)]
    rfl

include hnext

theorem rampGrant_grants (hbudget : (c.running + 1) * fld c.pwr.ramp 48 8 ≤ fld c.pwr.status 48 16) : c.rampGrant = c.grantStart w := by
  rw [Core.rampGrant, if_pos (mayGrant_of hedge hlow hresumed hleft hfirst), hnext]
  exact if_pos (decide_eq_true hbudget)

theorem rampGrant_waits (hbudget : fld c.pwr.status 48 16 < (c.running + 1) * fld c.pwr.ramp 48 8) : c.rampGrant = c.budgetLow w := by
  rw [Core.rampGrant, if_pos (mayGrant_of hedge hlow hresumed hleft hfirst), hnext]
  exact if_neg (by rw [Core.budgetOk, decide_eq_false (Nat.not_le.mpr hbudget)]; exact Bool.false_ne_true)

end Grant

/-- A start that the budget does not admit waits, and is told of once. -/
theorem budgetLow_tells {c : Core} {w : StartReq} (h : w.told = false) : bitAt (c.budgetLow w).pwr.status 4 = true
    ∧ (c.budgetLow w).pwr.waits = modifyFirst (fun x => x == w) (fun x => { x with told := true }) c.pwr.waits
    ∧ (c.budgetLow w).disp = c.disp ∧ (c.budgetLow w).mem = c.mem := by
  rw [Core.budgetLow, if_neg (by rw [h]; exact Bool.false_ne_true)]
  obtain ⟨e, f, l, hlog⟩ := logClock_changes (({ c with
    pwr := { c.pwr with waits := modifyFirst (fun x => x == w) (fun x => { x with told := true }) c.pwr.waits,
                        status := setBit c.pwr.status 4 true } } : Core).mark 0x10038 4) 4
  rw [hlog]
  exact ⟨bitAt_setBit_self _ _ (by omega), rfl, rfl, rfl⟩

theorem budgetLow_told {c : Core} {w : StartReq} (h : w.told = true) : c.budgetLow w = c := if_pos h

theorem exec_rampGrant {s : State} (hrunning : s.running = true) : exec .rampGrant s = .next (s.withCore s.core.rampGrant) := by
  change execRampGrant s = _
  rw [execRampGrant, onRun_running hrunning]

theorem grantEffect_enable {c : Core} {w : StartReq} (hgranted : c.pwr.granted = some w) (hkind : w.kind = .enable) :
    c.grantEffect = ({ c with pwr := { c.pwr with granted := none } } : Core).setPort w.port { c.port w.port with en := true, issued := false } := by
  rw [Core.grantEffect, hgranted]
  simp only [hkind]
  rfl

theorem rampWrite_taken {c : Core} {v : W64} (hothers : c.otherOpen = false) (hidle : c.noRuns 0 = true) (hwin : 1 ≤ fld v 16 11)
    (hwinTop : fld v 16 11 ≤ 1024) (hst : 1 ≤ fld v 0 7) (hstTop : fld v 0 7 ≤ 64) (hratio : fld v 0 7 ≤ 3 * fld v 16 11) :
    c.rampWrite v = (let d : Core := { c with pwr := { c.pwr with ramp := v &&& fields [(63, 40), (26, 16), (6, 0)] } }
      some { d with pwr := { d.pwr with windowAt := if c.pwr.windowAt = some c.rampIndex then some d.rampIndex else none } }) := by
  have hgood : (c.otherOpen || !c.noRuns 0 || fld v 16 11 == 0 || decide (1024 < fld v 16 11) || fld v 0 7 == 0
      || decide (64 < fld v 0 7) || decide (3 * fld v 16 11 < fld v 0 7)) = false := by
    rw [hothers, hidle, decide_eq_false (by omega), decide_eq_false (by omega), decide_eq_false (by omega),
      beq_false_of_ne (by omega), beq_false_of_ne (by omega)]
    rfl
  exact if_neg (by rw [hgood]; exact Bool.false_ne_true)

/-- Settles O27: the port by its request and its grant, the throttle by what a rise withdraws, the governor by its limits. -/
theorem powerAndRamp : Obligations.PowerAndRamp := by
  unfold Obligations.PowerAndRamp
  refine ⟨fun s hrunning => ⟨exec_powerRequest hrunning, fun amps => exec_powerGrant hrunning,
      fun n tag r => exec_powerRequestDue hrunning, exec_throttleFall_run hrunning⟩,
    fun c a t => sclkEdge_grants, fun s => ⟨fun hup => ?_, fun hheld => ?_, fun hphase => if_neg fun h => hphase h.1⟩,
    fun s hrunning => ⟨exec_rampWindow hrunning, fun w hedge hlow hresumed hleft hfirst hnext => ?_⟩, fun c w => grantEffect_enable,
    fun s v acc hserved hothers hidle hwin hwinTop hst hstTop hratio => ?_⟩
  · obtain ⟨d, hrise, hlevel, hflag, hcount, hgranted, hmem⟩ := exec_throttleRise_counted hup
    exact ⟨_, hrise, hlevel, hflag, hcount, hgranted, hmem, rfl⟩
  · exact exec_throttleRise_level hheld
  · intro d
    rw [exec_rampGrant hrunning]
    refine ⟨fun hbudget => ?_, fun hbudget htold => ?_, fun hbudget htold => ?_⟩
    · rw [rampGrant_grants hedge hlow hresumed hleft hfirst hnext hbudget]
      rfl
    · rw [rampGrant_waits hedge hlow hresumed hleft hfirst hnext hbudget]
      exact ⟨_, rfl, budgetLow_tells htold⟩
    · rw [rampGrant_waits hedge hlow hresumed hleft hfirst hnext hbudget, budgetLow_told htold]
      rfl
  · exact onWrite_taken (f := fun _ c => c.rampWrite v) hserved (rampWrite_taken hothers hidle hwin hwinTop hst hstTop hratio)

end Sys2Proof.Machine
end

section
/-! PROOFS. What engines return (O39): DONE, YIELDED, FAULT and SAVED of a port in normal use, and a completion that nothing waits for. -/

namespace Sys2Proof.Machine

/-! The return of a record -/

/-- A port whose record has returned. -/
def Core.portFreed (c : Core) (e : Nat) : Core :=
  c.setPort e { c.port e with out := none, doneAt := some (c.now / 2 * 2), yield := none }

/-- A core that has the stores of a completion. -/
def Core.stored (c : Core) (r : PortRec) (stores : List Host.Cell) : Core := (c.store stores).noteStores r stores

/-- A core with other runs. -/
def RunsFrom (c d : Core) : Prop := ∃ l, d = { c with graph := { c.graph with runs := l } }

theorem RunsFrom.trans {c d e : Core} (h : RunsFrom c d) (k : RunsFrom d e) : RunsFrom c e := by
  obtain ⟨l, rfl⟩ := h
  obtain ⟨l, rfl⟩ := k
  exact ⟨l, rfl⟩

theorem runsFrom_noteStores (c : Core) (r : PortRec) (stores : List Host.Cell) : RunsFrom c (c.noteStores r stores) := by
  unfold Core.noteStores
  split
  · unfold Core.noteWrite
    split
    · split
      · exact ⟨c.graph.runs, rfl⟩
      · exact ⟨_, rfl⟩
    · exact ⟨c.graph.runs, rfl⟩
  · exact ⟨c.graph.runs, rfl⟩

theorem RunsFrom.keeps {c d : Core} (h : RunsFrom c d) : d.mem = c.mem ∧ d.evt = c.evt ∧ d.queues = c.queues
    ∧ (∀ e, d.port e = c.port e) ∧ ∀ n, d.ctx n = c.ctx n := by
  obtain ⟨l, rfl⟩ := h
  exact ⟨rfl, rfl, rfl, fun _ => rfl, fun _ => rfl⟩

theorem RunsFrom.portFreed {c d : Core} (h : RunsFrom c d) (e : Nat) : RunsFrom (c.portFreed e) (d.portFreed e) := by
  obtain ⟨l, rfl⟩ := h
  exact ⟨l, rfl⟩

theorem RunsFrom.countAssign {c d : Core} (h : RunsFrom c d) (n : Nat) : RunsFrom (c.countAssign n) (d.countAssign n) := by
  obtain ⟨l, rfl⟩ := h
  exact ⟨l, rfl⟩

theorem runsFrom_modTask (c : Core) (ref : TaskRef) (f : Task → Task) : RunsFrom c (c.modTask ref f) := modTask_changes c ref f

/-- The task of a record is as it was when its stores are noted for its run. -/
theorem taskOf_noteStores {c : Core} {r : PortRec} {ref : TaskRef} {i : Nat} {q : Run} {t : Task} (stores : List Host.Cell)
    (huse : r.use = .task ref i) (htask : c.taskOf ref = some (q, t)) :
    ∃ w, (c.noteStores r stores).taskOf ref = some ({ q with wrote := w }, t) := by
  obtain ⟨hrun, ht⟩ := taskOf_some htask
  obtain ⟨hctx, htag⟩ := findRun_name hrun
  simp only [Core.noteStores, huse, Core.noteWrite, hrun]
  split
  · exact ⟨q.wrote, htask⟩
  · refine ⟨((stores.map Prod.fst).filter fun a => decide (a < memTop)) ++ q.wrote, taskOf_eq_some ?_ ht⟩
    rw [← hctx, ← htag] at hrun ⊢
    exact findRun_setRun (r := { q with wrote := ((stores.map Prod.fst).filter fun a => decide (a < memTop)) ++ q.wrote }) hrun

section Completion
variable {c : Core} {e tag : Nat} {stores : List Host.Cell} {r : PortRec} (hport : e < c.cfg.enginePorts)

include hport in
theorem completion_stray (code : EngCode) (hout : (c.port e).out = none) :
    c.completion e tag code stores = (c.store stores).logPort 2 e tag code.num := by
  rw [Core.completion, if_neg (Nat.not_le.mpr hport), hout]

variable (hloop : c.engLoop e = 0) (hout : (c.port e).out = some r) (htag : tag = r.bits.toNat % 2 ^ 16)

/-- A completion with its own tag and a code that its record can return frees the port and has its effect. -/
theorem portReturn_task {d : Core} {ref : TaskRef} {i : Nat} {code : EngCode} (huse : r.use = .task ref i)
    (hfits : d.canReturn (d.port e) r code = true) :
    d.portReturn e (r.bits.toNat % 2 ^ 16) r code = (d.portFreed e).taskReturn e r ref i code := by
  rw [Core.portReturn]
  simp only [hfits, huse, beq_self_eq_true, Bool.and_self, Bool.not_true, Bool.false_eq_true, if_false, if_true]
  rfl

theorem portReturn_saved {d : Core} (huse : r.use = .save) :
    d.portReturn e (r.bits.toNat % 2 ^ 16) r .saved = (d.portFreed e).saveReturn e false := by
  have hfits : d.canReturn (d.port e) r .saved = true := by rw [Core.canReturn, huse]; rfl
  rw [Core.portReturn]
  simp only [hfits, huse, beq_self_eq_true, Bool.and_self, Bool.not_true, Bool.false_eq_true, if_false, if_true]
  rfl

include hport hloop hout in
theorem completion_returns (code : EngCode) : c.completion e tag code stores = (c.stored r stores).portReturn e tag r code := by
  rw [Core.completion, if_neg (Nat.not_le.mpr hport), hout]
  simp only [hloop]
  rfl

theorem port_stored (c : Core) (r : PortRec) (stores : List Host.Cell) (e : Nat) : (c.stored r stores).port e = c.port e := by
  obtain ⟨l, h⟩ := runsFrom_noteStores (c.store stores) r stores
  rw [Core.stored, h]
  rfl

theorem now_stored (c : Core) (r : PortRec) (stores : List Host.Cell) : (c.stored r stores).now = c.now := by
  obtain ⟨l, h⟩ := runsFrom_noteStores (c.store stores) r stores
  rw [Core.stored, h]
  rfl

include hport hloop hout htag in
theorem completion_task {ref : TaskRef} {i : Nat} {code : EngCode} (huse : r.use = .task ref i)
    (hfits : c.canReturn (c.port e) r code = true) :
    c.completion e tag code stores = ((c.stored r stores).portFreed e).taskReturn e r ref i code := by
  have hfits' : (c.stored r stores).canReturn ((c.stored r stores).port e) r code = true := by
    rw [port_stored]
    cases code with
    | yielded =>
      rw [Core.canReturn, now_stored]
      exact hfits
    | done | saved | fault n => exact hfits
  rw [completion_returns hport hloop hout, htag, portReturn_task huse hfits']

end Completion

/-! DONE of a TILE (R37, R142, R329) -/

/-- A task of which a port has returned a record. -/
def Task.returned (t : Task) (e at_ : Nat) : Task := { t with backAt := aset t.backAt e at_ }

/-- A task of which a port has returned a tile. -/
def Task.tileBack (t : Task) (e : Nat) : Task :=
  { t with back := aset t.back e (agetD t.back e 0 + 1), st := if t.st = .issued then .running else t.st }

/-- The assignment counted, and the time of the return kept. -/
def Core.returnNoted (c : Core) (e : Nat) (ref : TaskRef) : Core :=
  (c.countAssign ref.ctx).modTask ref fun t => t.returned e (c.now / 2)

theorem backToReady_unheld {c : Core} {ref : TaskRef} {q : Run} {t : Task} (htask : c.taskOf ref = some (q, t)) (hheld : t.held = []) :
    c.backToReady ref = c := by
  simp only [Core.backToReady, htask]
  exact if_neg fun h => h.2.1 hheld

/-- A return that is not the last of its task leaves the task to its other tiles. -/
theorem checkDone_waits {c : Core} {ref : TaskRef} {q : Run} {t : Task} (htask : c.taskOf ref = some (q, t)) (hgoing : q.stopping = false)
    (hmore : t.allBack (c.headOf q t) = false) : c.checkDone ref = c := by
  simp only [Core.checkDone, htask, hgoing, Bool.false_eq_true, if_false]
  exact if_pos (by rw [hmore]; simp)

/-- A tile that is neither the last of a share nor of a LIST, of a task with tiles still to come, counts on its port and no more. -/
theorem tileDone_counts {c : Core} {e : Nat} {r : PortRec} {ref : TaskRef} {q : Run} {t : Task} (htask : c.taskOf ref = some (q, t))
    (hlast : r.last = false) (hmode : hMode (c.headOf q t) ≠ 2) (hheld : t.held = []) (hgoing : q.stopping = false)
    (hmore : (t.tileBack e).allBack (c.headOf q t) = false) :
    c.tileDone e r ref = c.modTask ref (·.tileBack e) := by
  have hback : (c.modTask ref (·.tileBack e)).taskOf ref = some (q.withTask ref (·.tileBack e), t.tileBack e) :=
    taskOf_modTask (fun _ => ⟨rfl, rfl⟩) htask
  have hhead : (c.modTask ref (·.tileBack e)).headOf (q.withTask ref (·.tileBack e)) (t.tileBack e) = c.headOf q t := by
    obtain ⟨l, h⟩ := modTask_changes c ref (·.tileBack e)
    rw [h]
    rfl
  have hkept : (r.last || hMode (c.headOf q t) == 2) = false := by rw [hlast, beq_false_of_ne hmode]; rfl
  rw [Core.tileDone, htask]
  change ((if (r.last || hMode (c.headOf q t) == 2) = true then (c.modTask ref (·.tileBack e)).unbind e ref
    else c.modTask ref (·.tileBack e)).backToReady ref).checkDone ref = _
  rw [hkept, if_neg Bool.false_ne_true, backToReady_unheld hback hheld]
  exact checkDone_waits hback hgoing (by rw [hhead]; exact hmore)

section Return
variable {c : Core} {e i : Nat} {stores : List Host.Cell} {r : PortRec} {ref : TaskRef} {q : Run} {t : Task}
  (huse : r.use = .task ref i) (htask : c.taskOf ref = some (q, t))

/-- A core in which the port is free, the stores have reached memory, and the assignment counts. -/
def Core.assigned (c : Core) (e : Nat) (ref : TaskRef) (stores : List Host.Cell) : Core :=
  ((c.store stores).portFreed e).countAssign ref.ctx

theorem runsFrom_returnNoted (c : Core) (e : Nat) (ref : TaskRef) (r : PortRec) (stores : List Host.Cell) :
    RunsFrom (c.assigned e ref stores) (((c.stored r stores).portFreed e).returnNoted e ref) :=
  (((runsFrom_noteStores (c.store stores) r stores).portFreed e).countAssign ref.ctx).trans (runsFrom_modTask ..)

include huse htask in
/-- The task of a record that has returned, with the time of its return. -/
theorem taskOf_returnNoted : ∃ w at_, (((c.stored r stores).portFreed e).returnNoted e ref).taskOf ref
    = some (({ q with wrote := w }).withTask ref (·.returned e at_), t.returned e at_) := by
  obtain ⟨w, hnoted⟩ := taskOf_noteStores (c := c.store stores) stores huse htask
  exact ⟨w, _, taskOf_modTask (c := ((c.stored r stores).portFreed e).countAssign ref.ctx) (fun _ => ⟨rfl, rfl⟩) hnoted⟩

include huse htask in
/-- What a DONE of a tile leaves, where more tiles of its task are to come. -/
theorem taskReturn_done (hkind : r.kind = 4) (hgoing : q.stopping = false) (hst : t.st = .running) (hheld : t.held = [])
    (hlast : r.last = false) (hmode : hMode (c.headOf q t) ≠ 2)
    (hmore : ({ t with back := aset t.back e (agetD t.back e 0 + 1) }).allBack (c.headOf q t) = false) :
    ∃ u y, ((c.stored r stores).portFreed e).taskReturn e r ref i .done = u ∧ RunsFrom (c.assigned e ref stores) u
      ∧ u.taskOf ref = some y ∧ y.2.back = aset t.back e (agetD t.back e 0 + 1) ∧ y.2.st = .running := by
  obtain ⟨w, at_, hnoted⟩ := taskOf_returnNoted (e := e) (stores := stores) huse htask
  have hfrom := runsFrom_returnNoted c e ref r stores
  have hhead : (((c.stored r stores).portFreed e).returnNoted e ref).headOf (({ q with wrote := w }).withTask ref (·.returned e at_))
      (t.returned e at_) = c.headOf q t := by
    obtain ⟨l, h⟩ := hfrom
    rw [h]
    rfl
  have hdone : ((c.stored r stores).portFreed e).taskReturn e r ref i .done
      = (((c.stored r stores).portFreed e).returnNoted e ref).tileDone e r ref := if_pos hkind
  refine ⟨_, _, hdone.trans (tileDone_counts hnoted hlast (by rwa [hhead]) hheld hgoing ?_), hfrom.trans (runsFrom_modTask ..),
    taskOf_modTask (fun _ => ⟨rfl, rfl⟩) hnoted, rfl, ?_⟩
  · rw [hhead]
    exact hmore
  · change (if t.st = .issued then TaskSt.running else t.st) = _
    rw [hst]
    rfl

end Return

/-! YIELDED of a TILE (R173, R175, R180) -/

/-- A task of which a port has yielded a tile. -/
def Task.yielded (t : Task) (e tile : Nat) : Task :=
  { t with held := t.held ++ [(e, tile)], st := if t.st = .issued then .running else t.st }

/-- A task that is READY again. -/
def Task.readied (t : Task) : Task := { t with st := .ready }

/-- A port that has yielded a tile of a task and has to be set up again. -/
def Core.portYielded (c : Core) (e : Nat) (ref : TaskRef) : Core :=
  c.setPort e { c.port e with setup := none, consts := 0, bind := some ref }

/-- What a map holds after one key is set, where no key stands twice. -/
theorem mem_aset {α : Type} {m : AMap α} {n : Nat} {v : α} {x : Nat × α} (hnodup : (m.map Prod.fst).Nodup) (h : x ∈ aset m n v) :
    x = (n, v) ∨ (x ∈ m ∧ x.1 ≠ n) := by
  induction m with
  | nil => exact .inl (List.mem_singleton.mp h)
  | cons y rest ih =>
    obtain ⟨k, w⟩ := y
    obtain ⟨hk, hrest⟩ := List.nodup_cons.mp hnodup
    rw [aset] at h
    split at h
    next hkn =>
      rcases List.mem_cons.mp h with rfl | hx
      · exact .inl (by rw [hkn])
      · exact .inr ⟨List.mem_cons_of_mem _ hx, fun hx1 => hk (List.mem_map.mpr ⟨x, hx, hx1.trans hkn.symm⟩)⟩
    next hkn =>
      rcases List.mem_cons.mp h with rfl | hx
      · exact .inr ⟨List.mem_cons_self, hkn⟩
      · exact (ih hrest hx).imp_right fun hm => ⟨List.mem_cons_of_mem _ hm.1, hm.2⟩

theorem aget_of_mem {α : Type} {m : AMap α} {x : Nat × α} (hnodup : (m.map Prod.fst).Nodup) (h : x ∈ m) : aget m x.1 = some x.2 := by
  induction m with
  | nil => exact absurd h List.not_mem_nil
  | cons y rest ih =>
    obtain ⟨k, w⟩ := y
    obtain ⟨hk, hrest⟩ := List.nodup_cons.mp hnodup
    rcases List.mem_cons.mp h with rfl | hx
    · exact if_pos rfl
    · exact (if_neg (c := k = x.1) fun hkx => hk (List.mem_map.mpr ⟨x, hx, hkx.symm⟩)).trans (ih hrest hx)

/-- Nothing of a task is outstanding where no port is busy for it. -/
theorem taskOut_setPort {c : Core} {e : Nat} {x : EngPort} {ref : TaskRef} (hnodup : (c.disp.ports.map Prod.fst).Nodup)
    (hothers : ∀ f, f ≠ e → (c.port f).busyFor ref = false) (hx : x.busyFor ref = false) : (c.setPort e x).taskOut ref = false := by
  refine List.any_eq_false.mpr fun p hp => Bool.eq_false_iff.mp ?_
  rcases mem_aset hnodup hp with rfl | ⟨hmem, hne⟩
  · exact hx
  · have hport : c.port p.1 = p.2 := by rw [Core.port, agetD, aget_of_mem hnodup hmem]; rfl
    exact hport ▸ hothers p.1 hne

/-- A task that holds a tile and has nothing outstanding is READY again. -/
theorem backToReady_readies {c : Core} {ref : TaskRef} {q : Run} {t : Task} (htask : c.taskOf ref = some (q, t)) (hst : t.st = .running)
    (hheld : t.held ≠ []) (hout : c.taskOut ref = false) (hgoing : q.stopping = false) : c.backToReady ref = c.modTask ref Task.readied := by
  simp only [Core.backToReady, htask]
  exact if_pos ⟨hst, hheld, by rw [hout]; rfl, by rw [hgoing]; rfl⟩

theorem taskOut_portYielded {c : Core} {e : Nat} {ref : TaskRef} {stores : List Host.Cell} (hsel : (c.port e).sel = none)
    (hothers : ∀ f, f ≠ e → (c.port f).busyFor ref = false) (hnodup : (c.disp.ports.map Prod.fst).Nodup) :
    ((c.assigned e ref stores).portYielded e ref).taskOut ref = false := by
  have hports : ((c.assigned e ref stores).portYielded e ref).disp.ports = aset c.disp.ports e
      { (c.assigned e ref stores).port e with setup := none, consts := 0, bind := some ref } := aset_aset ..
  have hfreed : (c.assigned e ref stores).port e = { c.port e with out := none, doneAt := some (c.now / 2 * 2), yield := none } :=
    Core.port_setPort ..
  rw [Core.taskOut, hports, hfreed]
  exact taskOut_setPort hnodup hothers (by rw [EngPort.busyFor, hsel]; rfl)

section Yield
variable {c : Core} {e i : Nat} {stores : List Host.Cell} {r : PortRec} {ref : TaskRef} {q : Run} {t : Task}
  (huse : r.use = .task ref i) (htask : c.taskOf ref = some (q, t)) (hgoing : q.stopping = false) (hst : t.st = .running)
include huse htask hgoing hst

/-- What a YIELDED of a tile leaves, where nothing else of its task is outstanding. -/
theorem taskReturn_yielded (hleft : t.tiles ≠ some 0) (hsel : (c.port e).sel = none)
    (hothers : ∀ f, f ≠ e → (c.port f).busyFor ref = false) (hnodup : (c.disp.ports.map Prod.fst).Nodup) :
    ∃ u y, ((c.stored r stores).portFreed e).taskReturn e r ref i .yielded = u ∧ RunsFrom ((c.assigned e ref stores).portYielded e ref) u
      ∧ u.taskOf ref = some y ∧ y.2.held = t.held ++ [(e, i)] ∧ y.2.st = .ready ∧ y.2.readyAt = t.readyAt := by
  obtain ⟨w, at_, hnoted⟩ := taskOf_returnNoted (e := e) (stores := stores) huse htask
  obtain ⟨l, hfrom⟩ := runsFrom_returnNoted c e ref r stores
  have hport : ((((c.stored r stores).portFreed e).returnNoted e ref).portYielded e ref).taskOf ref
      = some (({ q with wrote := w }).withTask ref (·.returned e at_), t.returned e at_) := hnoted
  have hheld := taskOf_modTask (f := (·.yielded e i)) (fun _ => ⟨rfl, rfl⟩) hport
  have hrunning : ((t.returned e at_).yielded e i).st = .running := by
    change (if t.st = .issued then TaskSt.running else t.st) = _
    rw [hst]
    rfl
  have hyielded : RunsFrom ((c.assigned e ref stores).portYielded e ref)
      (((((c.stored r stores).portFreed e).returnNoted e ref).portYielded e ref).modTask ref (·.yielded e i)) := by
    refine RunsFrom.trans ?_ (runsFrom_modTask ..)
    rw [hfrom]
    exact ⟨l, rfl⟩
  have hout : (((((c.stored r stores).portFreed e).returnNoted e ref).portYielded e ref).modTask ref (·.yielded e i)).taskOut ref = false := by
    obtain ⟨l', hruns⟩ := hyielded
    rw [hruns]
    exact taskOut_portYielded hsel hothers hnodup
  have hback := backToReady_readies hheld hrunning (by simp [Task.yielded]) hout hgoing
  refine ⟨_, _, Eq.trans ?_ hback, hyielded.trans (runsFrom_modTask ..), taskOf_modTask (fun _ => ⟨rfl, rfl⟩) hheld, rfl, rfl, rfl⟩
  change (((c.stored r stores).portFreed e).returnNoted e ref).tileYielded e i ref = _
  simp only [Core.tileYielded, hnoted]
  exact (if_neg hleft).trans (if_neg (by rw [Run.withTask, hgoing]; exact Bool.false_ne_true))

end Yield

/-! FAULT and SAVED (R141, R147, R349) -/

theorem taskReturn_fault {c : Core} {e i code : Nat} {r : PortRec} {ref : TaskRef} (hkind : r.kind = 4) :
    c.taskReturn e r ref i (.fault code)
      = ((((((c.countAssign ref.ctx).modTask ref fun t => { t with backAt := aset t.backAt e (c.now / 2) }).freeBytes r.reach).faultTask
          ref .faulted 3 e i).unbind e ref).settle ref.ctx ref.tag) := by
  rw [Core.taskReturn]
  simp only [Core.engineFault, if_pos hkind]

theorem saveReturn_saves {c : Core} {e : Nat} {q : ClipRun} (hrun : c.clip.run = some q) (hphase : q.phase = .save) :
    c.saveReturn e false = { c with clip := { c.clip with run := some { q with ports := q.ports.filter fun x => x.1 != e } } } := by
  simp only [Core.saveReturn, hrun, hphase]
  rfl

theorem stored_save {c : Core} {r : PortRec} (stores : List Host.Cell) (huse : r.use = .save) : c.stored r stores = c.store stores := by
  rw [Core.stored, Core.noteStores, huse]

/-- What a SAVED of a port leaves: the port is free and no longer one that the clip has to save. -/
theorem completion_saved {c : Core} {e tag : Nat} {stores : List Host.Cell} {r : PortRec} {q : ClipRun} (hport : e < c.cfg.enginePorts)
    (hloop : c.engLoop e = 0) (hout : (c.port e).out = some r) (htag : tag = r.bits.toNat % 2 ^ 16) (huse : r.use = .save)
    (hrun : c.clip.run = some q) (hphase : q.phase = .save) : ∃ u, c.completion e tag .saved stores = u ∧ (u.port e).out = none
      ∧ u.clip.run = some { q with ports := q.ports.filter fun x => x.1 != e } ∧ u.evt = c.evt ∧ u.mem = (c.store stores).mem
      ∧ u.graph = (c.store stores).graph ∧ u.queues = c.queues := by
  have hsaved : c.completion e tag .saved stores = ((c.store stores).portFreed e).saveReturn e false := by
    rw [completion_returns hport hloop hout, htag, portReturn_saved huse, stored_save stores huse]
  have hleaves := saveReturn_saves (c := (c.store stores).portFreed e) (e := e) hrun hphase
  refine ⟨_, hsaved.trans hleaves, ?_, rfl, rfl, rfl, rfl, rfl⟩
  exact congrArg (·.out) (Core.port_setPort (c.store stores) e _)

section Exec
variable {s : State} (hrunning : s.running = true) (e tag : Nat) (stores : List Host.Cell)
include hrunning

theorem exec_engDone : exec (.engDone e tag stores) s = .next (s.withCore (s.core.completion e tag .done stores)) :=
  onRun_running hrunning fun _ c => c.completion e tag .done stores

theorem exec_engYielded : exec (.engYielded e tag stores) s = .next (s.withCore (s.core.completion e tag .yielded stores)) :=
  onRun_running hrunning fun _ c => c.completion e tag .yielded stores

theorem exec_engSaved : exec (.engSaved e tag stores) s = .next (s.withCore (s.core.completion e tag .saved stores)) :=
  onRun_running hrunning fun _ c => c.completion e tag .saved stores

theorem exec_engFault {code : Nat} (hcode : code = 2 ∨ (4 ≤ code ∧ code < 8)) :
    exec (.engFault e tag code stores) s = .next (s.withCore (s.core.completion e tag (.fault code) stores)) :=
  (if_pos hcode).trans (onRun_running hrunning fun _ c => c.completion e tag (.fault code) stores)

/-- A completion command by its code. -/
theorem exec_completion {code : Nat} {i : Instr} (hi : (i = .engDone e tag stores ∧ code = 0) ∨ (i = .engYielded e tag stores ∧ code = 1)
      ∨ (i = .engSaved e tag stores ∧ code = 3) ∨ (i = .engFault e tag code stores ∧ (code = 2 ∨ (4 ≤ code ∧ code < 8)))) :
    ∃ k : EngCode, k.num = code ∧ exec i s = .next (s.withCore (s.core.completion e tag k stores)) := by
  rcases hi with ⟨rfl, rfl⟩ | ⟨rfl, rfl⟩ | ⟨rfl, rfl⟩ | ⟨rfl, hcode⟩
  · exact ⟨.done, rfl, exec_engDone hrunning e tag stores⟩
  · exact ⟨.yielded, rfl, exec_engYielded hrunning e tag stores⟩
  · exact ⟨.saved, rfl, exec_engSaved hrunning e tag stores⟩
  · exact ⟨.fault code, rfl, exec_engFault hrunning e tag stores hcode⟩

end Exec

/-! The frames of a return -/

theorem assigned_leaves (c : Core) (e : Nat) (ref : TaskRef) (stores : List Host.Cell) : ((c.assigned e ref stores).port e).out = none
    ∧ ((c.assigned e ref stores).port e).doneAt = some (c.now / 2 * 2) ∧ ((c.assigned e ref stores).port e).bind = (c.port e).bind
    ∧ ((c.assigned e ref stores).ctx ref.ctx).assigns = min ((c.ctx ref.ctx).assigns + 1) (2 ^ 64 - 1)
    ∧ (c.assigned e ref stores).mem = (c.store stores).mem ∧ (c.assigned e ref stores).evt = c.evt
    ∧ (c.assigned e ref stores).queues = c.queues ∧ (∀ f, f ≠ e → (c.assigned e ref stores).port f = c.port f)
    ∧ ∀ m, m ≠ ref.ctx → (c.assigned e ref stores).ctx m = c.ctx m := by
  have hport : (c.assigned e ref stores).port e = { c.port e with out := none, doneAt := some (c.now / 2 * 2), yield := none } :=
    Core.port_setPort ..
  have hctx : (c.assigned e ref stores).ctx ref.ctx
      = { c.ctx ref.ctx with assigns := sat64 (c.ctx ref.ctx).assigns 1, progressed := true } := Core.ctx_setCtx ..
  rw [hport, hctx]
  exact ⟨rfl, rfl, rfl, rfl, rfl, rfl, rfl, fun f hf => Core.port_setPort_other _ _ _ _ hf, fun m hm => Core.ctx_setCtx_other _ _ _ _ hm⟩

theorem portYielded_leaves (c : Core) (e : Nat) (ref : TaskRef) (stores : List Host.Cell) :
    (((c.assigned e ref stores).portYielded e ref).port e).out = none
    ∧ (((c.assigned e ref stores).portYielded e ref).port e).setup = none
    ∧ (((c.assigned e ref stores).portYielded e ref).port e).bind = some ref
    ∧ (((c.assigned e ref stores).portYielded e ref).port e).yield = none
    ∧ ((c.assigned e ref stores).portYielded e ref).mem = (c.store stores).mem
    ∧ ((c.assigned e ref stores).portYielded e ref).queues = c.queues := by
  have hport : (c.assigned e ref stores).port e = { c.port e with out := none, doneAt := some (c.now / 2 * 2), yield := none } :=
    Core.port_setPort ..
  have hyielded : ((c.assigned e ref stores).portYielded e ref).port e
      = { (c.assigned e ref stores).port e with setup := none, consts := 0, bind := some ref } := Core.port_setPort ..
  rw [hyielded, hport]
  exact ⟨rfl, rfl, rfl, rfl, rfl, rfl⟩

/-- Settles O39: DONE, YIELDED and FAULT by what the return does to its task, SAVED by the ports of the clip, a stray one by its record. -/
theorem engineReturns : Obligations.EngineReturns := by
  unfold Obligations.EngineReturns
  refine ⟨fun s e tag stores r ref i q t hrunning hport hloop hout huse hkind htag htask hgoing hst hheld hlast hmode hmore => ?_,
    fun s e tag i d stores r ref q t hrunning hport hloop hout hsel huse hkind htag hyield hdue htask hgoing hst hleft hothers hnodup => ?_,
    fun s e tag code i stores r ref hrunning hport hloop hout huse hkind htag hcode => ?_,
    fun s e tag stores r q hrunning hport hloop hout huse htag hrun hphase => ?_,
    fun s e tag stores i code hrunning hport hout hi => ?_⟩
  · have hfits : s.core.canReturn (s.core.port e) r .done = true := by rw [Core.canReturn, huse]; rfl
    obtain ⟨u, y, hreturn, hfrom, htaskAfter, hback, hstAfter⟩ :=
      taskReturn_done (e := e) (stores := stores) huse htask hkind hgoing hst hheld hlast hmode hmore
    obtain ⟨hmemRuns, hevtRuns, hqueuesRuns, hportRuns, hctxRuns⟩ := hfrom.keeps
    obtain ⟨hfree, hdone, hbind, hassigns, hmem, hevt, hqueues, hports, hctxs⟩ := assigned_leaves s.core e ref stores
    have hexec : exec (.engDone e tag stores) s = .next (s.withCore u) := by
      rw [exec_engDone hrunning, completion_task hport hloop hout htag huse hfits, hreturn]
    refine ⟨s.withCore u, y, hexec, ?_, ?_, ?_, htaskAfter, hback, hstAfter, ?_, hmemRuns.trans hmem, hevtRuns.trans hevt,
      hqueuesRuns.trans hqueues, fun f hf => (hportRuns f).trans (hports f hf), fun m hm => (hctxRuns m).trans (hctxs m hm)⟩
    · exact (congrArg (·.out) (hportRuns e)).trans hfree
    · exact (congrArg (·.doneAt) (hportRuns e)).trans hdone
    · exact (congrArg (·.bind) (hportRuns e)).trans hbind
    · exact (congrArg (·.assigns) (hctxRuns ref.ctx)).trans hassigns
  · have hfits : s.core.canReturn (s.core.port e) r .yielded = true := by
      rw [Core.canReturn, hkind, hyield]
      exact decide_eq_true hdue
    obtain ⟨u, y, hreturn, hfrom, htaskAfter, hheld, hstAfter, hready⟩ :=
      taskReturn_yielded (e := e) (stores := stores) huse htask hgoing hst hleft hsel hothers hnodup
    obtain ⟨hmemRuns, -, hqueuesRuns, hportRuns, -⟩ := hfrom.keeps
    obtain ⟨hfree, hsetup, hbind, hyielded, hmem, hqueues⟩ := portYielded_leaves s.core e ref stores
    have hexec : exec (.engYielded e tag stores) s = .next (s.withCore u) := by
      rw [exec_engYielded hrunning, completion_task hport hloop hout htag huse hfits, hreturn]
    refine ⟨s.withCore u, y, hexec, ?_, ?_, ?_, ?_, htaskAfter, hheld, hstAfter, hready, hmemRuns.trans hmem, hqueuesRuns.trans hqueues⟩
    · exact (congrArg (·.out) (hportRuns e)).trans hfree
    · exact (congrArg (·.setup) (hportRuns e)).trans hsetup
    · exact (congrArg (·.bind) (hportRuns e)).trans hbind
    · exact (congrArg (·.yield) (hportRuns e)).trans hyielded
  · intro c c1 c2
    have hnow : c1.now = s.core.now := now_stored ..
    have hfreed : (s.core.stored r stores).portFreed e = c1 := by rw [Core.portFreed, now_stored]; rfl
    rw [exec_engFault hrunning e tag stores hcode, completion_task hport hloop hout htag huse (code := .fault code) rfl, hfreed,
      taskReturn_fault hkind, hnow]
  · obtain ⟨u, hsaved, hfree, hclip, hrest⟩ := completion_saved hport hloop hout htag huse hrun hphase (stores := stores)
    exact ⟨s.withCore u, hsaved ▸ exec_engSaved hrunning e tag stores, hfree, hclip, hrest⟩
  · obtain ⟨k, hk, hexec⟩ := exec_completion hrunning e tag stores hi
    rw [hexec, completion_stray hport k hout, hk]

end Sys2Proof.Machine
end
section
/-! PROOFS. Acknowledgement, loss and the transit lane of a port (O55). -/

namespace Sys2Proof.Machine

/-! Acknowledgements taken (R301) -/

theorem not_reflecting_of_active {c : Core} {p : Nat} (hst : (c.link p).st = .active) : c.reflecting p = false := by
  simp [Core.reflecting, hst]

/-- A good frame that reaches a port in ACTIVE has its acknowledgement taken. -/
theorem localFrame_active {c : Core} {p : Nat} {f : Frame} (hst : (c.link p).st = .active) (hcrc : crcOk f = true) :
    (c.localFrame p f).1 = c.takeAck p f := by
  simp [Core.localFrame, not_reflecting_of_active hst, hst, hcrc]

/-- A port on which no frame waits has none to send. -/
theorem pump_of_none_waiting {l : Link} (now : Nat) (h : ∀ v, (l.lane v).waiting = []) : l.pump now = l := by
  refine List.foldlRecOn (motive := fun x : Link => x = l) _ _ rfl fun x hx v _ => ?_
  rw [hx, h v]
  rfl

theorem lane_setLane (l : Link) (v : Nat) (a : LinkLane) : (l.setLane v a).lane v = a :=
  match v with
  | 0 | 1 | 2 | _ + 3 => rfl

/-- A lane replaced by one on which no frame waits leaves none waiting on a port where none waited. -/
theorem waiting_setLane {l : Link} {a : LinkLane} (v w : Nat) (hl : ∀ u, (l.lane u).waiting = []) (ha : a.waiting = []) :
    ((l.setLane v a).lane w).waiting = [] := by
  have h0 : l.vl0.waiting = [] := hl 0
  have h1 : l.vl1.waiting = [] := hl 1
  have h2 : l.vl2.waiting = [] := hl 2
  have h3 : l.vl3.waiting = [] := hl 3
  unfold Link.setLane Link.lane
  split <;> split <;> assumption

theorem st_setLane (l : Link) (v : Nat) (a : LinkLane) : (l.setLane v a).st = l.st := by
  unfold Link.setLane
  split <;> rfl

/-- An acknowledgement shortens the replay buffer of its lane; besides, only what its port counts and times changes before it sends. -/
theorem takeAck_pumps {c : Core} {p : Nat} {f : Frame} (hvalid : f.ackValid = true) (hnak : f.nak = false)
    (hlooped : (c.link p).looped = false) :
    ∃ a unackAt cnt0, c.takeAck p f
        = c.setLink p (Link.pump { (c.link p).setLane f.ackVl a with unackAt := unackAt, cnt0 := cnt0 } c.now)
      ∧ a.waiting = ((c.link p).lane f.ackVl).waiting
      ∧ a.replay = ((c.link p).lane f.ackVl).replay.dropWhile fun g => seqBefore g.seq ((f.ackSeq + 1) % 4096) := by
  have hlane : (c.link p).ackLane f.ackVl = (c.link p).lane f.ackVl := by rw [Link.ackLane, hlooped]; rfl
  have hset (a : LinkLane) : (c.link p).setAckLane f.ackVl a = (c.link p).setLane f.ackVl a := by rw [Link.setAckLane, hlooped]; rfl
  simp only [Core.takeAck, hvalid, hnak, hlane, hset, Bool.not_true, Bool.false_eq_true, if_false, OfNat.zero_ne_ofNat]
  exact ⟨_, _, _, rfl, rfl, rfl⟩

theorem lane_withCounts (l : Link) (unackAt : Option Nat) (cnt0 : W64) (v : Nat) :
    Link.lane { l with unackAt := unackAt, cnt0 := cnt0 } v = l.lane v :=
  match v with
  | 0 | 1 | 2 | _ + 3 => rfl

/-- An acknowledgement, taken with nothing waiting: what it covers leaves the replay buffer of its lane, and the port stays. -/
theorem link_takeAck {c : Core} {p : Nat} {f : Frame} (hvalid : f.ackValid = true) (hnak : f.nak = false)
    (hlooped : (c.link p).looped = false) (hwait : ∀ v, ((c.link p).lane v).waiting = []) :
    ((c.takeAck p f).link p).st = (c.link p).st
    ∧ (((c.takeAck p f).link p).lane f.ackVl).replay
        = ((c.link p).lane f.ackVl).replay.dropWhile fun g => seqBefore g.seq ((f.ackSeq + 1) % 4096) := by
  obtain ⟨a, unackAt, cnt0, htake, hwaiting, hreplay⟩ := takeAck_pumps hvalid hnak hlooped
  rw [htake, Core.link_setLink, pump_of_none_waiting _ fun v => by
    rw [lane_withCounts]; exact waiting_setLane f.ackVl v hwait (hwaiting.trans (hwait _))]
  exact ⟨st_setLane .., by rw [lane_withCounts, lane_setLane, hreplay]⟩

/-! Acknowledgements owed (R301) -/

theorem ackDue_stamp (l : Link) (f : Frame) : (l.stamp f).2.ackDue = l.ackDue.tail := by
  unfold Link.stamp
  split <;> simp [*]

/-- A link-local frame takes the first acknowledgement that is due, and is the last of those that leave. -/
theorem owes_sendLocal (c : Core) (p : Nat) (pl : Payload) :
    ((c.sendLocal p pl).link p).ackDue = (c.link p).ackDue.tail
    ∧ ((c.sendLocal p pl).link p).ctlOut.length = (c.link p).ctlOut.length + 1 := by
  obtain ⟨-, g, hout, -⟩ := link_sendLocal c p pl
  refine ⟨?_, by rw [hout, List.length_append]; rfl⟩
  rw [Core.sendLocal, Core.link_setLink]
  exact ackDue_stamp ..

/-- As many link-local frames as acknowledgements are owed carry them all. -/
theorem acks_leave (p : Nat) (due : List Nat) (c : Core) (h : (c.link p).ackDue = due) :
    let d := due.foldl (fun d _ => d.sendLocal p .ack) c
    (d.link p).ackDue = [] ∧ (d.link p).st = (c.link p).st ∧ (d.link p).ctlOut.length = (c.link p).ctlOut.length + due.length
    ∧ (∀ q, q ≠ p → d.link q = c.link q) ∧ LinksFrom c d := by
  induction due generalizing c with
  | nil => exact ⟨h, rfl, rfl, fun _ _ => rfl, .refl c⟩
  | cons v due ih =>
    obtain ⟨hdue, hout⟩ := owes_sendLocal c p .ack
    obtain ⟨hnone, hst, hlen, hother, hfrom⟩ := ih (c.sendLocal p .ack) (by rw [hdue, h]; rfl)
    refine ⟨hnone, hst.trans (link_sendLocal c p .ack).1, ?_, fun q hq => (hother q hq).trans (link_sendLocal_other c .ack hq),
      (linksFrom_sendLocal ..).trans hfrom⟩
    rw [List.foldl_cons, hlen, hout, List.length_cons]
    omega

/-! Codewords lost (R42) -/

/-- A NAK leaves the counters, the state and the other ports as they are. -/
theorem link_sendNak (c : Core) (p v : Nat) :
    ((c.sendNak p v).link p).cnt1 = (c.link p).cnt1 ∧ ((c.sendNak p v).link p).st = (c.link p).st
    ∧ (∀ q, q ≠ p → (c.sendNak p v).link q = c.link q) := by
  refine ⟨?_, ?_, fun q hq => Core.link_setLink_other _ _ _ _ hq⟩ <;>
  · rw [Core.sendNak, Core.link_setLink]
    unfold Link.setAckLane Link.setLane
    split
    · rfl
    · split <;> rfl

/-- A NAK asks for the first missing number of its lane. -/
theorem sendNak_asks (c : Core) (p v : Nat) :
    ∃ g, ((c.sendNak p v).link p).ctlOut = (c.link p).ctlOut ++ [g] ∧ g.nak = true ∧ g.ackVl = v
      ∧ g.ackSeq = ((c.link p).ackLane v).expect := by
  rw [Core.sendNak, Core.link_setLink]
  exact ⟨_, rfl, rfl, rfl, rfl⟩

/-- A port that has counted an uncorrectable codeword. -/
def Link.badCodeword (l : Link) : Link := { l with cnt1 := satAdd l.cnt1 0 32 1 }

/-- The NAKs of the lanes that lost a frame, but of those that wait for one already. -/
def Core.nakLost (c : Core) (p : Nat) (lost : List Nat) : Core :=
  (lost.filter fun v => decide (v < 4)).foldl (fun d v => if ((d.link p).ackLane v).gap then d else d.sendNak p v) c

theorem link_nakLost (c : Core) (p : Nat) (lost : List Nat) :
    ((c.nakLost p lost).link p).cnt1 = (c.link p).cnt1 ∧ ((c.nakLost p lost).link p).st = (c.link p).st
    ∧ (∀ q, q ≠ p → (c.nakLost p lost).link q = c.link q) := by
  refine List.foldlRecOn (motive := fun d : Core => (d.link p).cnt1 = (c.link p).cnt1 ∧ (d.link p).st = (c.link p).st
    ∧ (∀ q, q ≠ p → d.link q = c.link q)) _ _ ⟨rfl, rfl, fun _ _ => rfl⟩ fun d h v _ => ?_
  obtain ⟨hcnt, hst, hother⟩ := h
  obtain ⟨kcnt, kst, kother⟩ := link_sendNak d p v
  split
  · exact ⟨hcnt, hst, hother⟩
  · exact ⟨kcnt.trans hcnt, kst.trans hst, fun q hq => (kother q hq).trans (hother q hq)⟩

theorem nakLost_one {c : Core} {p v : Nat} (hv : v < 4) (hgap : ((c.link p).ackLane v).gap = false) :
    c.nakLost p [v] = c.sendNak p v := by
  simp [Core.nakLost, hv, hgap]

/-! Transit frames (R316) -/

theorem cnt2_pleachLost (c : Core) (p n : Nat) :
    fld ((c.pleachLost p n).link p).cnt2 0 32 = min (fld (c.link p).cnt2 0 32 + n) (2 ^ 32 - 1) := by
  rw [Core.pleachLost]
  split
  next h =>
    have := fld_lt (c.link p).cnt2 0 32
    omega
  next => rw [link_setFab, Core.link_setLink, fld_satAdd_self _ _ (by decide)]

theorem link_pleachLost_other (c : Core) {p q : Nat} (n : Nat) (h : q ≠ p) : (c.pleachLost p n).link q = c.link q := by
  rw [Core.pleachLost]
  split
  · rfl
  · rw [link_setFab, Core.link_setLink_other _ _ _ _ h]

/-- Nothing of the transit lane of a port waits: neither a PSYNC nor an acknowledgement. -/
def Link.synced (l : Link) : Prop := l.psyncAt = none ∧ l.vl3.replay = []

/-- A port that lost transit frames counts them, and nothing else of its lanes and its role changes. -/
theorem pleachLost_keeps (c : Core) (p n : Nat) :
    ((c.pleachLost p n).link p).role = (c.link p).role ∧ ((c.pleachLost p n).link p).psyncAt = (c.link p).psyncAt
    ∧ ((c.pleachLost p n).link p).vl3 = (c.link p).vl3 := by
  rw [Core.pleachLost]
  split
  · exact ⟨rfl, rfl, rfl⟩
  · rw [link_setFab, Core.link_setLink]
    exact ⟨rfl, rfl, rfl⟩

theorem oppRole_ne (r : Nat) : oppRole r ≠ r := by
  unfold oppRole
  split <;> omega

theorem role_of_portOfRole {c : Core} {r q : Nat} (h : c.portOfRole r = some q) : (c.link q).role = r := by
  simpa using List.find?_some h

/-- A transit frame goes to another port: a synced port stays synced, and keeps its role. -/
theorem synced_sendPleach {c : Core} {p role : Nat} (f : Frame) (hrole : (c.link p).role = role) (hsync : (c.link p).synced) :
    ((c.sendPleach p role f).link p).role = role ∧ ((c.sendPleach p role f).link p).synced := by
  have hlost : ((c.pleachLost p 1).link p).role = role ∧ ((c.pleachLost p 1).link p).synced := by
    obtain ⟨krole, kpsync, kvl3⟩ := pleachLost_keeps c p 1
    exact ⟨krole.trans hrole, kpsync.trans hsync.1, by rw [kvl3]; exact hsync.2⟩
  rw [Core.sendPleach]
  split
  · exact hlost
  next q hq =>
    have hqp : p ≠ q := fun h => oppRole_ne role ((role_of_portOfRole hq).symm.trans (h ▸ hrole))
    split
    · exact hlost
    · rw [Core.enqueue, Core.link_setLink_other _ _ _ _ hqp, Core.link_setLink]
      exact ⟨hrole, hsync⟩

theorem synced_sendPleaches {c : Core} {p role : Nat} (l : List Frame) (hrole : (c.link p).role = role) (hsync : (c.link p).synced) :
    ((l.foldl (fun d f => d.sendPleach p role f) c).link p).synced :=
  (List.foldlRecOn (motive := fun d : Core => (d.link p).role = role ∧ (d.link p).synced) l _ ⟨hrole, hsync⟩
    fun _ h f _ => synced_sendPleach f h.1 h.2).2

/-- A PSYNC ends the wait for it, and leaves on the transit lane what it does not acknowledge, or nothing of a port on Pleach. -/
theorem link_psyncIn (c : Core) (last p : Nat) :
    ((c.psyncIn last p).link p).psyncAt = none
    ∧ ((c.psyncIn last p).link p).vl3.replay = if (c.link p).pleach then []
        else (c.link p).vl3.replay.dropWhile fun g => seqBefore g.seq ((last + 1) % 4096) := by
  rw [Core.psyncIn]
  dsimp only
  split
  · exact synced_sendPleaches _ (by rw [Core.link_setLink]) (by rw [Core.link_setLink]; exact ⟨rfl, rfl⟩)
  · rw [Core.link_setLink]
    exact ⟨rfl, rfl⟩

/-- A port whose transit lane has given up what it waited for. -/
def Link.transitDropped (l : Link) : Link := { l with psyncAt := none, vl3 := { l.vl3 with replay := [] } }

/-- What a port that waited for a PSYNC in vain leaves. -/
theorem transitDropped_counts (c : Core) (p n : Nat) :
    let d := (c.setLink p (c.link p).transitDropped).pleachLost p n
    (d.link p).psyncAt = none ∧ (d.link p).vl3.replay = [] ∧ fld (d.link p).cnt2 0 32 = min (fld (c.link p).cnt2 0 32 + n) (2 ^ 32 - 1)
    ∧ (∀ q, q ≠ p → d.link q = c.link q) ∧ d.mem = c.mem ∧ d.graph = c.graph := by
  obtain ⟨-, kpsync, kvl3⟩ := pleachLost_keeps (c.setLink p (c.link p).transitDropped) p n
  have kcnt := cnt2_pleachLost (c.setLink p (c.link p).transitDropped) p n
  have kfrom := carriedFrom_pleachLost (c.setLink p (c.link p).transitDropped) p n
  rw [Core.link_setLink] at kpsync kvl3 kcnt
  exact ⟨kpsync, congrArg LinkLane.replay kvl3, kcnt,
    fun q hq => (link_pleachLost_other _ _ hq).trans (Core.link_setLink_other _ _ _ _ hq), kfrom.mem, kfrom.graph⟩

/-! The commands -/

section Exec
variable {s : State} {p : Nat} (hr : s.running = true)
include hr

theorem exec_psyncFrame {a : Arrival} {d : Core} {f : Frame} {last : Nat} (hwf : a.wf = true)
    (harrive : s.core.arrive payPsync a = (d, some f)) (hpay : f.payload = .psync last p) (hlink : d.isLink p = true) :
    exec (.psyncFrame a) s = .next (s.withCore (d.psyncIn last p)) := by
  change execPsyncFrame a s = _
  rw [execPsyncFrame, if_pos hwf, onRun_running hr]
  simp only [harrive, hpay, hlink, if_true]

variable (hp : p < s.core.cfg.linkPorts)
include hp

theorem exec_ackFrame {f : Frame} (hwf : f.wf = true) (hpay : f.payload = .ack) (hst : (s.core.link p).st = .active)
    (hcrc : crcOk f = true) : exec (.ackFrame p f) s = .next (s.withCore (Core.testFill p 122 (s.core.takeAck p f))) := by
  change execAckFrame p f s = _
  rw [execAckFrame, if_pos hwf, onLink_running hr hp]
  simp only [hpay, localFrame_active hst hcrc]

theorem exec_ackTimer {t : Nat} (hsince : (s.core.link p).ackSince = some t) (hst : (s.core.link p).st = .active)
    (hdue : t + 1024 * 4 ≤ s.core.now) :
    exec (.ackTimer p) s = .next (s.withCore ((s.core.link p).ackDue.foldl (fun d _ => d.sendLocal p .ack) s.core)) := by
  change execAckTimer p s = _
  rw [execAckTimer, onLink_running hr hp]
  simp only [hsince, if_pos (And.intro hst hdue)]

theorem exec_correctedCodeword {lost : List Nat} {errors : Nat} (hst : (s.core.link p).st ≠ .parked) (hlow : 1 ≤ errors)
    (hhigh : errors ≤ 15) : exec (.uncorrectableCodeword p lost errors) s
      = .next (s.withCore (s.core.setLink p { s.core.link p with cnt1 := satAdd (s.core.link p).cnt1 32 32 1 })) := by
  change execUncorrectableCodeword p lost s errors = _
  rw [execUncorrectableCodeword, onLink_running hr hp, if_neg (not_or.mpr ⟨hst, Nat.ne_of_gt hlow⟩), if_pos (by exact hhigh)]

theorem exec_lostCodeword {lost : List Nat} {errors : Nat} (hst : (s.core.link p).st ≠ .parked) (herrors : 16 ≤ errors) :
    exec (.uncorrectableCodeword p lost errors) s = .next (s.withCore
      (if (s.core.link p).st = .active then (s.core.setLink p (s.core.link p).badCodeword).nakLost p lost
       else s.core.setLink p (s.core.link p).badCodeword)) := by
  change execUncorrectableCodeword p lost s errors = _
  rw [execUncorrectableCodeword, onLink_running hr hp, if_neg (not_or.mpr ⟨hst, by omega⟩),
    if_neg (show ¬ errors ≤ rsCorrects by rw [show rsCorrects = 15 from rfl]; omega)]
  rfl

theorem exec_psyncTimeout {t : Nat} (hpsync : (s.core.link p).psyncAt = some t) (hdue : t ≤ s.core.now) :
    exec (.psyncTimeout p) s = .next (s.withCore
      ((s.core.setLink p (s.core.link p).transitDropped).pleachLost p (s.core.link p).vl3.replay.length)) := by
  change execPsyncTimeout p s = _
  rw [execPsyncTimeout, onLink_running hr hp]
  simp only [hpsync, if_pos hdue, Link.transitDropped]

end Exec

/-- What an uncorrectable codeword leaves: it is counted, and a single lane that lost a frame asks for it. -/
theorem lostCodeword_counts {c d : Core} {p : Nat} {lost : List Nat}
    (hd : d = if (c.link p).st = .active then (c.setLink p (c.link p).badCodeword).nakLost p lost
      else c.setLink p (c.link p).badCodeword) :
    fld (d.link p).cnt1 0 32 = min (fld (c.link p).cnt1 0 32 + 1) (2 ^ 32 - 1) ∧ (d.link p).st = (c.link p).st
    ∧ (∀ q, q ≠ p → d.link q = c.link q)
    ∧ (∀ v, lost = [v] → v < 4 → (c.link p).st = .active → ((c.link p).ackLane v).gap = false →
        ∃ g, (d.link p).ctlOut = (c.link p).ctlOut ++ [g] ∧ g.nak = true ∧ g.ackVl = v ∧ g.ackSeq = ((c.link p).ackLane v).expect) := by
  have hself := Core.link_setLink c p (c.link p).badCodeword
  have hother (q : Nat) (hq : q ≠ p) := Core.link_setLink_other c p q (c.link p).badCodeword hq
  have hcnt : fld (c.link p).badCodeword.cnt1 0 32 = min (fld (c.link p).cnt1 0 32 + 1) (2 ^ 32 - 1) :=
    fld_satAdd_self _ _ (by decide)
  by_cases hst : (c.link p).st = .active
  · rw [if_pos hst] at hd
    obtain ⟨kcnt, kst, kother⟩ := link_nakLost (c.setLink p (c.link p).badCodeword) p lost
    rw [hself] at kcnt kst
    refine ⟨by rw [hd, kcnt, hcnt], by rw [hd, kst]; rfl, fun q hq => by rw [hd, kother q hq, hother q hq], ?_⟩
    intro v hlost hv _ hgap
    obtain ⟨g, hout, hasks⟩ := sendNak_asks (c.setLink p (c.link p).badCodeword) p v
    rw [hself] at hout hasks
    rw [hd, hlost, nakLost_one hv (by rw [hself]; exact hgap)]
    exact ⟨g, hout, hasks⟩
  · rw [if_neg hst] at hd
    rw [hd, hself]
    exact ⟨hcnt, rfl, hother, fun _ _ _ h => absurd h hst⟩

/-! The obligation -/

/-- Settles O55: each row of a link port by the function of the port that it calls. -/
theorem framesAcknowledged : Obligations.FramesAcknowledged := by
  unfold Obligations.FramesAcknowledged
  intro s p hr hp
  dsimp only
  refine ⟨fun f hwf hpay hst hcrc => ⟨exec_ackFrame hr hp hwf hpay hst hcrc, fun hvalid hnak hlooped hwait => ?_⟩,
    fun t hsince hst hdue => ?_, fun errors lost hst => ⟨exec_correctedCodeword hr hp hst, fun herrors => ?_⟩,
    fun a d f last hwf harrive hpay hcfg => ?_, fun t hpsync hdue => ?_⟩
  · obtain ⟨kst, kreplay⟩ := link_takeAck hvalid hnak hlooped hwait
    exact ⟨kst.trans hst, kreplay⟩
  · obtain ⟨kdue, kst, kout, kother, kfrom⟩ := acks_leave p _ s.core rfl
    exact ⟨_, exec_ackTimer hr hp hsince hst hdue, kdue, kst.trans hst, kout, kother, kfrom.keeps⟩
  · exact ⟨_, exec_lostCodeword hr hp hst herrors, lostCodeword_counts rfl⟩
  · exact ⟨_, exec_psyncFrame hr hwf harrive hpay (decide_eq_true (hcfg ▸ hp)), link_psyncIn d last p⟩
  · exact ⟨_, exec_psyncTimeout hr hp hpsync hdue, transitDropped_counts ..⟩

end Sys2Proof.Machine
end
section
/-! PROOFS. RESTORE: its checks, the saved state that it applies, and how it ends (O59). -/

namespace Sys2Proof.Machine

/-! The checks (R356) -/

/-- A loop of checks passes where each of them does. -/
theorem forIn_of_passes {ε α : Type} {f : α → Except ε Unit} {l : List α} (h : ∀ x, x ∈ l → passes (f x) = true) :
    (forIn l PUnit.unit fun x _ => do f x; pure (ForInStep.yield PUnit.unit) : Except ε PUnit) = .ok PUnit.unit := by
  induction l with
  | nil => rfl
  | cons x l ih =>
    rw [List.forIn_cons, passes_unit (h x List.mem_cons_self)]
    exact ih fun y hy => h y (List.mem_cons_of_mem _ hy)

/-- What RESTORE reads before it decides (R356): the region, the header words, the header, the sections and the engine areas. -/
structure BlobRead (c : Core) (p : Packet) (g : Region) (h : List W64) (hb text areas : List Byte) : Prop where
  idle    : c.clipPending = false
  fields  : passes (step9 p []) = true
  region  : c.handleParam 0 p 2 0 false 0 = .ok g
  extent  : 256 ≤ g.size
  masked  : ∀ n, n < 64 → bitAt (pw p 3) n = true → (c.ctx n).st = .opened ∧ c.noRuns n = true
  words   : c.readWords g.base 32 = .ok h
  form    : c.blobForm h (pw p 3) (maskPorts ((h.drop 16).flatMap wordBytes)).length g.size = true
  header  : c.readBytes g.base 256 = .ok hb
  text    : c.readBytes (g.base + 256) (64 * (fld (h.getD 12 0) 32 32 - 4)) = .ok text
  areas   : c.readBytes (g.base + 64 * fld (h.getD 12 0) 32 32) (64 * fld (h.getD 12 0) 16 16
              * (maskPorts ((h.drop 16).flatMap wordBytes)).length) = .ok areas

/-- The tag that Hedge finds for a blob read (R364). -/
def readTag (s : Sys) (hb text areas : List Byte) : List Byte :=
  blobTag s (hb.take 80 ++ natBytes 16 0 ++ hb.drop 96) text areas ((hb.drop 64).take 12)

/-- RESTORE once its blob is read: Hedge decides (R356, R364, R369). -/
def Core.restoreRead (s : Sys) (c : Core) (p : Packet) (base : Nat) (h : List W64) (hb text areas : List Byte) : Except Verdict CpRes :=
  if s.hedgeDown then c.restoreStop p (h[2]?) 9
  else if readTag s hb text areas = (hb.drop 80).take 16 then
    match Config.decodeSections (gcmText s.keys.devKey ((hb.drop 64).take 12) text) with
    | some save => c.restoreTake p base h (maskPorts ((h.drop 16).flatMap wordBytes)) save
    | none => .error (vParam 2 2)
  else .ok (.done { status := .authFail, detail := 1 } ((c.setHedge 1).logHedge 6 Status.authFail.code 0 0))

section Checks
variable {c : Core} {p : Packet} {g : Region} {h : List W64} {hb text areas : List Byte} (hread : BlobRead c p g h hb text areas)
include hread

theorem restoreCmd_read (s : Sys) : Core.restoreCmd s c p = Core.restoreRead s c p g.base h hb text areas := by
  obtain ⟨hidle, hfields, hregion, hextent, hmasked, hwords, hform, hheader, htext, hareas⟩ := hread
  have hall : ((maskCtxs (pw p 3)).all fun n => (c.ctx n).st == .opened && c.noRuns n) = true :=
    List.all_eq_true.mpr fun n hn => by
      obtain ⟨hlt, hbit⟩ := mem_maskCtxs.mp hn
      obtain ⟨hst, hruns⟩ := hmasked n hlt hbit
      rw [hst, hruns]; rfl
  refine bind_of_ok (ensure_of _ (by rw [hidle]; rfl)) (bind_of_ok (passes_unit hfields) (bind_of_ok hregion ?_))
  refine bind_of_ok (ensure_of _ hall) (bind_of_ok (ensure_of _ (decide_eq_true hextent)) ?_)
  simp only [hwords]
  refine bind_of_ok (ensure_of _ hform) ?_
  simp only [hheader, htext, hareas]
  rfl

end Checks

/-- The RESTORE that an accepted blob begins (R357). -/
def restoreOf (p : Packet) (base : Nat) (h : List W64) (ports : List Nat) (save : ClipSave) : RestoreRun :=
  { mask := pw p 3, blobAt := base, count := (h.getD 2 0).toNat, resume := (pw p 4).toNat, tag := pkTag p, irq := pkIrq p,
    ports := ports.zipIdx.map fun e =>
      (e.1, base + 64 * fld (h.getD 12 0) 32 32 + 64 * fld (h.getD 12 0) 16 16 * e.2, fld (h.getD 12 0) 16 16),
    applied := false, save := { save with tx := h.getD 6 0, rx := h.getD 7 0, localCut := (h.getD 3 0).toNat } }

theorem ports_restoreOf (p : Packet) (base : Nat) (h : List W64) (ports : List Nat) (save : ClipSave) :
    (restoreOf p base h ports save).ports.map Prod.fst = ports := by
  rw [restoreOf, List.map_map]
  exact List.zipIdx_map_fst 0 ports

/-- A core in which a RESTORE has begun. -/
def Core.restoreBegun (c : Core) (q : RestoreRun) : Core :=
  { c.clipBegin.setPhase 8 with clip := { (c.clipBegin.setPhase 8).clip with restore := some q } }

/-- What a RESTORE that has begun leaves, and what it has not begun to change. -/
theorem restoreBegun_leaves (c : Core) (q : RestoreRun) (w : Pwr) :
    let d : Core := { c.restoreBegun q with pwr := w }
    d.clip.restore = some q ∧ fld d.clip.status 12 4 = 8 ∧ d.ctxs = c.ctxs ∧ d.graph = c.graph ∧ d.mem = c.mem ∧ d.queues = c.queues :=
  ⟨rfl, fld_setFld_self _ _ (by decide), rfl, rfl, rfl, rfl⟩

/-- A blob whose ports are present, whose skeins, channels and tables are there, and for whose objects there is room is accepted. -/
theorem restoreTake_accepted {c : Core} {p : Packet} {ports : List Nat} {save : ClipSave} (base : Nat) (h : List W64)
    (hports : ∀ e, e ∈ ports → c.present e = true) (hfits : save.ctxs.all c.saveFits = true)
    (hobjs : ∀ x, x ∈ save.ctxs → passes (c.objsFit x) = true) (hroom : c.objsRoom save = true) :
    c.restoreTake p base h ports save
      = .ok (.accept (ports.foldl (fun d e => d.requestEnable e) (c.restoreBegun (restoreOf p base h ports save)))) := by
  have hnone : (ports.find? fun e => !c.present e) = none :=
    List.find?_eq_none.mpr fun e he => by rw [hports e he]; decide
  simp only [Core.restoreTake, hnone]
  exact bind_of_ok (ensure_of _ hfits) (bind_of_ok (forIn_of_passes hobjs) (bind_of_ok (ensure_of _ hroom) rfl))

/-! The end (R352, R357, R358) -/

/-- SZ_CLIP_STATUS once a clip or a RESTORE has ended, which came late or not (R357, Table 14-8). -/
def lateStatus (w : W64) (reason : Nat) (late : Bool) : W64 :=
  if late then setBit (endedStatus w reason) 3 true else endedStatus w reason

theorem lateStatus_late (w : W64) (reason : Nat) : bitAt (lateStatus w reason true) 3 = true := bitAt_setBit_self _ _ (by omega)

theorem lateStatus_saved (w : W64) (late : Bool) : bitAt (lateStatus w 0 late) 1 = true := by
  cases late with
  | true => exact (bitAt_setBit_other _ _ (by omega)).trans (endedStatus_saved w)
  | false => exact endedStatus_saved w

theorem lateStatus_phase (w : W64) (reason : Nat) (late : Bool) : fld (lateStatus w reason late) 12 4 = 0 := by
  cases late with
  | true => exact (fld_setBit_apart _ _ (by omega)).trans (endedStatus_phase w reason)
  | false => exact endedStatus_phase w reason

/-- What the end of a clip or a RESTORE changes: its status, and the log with the sets. -/
theorem clipEnd_ends (c : Core) (reason count value : Nat) (late : Bool) : ∃ e w l, c.clipEnd reason count value late
    = { c with clip := { c.clip with status := lateStatus c.clip.status reason late }, evt := e, watch := w, sets := l } := by
  cases late with
  | false => exact clipEnd_changes c reason count value
  | true =>
    obtain ⟨e, w, l, h⟩ := log_changes ((({ c with clip := { c.clip with status := lateStatus c.clip.status reason true } } : Core).mark
      0x240040 (if reason = 0 then 1 else 2)).mark 0x240040 3) 0x0A reason 0 0 (if reason = 0 then 0 else 0x40) (Core.clipSeq { c with
        clip := { c.clip with status := lateStatus c.clip.status reason true } }) (w64 count) (w64 value)
    exact ⟨e, w, l, h⟩

/-- The final reply of a clip or a RESTORE and its end. -/
theorem replied_clipEnd (c : Core) (tag : Nat) (v : Verdict) (irq : Bool) (reason count value : Nat) (late : Bool) :
    let d := (c.finalReply 0 tag v irq false).clipEnd reason count value late
    d.clip = { c.clip with status := lateStatus c.clip.status reason late } ∧ d.mem = c.mem ∧ d.graph = c.graph
    ∧ (c.fe.stopped = false → (d.queue 0).compl = ((c.queue 0).compl + 1) % 2 ^ 64) := by
  obtain ⟨e, w, l, hend⟩ := clipEnd_ends (c.finalReply 0 tag v irq false) reason count value late
  have hcompl (hfe : c.fe.stopped = false) := compl_finalReply (c := c) (v := v) 0 tag irq false (not_mute_unless_stopped hfe)
  have hfrom := answeredFrom_finalReply c 0 tag v irq false
  dsimp only
  rw [hend]
  generalize c.finalReply 0 tag v irq false = d at hcompl hfrom
  refine ⟨?_, hfrom.mem, hfrom.graph, hcompl⟩
  obtain ⟨q, x, e, w, l, rfl⟩ := hfrom
  rfl

/-- A RESTORE that resumes its contexts is over. -/
theorem restoreResume_ends (c : Core) (q : RestoreRun) (late : Bool) :
    let d := c.restoreResume q late
    d.clip.restore = none ∧ d.clip.status = lateStatus c.clip.status 0 late ∧ d.mem = c.mem
    ∧ (c.fe.stopped = false → (d.queue 0).compl = ((c.queue 0).compl + 1) % 2 ^ 64) := by
  have hfrom : ReleasesFrom { c with clip := { c.clip with restore := none } } ((maskCtxs q.mask).foldl
      (fun d n => d.resumeCtx q.save.localCut (diff64 q.resume q.count) late n) { c with clip := { c.clip with restore := none } }) :=
    .foldl (fun d n => releasesFrom_resumeCtx _ _ _ d n) _ _
  rw [Core.restoreResume]
  dsimp only
  generalize (maskCtxs q.mask).foldl _ _ = d at hfrom ⊢
  obtain ⟨hclip, hmem, -, hcompl⟩ := replied_clipEnd d q.tag { status := .ok, detail := b2n late } q.irq 0 q.count q.resume late
  obtain ⟨g, x, k, l, rfl⟩ := hfrom
  exact ⟨congrArg ClipPart.restore hclip, congrArg ClipPart.status hclip, hmem, hcompl⟩

/-- A RESTORE that an access fails is over, with its code. -/
theorem restoreFail_fails (c : Core) (q : RestoreRun) {reason : Nat} (h : reason ≠ 0) (hlt : reason < 256) :
    let d := c.restoreFail q reason
    d.clip.restore = none ∧ bitAt d.clip.status 2 = true ∧ fld d.clip.status 24 8 = reason ∧ d.mem = c.mem ∧ d.graph = c.graph := by
  obtain ⟨hclip, hmem, hgraph, -⟩ := replied_clipEnd { c with clip := { c.clip with restore := none } } q.tag (vFaulted 2 reason) q.irq
    reason q.count q.resume false
  obtain ⟨hflag, hreason⟩ := endedStatus_failed c.clip.status h hlt
  have hstatus : (c.restoreFail q reason).clip.status = endedStatus c.clip.status reason := congrArg ClipPart.status hclip
  exact ⟨congrArg ClipPart.restore hclip, (congrArg (fun w => bitAt w 2) hstatus).trans hflag,
    (congrArg (fun w => fld w 24 8) hstatus).trans hreason, hmem, hgraph⟩

/-- A RESTORE that ends before it is accepted shows its reason. -/
theorem restoreStop_done (c : Core) (p : Packet) (count : Option W64) {k : Nat} (hk : k ≠ heldCode) (h : k ≠ 0) (hlt : k < 256) :
    ∃ d, c.restoreStop p count k = .ok (.done (vFaulted 2 k) d) ∧ bitAt d.clip.status 2 = true ∧ fld d.clip.status 24 8 = k
      ∧ d.clip.restore = c.clip.restore ∧ d.graph = c.graph ∧ d.mem = c.mem ∧ d.ctxs = c.ctxs := by
  obtain ⟨hflag, hreason⟩ := endedStatus_failed c.clip.status h hlt
  cases count with
  | some w =>
    obtain ⟨e, m, l, hend⟩ := clipEnd_ends c k w.toNat (pw p 4).toNat false
    exact ⟨_, if_neg hk, by rw [hend]; exact ⟨hflag, hreason, rfl, rfl, rfl, rfl⟩⟩
  | none =>
    obtain ⟨e, m, l, hend⟩ := clipEnd_ends c.drawWord.2 k c.drawWord.1.toNat (pw p 4).toNat false
    exact ⟨_, if_neg hk, by rw [hend]; exact ⟨hflag, hreason, rfl, rfl, rfl, rfl⟩⟩

/-! The saved state applied (R357) -/

/-- A core whose contexts and Ply pages are another's. -/
def PagesFrom (c d : Core) : Prop := d.ctxs = c.ctxs ∧ d.ply = c.ply

theorem PagesFrom.refl (c : Core) : PagesFrom c c := ⟨rfl, rfl⟩

theorem PagesFrom.trans {c d e : Core} (h : PagesFrom c d) (k : PagesFrom d e) : PagesFrom c e := ⟨k.1.trans h.1, k.2.trans h.2⟩

theorem PagesFrom.foldl {α : Type} {step : Core → α → Core} (hstep : ∀ d x, PagesFrom d (step d x)) (l : List α) (c : Core) :
    PagesFrom c (l.foldl step c) :=
  List.foldlRecOn l step (.refl c) fun d h x _ => h.trans (hstep d x)

theorem pagesFrom_writeBytes (c : Core) (a : Nat) (bs : List Byte) : PagesFrom c (c.writeBytes a bs) := ⟨rfl, rfl⟩

theorem pagesFrom_restoreChan (c : Core) (k : Nat × Nat × Option ChanTx × Option ChanRx) : PagesFrom c (c.restoreChan k) := ⟨rfl, rfl⟩

theorem pagesFrom_setTable (c : Core) (t : Nat) (x : Moe) : PagesFrom c (c.setTable t x) := ⟨rfl, rfl⟩

theorem pagesFrom_restoreObjs (c : Core) (x : CtxSave) : PagesFrom c (c.restoreObjs x) := by
  rw [Core.restoreObjs]
  refine PagesFrom.trans ?_ (.foldl (fun d _ => pagesFrom_writeBytes d _ _) _ _)
  exact ⟨rfl, rfl⟩

theorem pagesFrom_restoreWait (c : Core) (x : CtxSave) : PagesFrom c (c.restoreWait x) := by
  unfold Core.restoreWait
  split <;> exact ⟨rfl, rfl⟩

theorem pagesFrom_restoreReloc (c : Core) (r : Run) : PagesFrom c (c.restoreReloc r) := by
  unfold Core.restoreReloc
  split
  · exact .refl c
  · refine .foldl (fun d i => ?_) _ _
    dsimp only
    split
    · exact .refl d
    · exact ⟨rfl, rfl⟩

theorem pagesFrom_restoreRun (c : Core) (r : Run) : PagesFrom c (c.restoreRun r) :=
  PagesFrom.trans ⟨rfl, rfl⟩ (pagesFrom_restoreReloc _ _)

/-- The registers of a context that a saved one puts back (R230, R354). -/
def Ctx.restored (y : Ctx) (s : Ctx) : Ctx := { y with st := s.st, ndc := s.ndc, det := s.det, cuts := s.cuts, stop := s.stop }

/-- A saved context applied changes of the contexts and the pages its own registers and its own page. -/
theorem pagesFrom_restoreCtx (c : Core) (x : CtxSave) :
    PagesFrom ((c.setCtx x.num ((c.ctx x.num).restored x.regs)).setPlyPage x.num x.ply) (c.restoreCtx x) := by
  have hwait := (pagesFrom_restoreObjs (c.setCtx x.num ((c.ctx x.num).restored x.regs)) x).trans (pagesFrom_restoreWait _ x)
  have htables := (hwait.trans (.foldl pagesFrom_restoreChan x.chans _)).trans
    (.foldl (step := fun (d : Core) (t : Nat × Moe) => d.setTable t.1 { t.2 with tab := (d.table t.1).tab })
      (fun d t => pagesFrom_setTable d t.1 _) x.tables _)
  unfold Core.restoreCtx
  dsimp only
  refine PagesFrom.trans ?_ (.trans (.foldl pagesFrom_restoreRun x.runs _) ⟨rfl, rfl⟩)
  exact ⟨htables.1, congrArg (fun l => aset l x.num x.ply) htables.2⟩

theorem PagesFrom.ctx {c d : Core} (h : PagesFrom c d) (n : Nat) : d.ctx n = c.ctx n := congrArg (fun l => agetD l n Ctx.reset) h.1

theorem PagesFrom.plyPage {c d : Core} (h : PagesFrom c d) (n : Nat) : d.plyPage n = c.plyPage n :=
  congrArg (fun l => agetD l n PlyPage.reset) h.2

theorem restoreCtx_self (c : Core) (x : CtxSave) :
    (c.restoreCtx x).ctx x.num = (c.ctx x.num).restored x.regs ∧ (c.restoreCtx x).plyPage x.num = x.ply :=
  ⟨((pagesFrom_restoreCtx c x).ctx _).trans (Core.ctx_setCtx ..), ((pagesFrom_restoreCtx c x).plyPage _).trans (Core.plyPage_setPlyPage ..)⟩

theorem restoreCtx_other (c : Core) (x : CtxSave) {n : Nat} (h : n ≠ x.num) :
    (c.restoreCtx x).ctx n = c.ctx n ∧ (c.restoreCtx x).plyPage n = c.plyPage n :=
  ⟨((pagesFrom_restoreCtx c x).ctx n).trans (Core.ctx_setCtx_other _ _ _ _ h),
    ((pagesFrom_restoreCtx c x).plyPage n).trans (Core.plyPage_setPlyPage_other _ _ _ _ h)⟩

/-- Saved contexts leave the others as they were. -/
theorem restoreCtxs_other (l : List CtxSave) (c : Core) {n : Nat} (h : n ∉ l.map (·.num)) :
    (l.foldl Core.restoreCtx c).ctx n = c.ctx n ∧ (l.foldl Core.restoreCtx c).plyPage n = c.plyPage n := by
  refine List.foldlRecOn (motive := fun d : Core => d.ctx n = c.ctx n ∧ d.plyPage n = c.plyPage n) l _ ⟨rfl, rfl⟩ fun d hd x hx => ?_
  obtain ⟨hctx, hpage⟩ := restoreCtx_other d x (ne_of_mem_of_not_mem (List.mem_map_of_mem hx) h).symm
  exact ⟨hctx.trans hd.1, hpage.trans hd.2⟩

/-- Each of some saved contexts with numbers of their own has its registers and its page. -/
theorem restoreCtxs_self (l : List CtxSave) (c : Core) (hl : (l.map (·.num)).Nodup) {x : CtxSave} (hx : x ∈ l) :
    (∃ y : Ctx, (l.foldl Core.restoreCtx c).ctx x.num = y.restored x.regs) ∧ (l.foldl Core.restoreCtx c).plyPage x.num = x.ply := by
  induction l generalizing c with
  | nil => exact absurd hx List.not_mem_nil
  | cons a l ih =>
    obtain ⟨ha, hl⟩ := List.nodup_cons.mp hl
    rw [List.foldl_cons]
    rcases List.mem_cons.mp hx with rfl | hx
    · obtain ⟨hctx, hpage⟩ := restoreCtxs_other l (c.restoreCtx x) ha
      obtain ⟨kctx, kpage⟩ := restoreCtx_self c x
      exact ⟨⟨_, hctx.trans kctx⟩, hpage.trans kpage⟩
    · exact ih (c.restoreCtx a) hl hx

/-- The saved state is applied: each saved context has its registers and its page, and the others are as they were. -/
theorem restoreState_applies (c : Core) (q : RestoreRun) (hl : (q.save.ctxs.map (·.num)).Nodup) :
    (∀ x, x ∈ q.save.ctxs → ((c.restoreState q).ctx x.num).st = x.regs.st ∧ ((c.restoreState q).ctx x.num).ndc = x.regs.ndc
      ∧ ((c.restoreState q).ctx x.num).det = x.regs.det ∧ ((c.restoreState q).ctx x.num).cuts = x.regs.cuts
      ∧ (c.restoreState q).plyPage x.num = x.ply)
    ∧ (∀ n, n ∉ q.save.ctxs.map (·.num) → (c.restoreState q).ctx n = c.ctx n ∧ (c.restoreState q).plyPage n = c.plyPage n) := by
  refine ⟨fun x hx => ?_, fun n hn => restoreCtxs_other q.save.ctxs c hn⟩
  obtain ⟨⟨y, hctx⟩, hpage⟩ := restoreCtxs_self q.save.ctxs c hl hx
  have hctx' : (c.restoreState q).ctx x.num = y.restored x.regs := hctx
  rw [hctx']
  exact ⟨rfl, rfl, rfl, rfl, hpage⟩

section Apply
variable {s : State} {q : RestoreRun} (hr : s.running = true) (hq : s.core.clip.restore = some q)
include hr hq

theorem exec_restoreApply (hports : q.ports = []) (happlied : q.applied = false) :
    exec .restoreApply s = .next (s.withCore (s.core.restoreApply q)) := by
  change execRestoreApply s = _
  rw [execRestoreApply, onRun_running hr]
  simp only [hq, hports, happlied, Bool.not_false, and_self, if_true]

theorem exec_resumeCount (happlied : q.applied = true) (hdue : q.resume ≤ s.core.gc.count) :
    exec .resumeCount s = .next (s.withCore (s.core.restoreResume q false)) := by
  change execResumeCount s = _
  rw [execResumeCount, onRun_running hr]
  simp only [hq, if_pos (And.intro happlied hdue)]

end Apply

section Applied
variable {c : Core} {q : RestoreRun}

theorem restoreApply_ahead (hnone : c.restoreFaults q = []) (hdue : c.gc.count ≤ q.resume) : c.restoreApply q = c.restoreState q := by
  have hearly : ¬q.resume < c.gc.count := Nat.not_lt.mpr hdue
  simp only [Core.restoreApply, hnone, List.contains_nil, Bool.false_eq_true, if_false, hearly]

theorem restoreApply_late (hnone : c.restoreFaults q = []) (hlate : q.resume < c.gc.count) :
    c.restoreApply q = (c.restoreState q).restoreResume q true := by
  simp only [Core.restoreApply, hnone, List.contains_nil, Bool.false_eq_true, if_false, hlate, if_true]

theorem restoreApply_faulted {k : Nat} {l : List Nat} (hfault : c.restoreFaults q = k :: l)
    (hheld : (c.restoreFaults q).contains heldCode = false) : c.restoreApply q = c.restoreFail q k := by
  rw [hfault] at hheld
  simp only [Core.restoreApply, hfault, hheld, Bool.false_eq_true, if_false]

end Applied

/-! The command -/

section Command
variable {s : State} {p : Packet} {g : Region} {h : List W64} {hb text areas : List Byte} (ht : s.takes 0x72 0 p = true)
  (hread : BlobRead (s.core.taken 0) p g h hb text areas)
include ht hread

/-- RESTORE of a blob that authenticates and passes the checks is accepted, with the loads of its ports. -/
theorem exec_restore_accepted {save : ClipSave} (hup : s.sys.hedgeDown = false) (htag : readTag s.sys hb text areas = (hb.drop 80).take 16)
    (hsave : Config.decodeSections (gcmText s.sys.keys.devKey ((hb.drop 64).take 12) text) = some save)
    (hports : ∀ e, e ∈ maskPorts ((h.drop 16).flatMap wordBytes) → (s.core.taken 0).present e = true)
    (hfits : save.ctxs.all (s.core.taken 0).saveFits = true) (hobjs : ∀ x, x ∈ save.ctxs → passes ((s.core.taken 0).objsFit x) = true)
    (hroom : (s.core.taken 0).objsRoom save = true) :
    ∃ w, exec .restore s = .next (s.acceptedWith 0 p
      { (s.core.taken 0).restoreBegun (restoreOf p g.base h (maskPorts ((h.drop 16).flatMap wordBytes)) save) with pwr := w }) := by
  obtain ⟨w, hw⟩ := foldl_requestEnable_changes ((s.core.taken 0).restoreBegun
    (restoreOf p g.base h (maskPorts ((h.drop 16).flatMap wordBytes)) save)) (maskPorts ((h.drop 16).flatMap wordBytes))
  refine ⟨w, onCommand_accept (run := fun sys c _ p => c.restoreCmd sys p) ht ?_⟩
  dsimp only
  rw [restoreCmd_read hread, Core.restoreRead, hup, if_neg Bool.false_ne_true, if_pos htag]
  simp only [hsave]
  rw [restoreTake_accepted g.base h hports hfits hobjs hroom, hw]

theorem exec_restore_unauthentic (hup : s.sys.hedgeDown = false) (htag : readTag s.sys hb text areas ≠ (hb.drop 80).take 16) :
    exec .restore s = .next (s.replied 0 p { status := .authFail, detail := 1 }
      (((s.core.taken 0).setHedge 1).logHedge 6 Status.authFail.code 0 0)) := by
  refine onCommand_done (run := fun sys c _ p => c.restoreCmd sys p) ht ?_
  rw [restoreCmd_read hread, Core.restoreRead, hup, if_neg Bool.false_ne_true, if_neg htag]

theorem exec_restore_down (hdown : s.sys.hedgeDown = true) :
    ∃ d, exec .restore s = .next (s.replied 0 p (vFaulted 2 9) d) ∧ bitAt d.clip.status 2 = true ∧ fld d.clip.status 24 8 = 9
      ∧ d.clip.restore = none ∧ d.graph = (s.core.taken 0).graph ∧ d.mem = (s.core.taken 0).mem ∧ d.ctxs = (s.core.taken 0).ctxs := by
  obtain ⟨d, hd, hflag, hreason, hrestore, hrest⟩ := restoreStop_done (s.core.taken 0) p (h[2]?) (k := 9) (by decide) (by decide) (by decide)
  have hidle : (s.core.taken 0).clip.restore = none := by
    have := hread.idle
    rw [Core.clipPending, Bool.or_eq_false_iff] at this
    exact Option.isSome_eq_false_iff.mp this.2 |> Option.isNone_iff_eq_none.mp
  refine ⟨d, onCommand_done (run := fun sys c _ p => c.restoreCmd sys p) ht ?_, hflag, hreason, hrestore.trans hidle, hrest⟩
  rw [restoreCmd_read hread, Core.restoreRead, hdown, if_pos rfl, hd]

end Command

/-! The obligation -/

/-- Settles O59: the command by what it reads and what Hedge decides, the application by what its accesses are answered with. -/
theorem restoreAppliesBlob : Obligations.RestoreAppliesBlob := by
  unfold Obligations.RestoreAppliesBlob
  refine ⟨fun s p g h hb text areas ht => ?_, fun s q hr hq => ⟨fun hports happlied hnone hdue hl => ?_,
    fun hports happlied hnone hlate => ?_, fun k l hports happlied hfault hheld hk => ?_, fun happlied hdue => ?_⟩⟩
  · intro c off ports iv tagged hidle hfields hregion hextent hmasked hwords hform hheader htext hareas
    have hread : BlobRead (s.core.taken 0) p g h hb text areas :=
      ⟨hidle, hfields, hregion, hextent, hmasked, hwords, hform, hheader, htext, hareas⟩
    refine ⟨fun save hup htag hsave hports hfits hobjs hroom => ?_, fun hup htag => ?_, exec_restore_down ht hread⟩
    · obtain ⟨w, hexec⟩ := exec_restore_accepted ht hread hup htag hsave hports hfits hobjs hroom
      obtain ⟨hq, hphase, hrest⟩ := restoreBegun_leaves (s.core.taken 0) (restoreOf p g.base h ports save) w
      exact ⟨_, restoreOf p g.base h ports save, hexec, hq, rfl, rfl, rfl, ports_restoreOf .., rfl, hphase, hrest⟩
    · obtain ⟨e, w, l, hlog⟩ := setHedge_logHedge_changes (s.core.taken 0) 1 6 Status.authFail.code 0 0
      refine ⟨_, exec_restore_unauthentic ht hread hup htag, ?_⟩
      rw [hlog]
      exact ⟨bitAt_hedgeFlag _ (by decide), rfl, rfl, rfl, rfl⟩
  · refine ⟨_, exec_restoreApply hr hq hports happlied, ?_⟩
    rw [restoreApply_ahead hnone hdue]
    exact ⟨rfl, rfl, rfl, rfl, restoreState_applies s.core q hl⟩
  · refine ⟨_, exec_restoreApply hr hq hports happlied, ?_⟩
    rw [restoreApply_late hnone hlate]
    obtain ⟨hover, hstatus, -⟩ := restoreResume_ends (s.core.restoreState q) q true
    exact ⟨hover, (congrArg (fun w => bitAt w 1) hstatus).trans (lateStatus_saved ..),
      (congrArg (fun w => bitAt w 3) hstatus).trans (lateStatus_late ..)⟩
  · refine ⟨_, exec_restoreApply hr hq hports happlied, ?_⟩
    rw [restoreApply_faulted hfault hheld]
    exact restoreFail_fails s.core q (by omega) (by omega)
  · obtain ⟨hover, hstatus, hmem, hcompl⟩ := restoreResume_ends s.core q false
    exact ⟨_, exec_resumeCount hr hq happlied hdue, hover, (congrArg (fun w => bitAt w 1) hstatus).trans (lateStatus_saved ..),
      (congrArg (fun w => fld w 12 4) hstatus).trans (lateStatus_phase ..), hmem, hcompl⟩

end Sys2Proof.Machine
end
section
/-! PROOFS. What the end of a DCLK, the end of an ECLK and the beginning of a DCLK leave alone: the count and the time. -/

namespace Sys2Proof.Machine

/-- A core with the count and the time of another. -/
def Timed (c d : Core) : Prop := (d.gc, d.now) = (c.gc, c.now)

theorem Timed.refl (c : Core) : Timed c c := rfl

theorem Timed.trans {c d e : Core} (h : Timed c d) (k : Timed d e) : Timed c e := Eq.trans k h

theorem Timed.foldl {α : Type} {step : Core → α → Core} (hstep : ∀ d x, Timed d (step d x)) (l : List α) (c : Core) :
    Timed c (l.foldl step c) :=
  List.foldlRecOn l step (.refl c) fun d h x _ => h.trans (hstep d x)

theorem Timed.ite {p : Prop} [Decidable p] {c d e : Core} (hd : p → Timed c d) (he : ¬p → Timed c e) : Timed c (if p then d else e) := by
  split
  next hp => exact hd hp
  next hp => exact he hp

/-- A step that may be taken after a core is reached. -/
theorem Timed.andIf {p : Prop} [Decidable p] {c d e : Core} (h : Timed c d) (k : Timed d e) : Timed c (if p then e else d) :=
  .ite (fun _ => h.trans k) fun _ => h

theorem Timed.gc {c d : Core} (h : Timed c d) : d.gc = c.gc := congrArg Prod.fst h

theorem Timed.now {c d : Core} (h : Timed c d) : d.now = c.now := congrArg Prod.snd h

theorem Steady.timed {c d : Core} (h : Steady c d) : Timed c d := Prod.ext h.gc h.now

theorem AnsweredFrom.timed {c d : Core} (h : AnsweredFrom c d) : Timed c d := h.steady.timed

theorem SendsFrom.timed {c d : Core} (h : SendsFrom c d) : Timed c d := by
  obtain ⟨p, x, f, e, w, l, rfl⟩ := h.only
  rfl

theorem WritesFrom.timed {c d : Core} (h : WritesFrom c d) : Timed c d := by
  obtain ⟨r, f, rfl⟩ := h
  rfl

/-! The setters -/

theorem timed_setCtx (c : Core) (n : Nat) (x : Ctx) : Timed c (c.setCtx n x) := rfl
theorem timed_setChan (c : Core) (n : Nat) (x : Chan) : Timed c (c.setChan n x) := rfl
theorem timed_setTable (c : Core) (t : Nat) (x : Moe) : Timed c (c.setTable t x) := rfl
theorem timed_setPort (c : Core) (e : Nat) (x : EngPort) : Timed c (c.setPort e x) := rfl
theorem timed_setLink (c : Core) (p : Nat) (x : Link) : Timed c (c.setLink p x) := rfl
theorem timed_setRun (c : Core) (r : Run) : Timed c (c.setRun r) := rfl
theorem timed_setObj (c : Core) (o : SyncObj) : Timed c (c.setObj o) := rfl
theorem timed_setClip (c : Core) (q : ClipRun) : Timed c (c.setClip q) := rfl
theorem timed_addComp (c : Core) (k : Comp) : Timed c (c.addComp k) := rfl
theorem timed_drawWord (c : Core) : Timed c c.drawWord.2 := rfl
theorem timed_ndInc (c : Core) (n k : Nat) : Timed c (c.ndInc n k) := rfl
theorem timed_setWin (c : Core) (status data : W64) : Timed c (c.setWin status data) := rfl
theorem timed_syncUpdate (c : Core) (o : SyncObj) (rank : Nat) (op : SyncOp) (v : W64) : Timed c (c.syncUpdate o rank op v) := rfl

theorem timed_modTask (c : Core) (ref : TaskRef) (f : Task → Task) : Timed c (c.modTask ref f) := (steady_modTask ..).timed
theorem timed_release (c : Core) (n : Nat) (v : Verdict) : Timed c (c.release n v) := (steady_release ..).timed
theorem timed_settle (c : Core) (ctx tag : Nat) : Timed c (c.settle ctx tag) := (steady_settle ..).timed

theorem timed_log (c : Core) (cls reason unit ctx status detail : Nat) (subject value : W64) :
    Timed c (c.log cls reason unit ctx status detail subject value) := (answeredFrom_log ..).timed

/-! The Reel port and the channels -/

theorem timed_reelIssue (c : Core) (write : Bool) (tier addr : Nat) (data : List Byte) (s : Serves) :
    Timed c (c.reelIssue write tier addr data s) := by
  obtain ⟨x, h⟩ := reelIssue_changes c write tier addr data s
  rw [h]
  rfl

theorem timed_reelWrite (c : Core) (addr : Nat) (bs : List Byte) (s : Serves) : Timed c (c.reelWrite addr bs s) :=
  (writesFrom_reelWrite ..).timed

theorem timed_padHeader (c : Core) (pad epoch : Nat) (r : ChanRx) : Timed c (c.padHeader pad epoch r).2 := rfl

theorem timed_setHead (c : Core) (n : Nat) (r : ChanRx) (x : RxRec) (rest : List RxRec) : Timed c (c.setHead n r x rest) := rfl

theorem timed_rxHeader (c : Core) (n : Nat) : Timed c (c.rxHeader n) := by
  unfold Core.rxHeader
  dsimp only
  split
  · exact .refl c
  · split
    · exact .refl c
    · exact .ite (fun _ => (timed_setHead ..).trans (timed_reelWrite ..)) fun _ => .refl c

theorem timed_rxStart (c : Core) (n : Nat) : Timed c (c.rxStart n) := by
  unfold Core.rxStart
  dsimp only
  split
  · exact .refl c
  · split
    · exact .refl c
    · refine .ite (fun _ => .trans ?_ (timed_rxHeader ..)) fun _ => .refl c
      have hpad (d : Core) (p : Prop) [Decidable p] (a : Nat) (b epoch : Nat) (r : ChanRx) (s : Serves) :
          Timed d (if p then d else (d.padHeader b epoch r).2.reelWrite a (wordsBytes (d.padHeader b epoch r).1) s) :=
        .ite (fun _ => .refl d) fun _ => (timed_padHeader ..).trans (timed_reelWrite ..)
      exact ((timed_setHead ..).trans (hpad ..)).trans (.ite (fun _ => .refl _) fun _ => timed_reelWrite ..)

theorem timed_rxNext (c : Core) (n : Nat) : Timed c (c.rxNext n) := (timed_setChan ..).trans (timed_rxStart ..)

theorem timed_chanNotice (c : Core) (n : Nat) (r : ChanRx) (b : ChanBody) : Timed c (c.chanNotice n r b) :=
  (sentFrom_chanNotice ..).steady.timed

theorem timed_deliver (c : Core) (n : Nat) : Timed c (c.deliver n) := by
  unfold Core.deliver
  dsimp only
  split
  · exact .refl c
  · split
    · exact .refl c
    · refine .ite (fun _ => ?_) fun _ => .refl c
      exact .andIf ((timed_setChan ..).trans (timed_chanNotice ..)) (timed_rxNext ..)

theorem timed_stallCount (c : Core) (n : Nat) : Timed c (c.stallCount n) := by
  unfold Core.stallCount
  dsimp only
  split
  · exact .refl c
  · split
    · exact .refl c
    · exact .ite (fun _ => .andIf (timed_setChan ..) (steady_setChanEvt ..).timed) fun _ => .refl c

/-! Tables and collectives -/

theorem timed_stepEnter (c : Core) : Timed c c.stepEnter := by
  unfold Core.stepEnter
  refine .ite (fun _ => .refl c) fun _ => ?_
  dsimp only
  split
  · exact .refl c
  · split
    · exact .andIf (timed_setTable ..) (timed_ndInc ..)
    · exact timed_setTable ..

theorem timed_decideWrite (c : Core) (tn : Nat) : Timed c (c.decideWrite tn) := by
  unfold Core.decideWrite
  dsimp only
  split
  · split
    · exact .refl c
    · refine .ite (fun _ => ?_) fun _ => .refl c
      have hboth (a b : Nat) (x y : List Byte) (s : Serves) : Timed c ((c.reelWrite a x s).reelWrite b y s) :=
        (timed_reelWrite ..).trans (timed_reelWrite ..)
      split
      · exact (hboth ..).trans (timed_reelWrite ..)
      · exact hboth ..
  · exact .refl c

theorem timed_collCounts (c : Core) : Timed c c.collCounts := by
  obtain ⟨p, e, w, l, h⟩ := flagsFrom_collCounts c
  rw [h]
  rfl

theorem timed_moeUnbound (c : Core) (t ctx : Nat) (value : W64) : Timed c (c.moeUnbound t ctx value) := by
  unfold Core.moeUnbound
  dsimp only
  split
  · refine .ite (fun _ => ?_) fun _ => (timed_ndInc ..).trans (timed_log ..)
    exact (timed_ndInc ..).trans ((timed_setTable ..).trans (steady_setMoeEvt ..).timed)
  · exact (timed_ndInc ..).trans (timed_log ..)

theorem timed_earlyFetch (c : Core) (r : Run) (t e full : Nat) : Timed c (c.earlyFetch r t e full).1 :=
  .trans (.ite (fun _ => timed_ndInc ..) fun _ => .refl c) (timed_setTable ..)

theorem timed_lateFetch (c : Core) (r : Run) (t e node full : Nat) : Timed c (c.lateFetch r t e node full).1 := by
  unfold Core.lateFetch
  dsimp only
  split
  · split
    · exact timed_setTable ..
    · exact .refl c
  · exact timed_moeUnbound ..

theorem timed_tilesFor (c : Core) (r : Run) (t : Task) (k : Skein) (h : Rec256) : Timed c (c.tilesFor r t k h).1 := by
  unfold Core.tilesFor
  split
  · exact .refl c
  · dsimp only
    split
    · exact timed_earlyFetch c r _ _ (tripProduct (withTop (k.trips t.node) t.tripTop))
    · exact timed_lateFetch ..
    · split
      · split
        · exact .refl c
        · exact timed_moeUnbound ..
      · exact .refl c

/-! Tasks that become ready, and those that fault -/

theorem timed_stopCtx (c : Core) (n : Nat) (st : CtxState) : Timed c (c.stopCtx n st) := rfl

theorem timed_stopReached (c : Core) (n : Nat) : Timed c (c.stopReached n) := by
  unfold Core.stopReached
  dsimp only
  split
  · exact .refl c
  · refine .ite (fun _ => ?_) fun _ => .refl c
    exact ((timed_stopCtx ..).trans (timed_setCtx ..)).trans (answeredFrom_finalReply ..).timed

theorem timed_requestEnables (c : Core) (l : List Nat) : Timed c (l.foldl (fun d e => d.requestEnable e) c) := by
  obtain ⟨w, h⟩ := foldl_requestEnable_changes c l
  rw [h]
  rfl

theorem timed_makeReady (c : Core) (ref : TaskRef) : Timed c (c.makeReady ref) := by
  unfold Core.makeReady
  dsimp only
  split
  · exact .refl c
  · refine Timed.trans (Timed.trans (timed_modTask c ref fun x => { x with st := .ready, readyAt := c.gc.count, delay := none }) ?_)
      (timed_requestEnables ..)
    split
    · split
      · exact .ite (fun _ => timed_stopReached ..) fun _ => .refl _
      · exact .refl _
    · exact .refl _

theorem timed_ripen (c : Core) (ref : TaskRef) : Timed c (c.ripen ref) := by
  unfold Core.ripen
  split
  · exact .refl c
  next r t _ =>
    split
    · exact .refl c
    next k _ =>
      dsimp only
      refine .ite (fun _ => (timed_modTask ..).trans (timed_addComp ..)) fun _ => ?_
      have htiles : Timed c (match t.tiles with
          | some n => (c, n, t.rank)
          | none => c.tilesFor r t k (c.headOf r t)).1 := by
        split
        · exact .refl c
        · exact timed_tilesFor ..
      refine .ite (fun _ => ?_) fun _ => (htiles.trans (timed_modTask ..)).trans (timed_makeReady ..)
      exact ((htiles.trans (timed_modTask ..)).trans (timed_modTask ..)).trans (timed_addComp ..)

theorem timed_promote (c : Core) (ref : TaskRef) : Timed c (c.promote ref) := by
  unfold Core.promote
  split
  · exact .refl c
  · refine .ite (fun _ => ?_) fun _ => .refl c
    split
    · exact timed_ripen ..
    · exact .ite (fun _ => timed_modTask ..) fun _ => timed_ripen ..

theorem timed_forgetHeld (c : Core) (p : PlyKey → Bool) : Timed c (c.forgetHeld p) := rfl

theorem timed_abandonStep (c : Core) (t : Nat) : Timed c (c.abandonStep t) := by
  unfold Core.abandonStep
  dsimp only
  exact .ite (fun _ => timed_setTable ..) fun _ => (timed_setTable ..).trans (timed_forgetHeld ..)

theorem timed_abandonSteps (c : Core) (r : Run) : Timed c (c.abandonSteps r) := by
  refine .foldl (fun d t => ?_) _ _
  dsimp only
  split
  · exact .ite (fun _ => timed_abandonStep ..) fun _ => .ite (fun _ => timed_setTable ..) fun _ => .refl d
  · exact .refl d

theorem timed_setCollRun (c : Core) (n k : Nat) (r : CollRun) : Timed c (c.setCollRun n k r) := (steady_setCollRun ..).timed

theorem timed_abandonColl (c : Core) (n k : Nat) : Timed c (c.abandonColl n k) := by
  unfold Core.abandonColl
  dsimp only
  exact .ite (fun _ => timed_setCollRun ..) fun _ => (timed_setCollRun ..).trans (timed_forgetHeld ..)

theorem timed_abandonColls (c : Core) (r : Run) : Timed c (c.abandonColls r) := by
  refine .foldl (fun d k => ?_) _ _
  dsimp only
  split
  · refine .ite (fun _ => .ite (fun _ => timed_abandonColl ..) fun _ => ?_) fun _ => .refl d
    exact .ite (fun _ => timed_setCollRun ..) fun _ => .refl d
  · exact .refl d

theorem timed_chanDrop (c : Core) (p : TaskRef → Bool) : Timed c (c.chanDrop p) := rfl

/-- A core without the completions of a stopping run but those that were taken in the DCLK. -/
def Core.compsStopped (c : Core) (ctx tag now : Nat) (r : Run) : Core :=
  { c with graph := { c.graph with comps := c.graph.comps.filter fun k => !(k.task.ctx == ctx && k.task.tag == tag)
      || (k.taken now && !(r.task k.task).any fun t => t.ripeAt == some now) } }

/-- What becomes of a task of a stopping run. -/
def Core.taskStopped (now : Nat) (r : Run) (c : Core) (t : Task) : Core :=
  if (t.st == .loaded || t.st == .waiting || t.st == .ready) && (c.compOf (r.ref t)).isNone && !c.taskOut (r.ref t) then
    c.taskEnd (r.ref t) (if t.fault.isSome then .faulted else .cancelled)
  else if t.st == .done && t.ripeAt == some now then c.modTask (r.ref t) fun x => { x with st := .cancelled }
  else c

theorem stopRun_parts {c : Core} {ctx tag : Nat} {r : Run} (h : c.findRun ctx tag = some r) : c.stopRun ctx tag
    = (r.tasks.foldl (Core.taskStopped c.dclk r) ((((((c.setRun { r with stopping := true }).withdrawStarts
        fun t => t.ctx == ctx && t.tag == tag).abandonSteps r).abandonColls r).chanDrop
        fun t => t.ctx == ctx && t.tag == tag).compsStopped ctx tag c.dclk r)).settle ctx tag := by
  rw [Core.stopRun, h]
  unfold Core.compsStopped Core.taskStopped
  rfl

theorem timed_compsStopped (c : Core) (ctx tag now : Nat) (r : Run) : Timed c (c.compsStopped ctx tag now r) := rfl

theorem timed_taskStopped (now : Nat) (r : Run) (c : Core) (t : Task) : Timed c (c.taskStopped now r t) :=
  .ite (fun _ => (steady_taskEnd ..).timed) fun _ => .ite (fun _ => timed_modTask ..) fun _ => .refl c

theorem timed_stopRun (c : Core) (ctx tag : Nat) : Timed c (c.stopRun ctx tag) := by
  cases h : c.findRun ctx tag with
  | none => rw [Core.stopRun, h]; exact .refl c
  | some r =>
    rw [stopRun_parts h]
    refine Timed.trans (Timed.trans ?_ (.foldl (timed_taskStopped _ r) _ _)) (timed_settle ..)
    refine Timed.trans (Timed.trans ?_ (timed_chanDrop ..)) (timed_compsStopped ..)
    refine Timed.trans (Timed.trans ?_ (timed_abandonSteps ..)) (timed_abandonColls ..)
    exact (timed_setRun ..).trans (steady_withdrawStarts ..).timed

theorem timed_dropComp (c : Core) (ref : TaskRef) : Timed c (c.dropComp ref) := rfl

theorem timed_logTask (c : Core) (r : Run) (t : Task) (status reason port tile : Nat) :
    Timed c (c.logTask r t status reason port tile) := (steady_logRaw ..).timed

theorem timed_setFault (c : Core) (bit : Nat) : Timed c (c.setFault bit) := rfl

/-- A step on a task that may be absent. -/
theorem timed_onTask {c : Core} {o : Option (Run × Task)} {f : Run → Task → Core} (h : ∀ r t, Timed c (f r t)) :
    Timed c (match o with
      | none => c
      | some (r, t) => f r t) :=
  match o with
  | none => .refl c
  | some (r, t) => h r t

theorem timed_taskFaults (c : Core) (ref : TaskRef) (st : Status) (reason port tile : Nat) :
    Timed c (c.taskFaults ref st reason port tile) := by
  refine timed_onTask fun r t => ?_
  have hlogged : Timed c ((c.logTask r t st.code reason port tile).setFault 0) := (timed_logTask ..).trans (timed_setFault ..)
  generalize (c.logTask r t st.code reason port tile).setFault 0 = d at hlogged ⊢
  have hnoted := hlogged.trans (timed_modTask d ref fun x => { x with fault := some (st, reason) })
  dsimp only
  split
  · exact hnoted.trans (timed_setRun ..)
  · exact hnoted

theorem timed_faultTask (c : Core) (ref : TaskRef) (st : Status) (reason port tile : Nat) :
    Timed c (c.faultTask ref st reason port tile) := by
  unfold Core.faultTask
  split
  · exact .refl c
  · refine .ite (fun _ => .refl c) fun _ => ?_
    exact ((timed_taskFaults ..).trans (timed_dropComp ..)).trans (timed_stopRun ..)

theorem timed_faultPlain (c : Core) (ref : TaskRef) (st : Status) (reason : Nat) : Timed c (c.faultPlain ref st reason) :=
  (timed_drawWord c).trans (timed_faultTask ..)

/-! Replay, and the grant of a start -/

theorem timed_replayGo (n : Nat) (c : Core) (ctx tag : Nat) : Timed c (Core.replayGo n c ctx tag) := by
  induction n generalizing c with
  | zero => exact .refl c
  | succ n ih =>
    rw [Core.replayGo]
    split
    · exact .refl c
    next r _ =>
      refine .ite (fun _ => .refl c) fun _ => ?_
      split
      · exact .refl c
      next w _ =>
        refine .ite (fun _ => .ite (fun _ => (timed_setRun ..).trans (ih _)) fun _ => .refl c) fun _ => ?_
        refine .ite (fun _ => .refl c) fun _ => ?_
        dsimp only
        split
        · exact ((timed_setRun ..).trans (timed_drawWord _)).trans (timed_faultPlain ..)
        · exact ((timed_setRun ..).trans (timed_makeReady ..)).trans (ih _)

theorem timed_replayRun (c : Core) (ctx tag : Nat) : Timed c (c.replayRun ctx tag) := by
  unfold Core.replayRun
  split
  · exact .refl c
  · exact .ite (fun _ => (timed_replayGo ..).trans (timed_settle ..)) fun _ => .refl c

theorem timed_countRecord (c : Core) (e : Nat) (bits : BitVec 256) : Timed c (c.countRecord e bits) := by
  unfold Core.countRecord
  dsimp only
  exact .ite (fun _ => .refl c) fun _ => .ite (fun _ => rfl) fun _ => rfl

theorem timed_issueTask (c : Core) (e : Nat) (r : PortRec) : Timed c (c.issueTask e r) := by
  unfold Core.issueTask
  dsimp only
  split
  · exact (timed_modTask ..).trans (timed_replayRun ..)
  · exact .refl c

theorem timed_present (c : Core) (e time : Nat) : Timed c (c.present_ e time) := by
  unfold Core.present_
  dsimp only
  split
  · exact .refl c
  · exact ((timed_setPort ..).trans (timed_countRecord ..)).trans (timed_issueTask ..)

theorem timed_grantEffect (c : Core) : Timed c c.grantEffect := by
  unfold Core.grantEffect
  split
  · exact .refl c
  next w _ =>
    have hungrant : Timed c { c with pwr := { c.pwr with granted := none } } := rfl
    dsimp only
    split
    · exact hungrant.trans (timed_setPort ..)
    · exact hungrant.trans (timed_present ..)

/-! The end of a DCLK -/

theorem timed_releaseWaiter (c : Core) (w : SyncWaiter) : Timed c (c.releaseWaiter w) := by
  unfold Core.releaseWaiter
  split
  · exact ((timed_modTask ..).trans (timed_promote ..)).trans (timed_settle ..)
  · exact timed_release ..
  · exact .refl c

theorem timed_uncount (c : Core) (o : SyncObj) : Timed c (c.uncount o) :=
  .ite (fun _ => timed_setCtx ..) fun _ => .refl c

theorem timed_endOne (c : Core) (phys : Nat) : Timed c (c.endOne phys) := by
  unfold Core.endOne
  split
  · exact .refl c
  · exact ((timed_uncount ..).trans (timed_setObj ..)).trans (.foldl timed_releaseWaiter _ _)

theorem timed_evalSignals (c : Core) : Timed c c.evalSignals := rfl

theorem timed_evalSigWaits (c : Core) : Timed c c.evalSigWaits := by
  refine .foldl (fun d n => ?_) _ _
  split
  · exact .ite (fun _ => timed_release ..) fun _ => .refl d
  · exact .refl d

theorem timed_fenceTick (c : Core) : Timed c c.fenceTick := rfl

theorem timed_sendFrame (c : Core) (ctx l : Nat) (pl : Payload) : Timed c (c.sendFrame ctx l pl) := (sentFrom_sendFrame ..).steady.timed

theorem timed_clipDown (c : Core) (q : ClipRun) (m : ClipMsg) : Timed c (c.clipDown q m) :=
  (timed_setClip ..).trans (.foldl (fun _ _ => timed_sendFrame ..) _ _)

theorem timed_roundStep (c : Core) : Timed c c.roundStep := by
  unfold Core.roundStep
  dsimp only
  split
  · exact .refl c
  · refine .ite (fun _ => .refl c) fun _ => .ite (fun _ => ?_) fun _ => .refl c
    split
    · exact .refl c
    · exact .ite (fun _ => timed_clipDown ..) fun _ => (timed_setClip ..).trans (timed_sendFrame ..)

theorem timed_beginRound (c : Core) (q : ClipRun) (m : ClipMsg) : Timed c (c.beginRound q m) :=
  (timed_setClip ..).trans (timed_roundStep _)

theorem timed_clipRounds (c : Core) : Timed c c.clipRounds := by
  unfold Core.clipRounds
  split
  · exact .refl c
  · refine .ite (fun _ => .refl c) fun _ => .ite (fun _ => timed_beginRound ..) fun _ => ?_
    exact .ite (fun _ => timed_beginRound ..) fun _ => .refl c

theorem timed_setFab (c : Core) (bit port : Nat) : Timed c (c.setFab bit port) := (sendsFrom_setFab ..).timed

theorem timed_withCnt (c : Core) (w : W64) : Timed c { c with fab := { c.fab with cnt := w } } := rfl

theorem timed_withRx (c : Core) (w : W64) : Timed c { c with clip := { c.clip with rx := w } } := rfl

theorem timed_discardFrame (c : Core) (p : Nat) (f : Frame) : Timed c (c.discardFrame p f) := by
  unfold Core.discardFrame
  exact .trans (.andIf (timed_withCnt ..) (timed_withRx ..)) (timed_setFab ..)

theorem timed_routeFrame (c : Core) (inPort : Option Nat) (resumed : Bool) (f : Frame) : Timed c (c.routeFrame inPort resumed f) := by
  unfold Core.routeFrame
  split
  · exact timed_discardFrame ..
  · split
    · exact (sendsFrom_sendRole ..).timed
    · exact (sendsFrom_sendRole ..).timed

theorem timed_withFresh (c : Core) (l : List Frame) : Timed c { c with fab := { c.fab with fresh := l } } := rfl

theorem timed_routeFresh (c : Core) : Timed c c.routeFresh :=
  (timed_withFresh c []).trans (.foldl (fun _ _ => timed_routeFrame ..) _ _)

theorem timed_clearDclk (c : Core) : Timed c c.clearDclk := rfl

theorem timed_syncEnd (c : Core) : Timed c c.syncEnd := .foldl timed_endOne _ _

theorem timed_deliverAll (c : Core) : Timed c c.deliverAll := .foldl timed_deliver _ _

theorem timed_closesEnd (c : Core) : Timed c c.closesEnd := .foldl (fun d n => (steady_closeEnd d n).timed) _ _

theorem timed_stallsEnd (c : Core) : Timed c c.stallsEnd := .foldl timed_stallCount _ _

theorem timed_decideWrites (c : Core) : Timed c c.decideWrites := .foldl timed_decideWrite _ _

/-- The end of a DCLK leaves the count and the time. -/
theorem timed_dclkEnd (c : Core) : Timed c c.dclkEnd := by
  refine Timed.trans (Timed.trans (Timed.trans (Timed.trans ?_ (timed_collCounts _)) (timed_clipRounds _)) (timed_routeFresh _))
    (timed_clearDclk _)
  refine Timed.trans (Timed.trans (Timed.trans ?_ (timed_stallsEnd _)) (timed_decideWrites _)) (timed_stepEnter _)
  refine Timed.trans (Timed.trans (Timed.trans ?_ (timed_deliverAll _)) (timed_closesEnd _)) (timed_fenceTick _)
  exact Timed.trans (Timed.trans (timed_syncEnd c) (timed_evalSignals _)) (timed_evalSigWaits _)

/-! The beginning of a DCLK -/

/-- A grant that came before an SCLK edge takes force at it. -/
def Core.grantInForce (c : Core) : Core :=
  match c.pwr.grantNext with
  | some g => if g.2 ≤ c.now then { c with pwr := { c.pwr with grantNext := none, status := setFld c.pwr.status 48 16 g.1 } } else c
  | none => c

theorem sclkEdge_parts (c : Core) : c.sclkEdge = c.grantInForce.requestFalls := rfl

theorem timed_grantInForce (c : Core) : Timed c c.grantInForce := by
  unfold Core.grantInForce
  split
  · exact .ite (fun _ => rfl) fun _ => .refl c
  · exact .refl c

theorem timed_requestFalls (c : Core) : Timed c c.requestFalls := by
  unfold Core.requestFalls
  split
  · exact .ite (fun _ => rfl) fun _ => .refl c
  · exact .refl c

theorem timed_sclkEdge (c : Core) : Timed c c.sclkEdge := by
  rw [sclkEdge_parts]
  exact (timed_grantInForce c).trans (timed_requestFalls _)

theorem timed_boundaryLine (c : Core) (n : Nat) : Timed c (c.boundaryLine n) := rfl

theorem timed_boundaryLines (c : Core) (n : Nat) : Timed c (c.boundaryLines n) := by
  unfold Core.boundaryLines
  exact .ite (fun _ => (timed_drawWord c).trans (.foldl (fun d _ => timed_boundaryLine d n) _ _)) fun _ => .refl c

theorem timed_sclkTick (c : Core) : Timed c c.sclkTick :=
  .ite (fun _ => ((timed_sclkEdge c).trans (timed_boundaryLines _ 0)).trans (timed_boundaryLines _ 1)) fun _ => .refl c

theorem timed_evictNow (c : Core) : Timed c c.evictNow := by
  obtain ⟨l, h⟩ := evict_changes c.cfg.storePages c
  rw [Core.evictNow, h]
  rfl

theorem timed_manualDo (c : Core) (code : Nat) (op : Option SyncOp) : Timed c (c.manualDo code op) := by
  unfold Core.manualDo
  dsimp only
  split
  · exact timed_setWin ..
  · split
    · exact (timed_setWin ..).trans (steady_logRaw ..).timed
    · exact (((timed_setWin ..).trans (timed_syncUpdate ..)).trans (timed_ndInc ..)).trans (steady_logRaw ..).timed

theorem timed_withWin (c : Core) (w : ManualWin) : Timed c { c with sync := { c.sync with win := w } } := rfl

theorem timed_manualGo (c : Core) : Timed c c.manualGo := by
  unfold Core.manualGo
  split
  · exact .refl c
  · dsimp only
    refine .ite (fun _ => .refl c) fun _ => ?_
    exact (((timed_withWin ..).trans (timed_withWin ..)).trans (timed_manualDo ..)).trans (timed_withWin ..)

theorem timed_withWatches (c : Core) (l : List WatchEnt) : Timed c { c with graph := { c.graph with watches := l } } := rfl

theorem timed_armWait (c : Core) (ref : TaskRef) : Timed c (c.armWait ref) := by
  unfold Core.armWait
  split
  · exact .refl c
  · split
    · exact .refl c
    · dsimp only
      refine .ite (fun _ => .refl c) fun _ => .ite (fun _ => timed_modTask ..) fun _ => ?_
      split
      · split
        · exact (timed_modTask ..).trans (timed_faultPlain ..)
        · exact ((timed_modTask ..).trans (timed_withWatches ..)).trans (timed_reelIssue ..)
      · split
        · exact .ite (fun _ => .refl c) fun _ => (timed_modTask ..).trans (timed_faultPlain ..)
        · exact (timed_modTask ..).trans (timed_faultPlain ..)
        · exact .ite (fun _ => (timed_modTask ..).trans (timed_faultPlain ..)) fun _ => (timed_modTask ..).trans (timed_setObj ..)
      · exact timed_modTask ..

theorem timed_activateRun (c : Core) (r : Run) : Timed c (c.activateRun r) := by
  refine .ite (fun _ => .foldl (fun d t => ?_) _ _) fun _ => .refl c
  exact .ite (fun _ => (timed_armWait ..).trans (timed_promote ..)) fun _ => .refl d

theorem timed_activateAll (c : Core) : Timed c c.activateAll := by
  refine .foldl (fun d r => ?_) _ _
  split
  · exact timed_activateRun ..
  · exact .refl d

theorem timed_settleAll (c : Core) : Timed c c.settleAll := .foldl (fun _ _ => timed_settle ..) _ _

theorem timed_measureTick (c : Core) : Timed c c.measureTick := by
  refine .foldl (fun d p => ?_) _ _
  dsimp only
  exact .ite (fun _ => (timed_setLink ..).trans (timed_setLink ..)) fun _ => .refl d

theorem timed_groupRise (c : Core) : Timed c c.groupRise := .foldl (fun _ _ => timed_setPort ..) _ _

theorem timed_answerRead (c : Core) : Timed c c.answerRead := by
  unfold Core.answerRead
  split
  · exact .ite (fun _ => rfl) fun _ => rfl
  · rfl

end Sys2Proof.Machine
end
section
/-! PROOFS. The step of an empty queue, and the count at a DCLK edge (O2). -/

namespace Sys2Proof.Machine

/-! The count -/

/-- A core with the count, what holds it and corrects it, and the time of another. -/
def CountKept (c d : Core) : Prop := (d.gc.count, d.gc.hold, d.gc.lastCorr, d.now) = (c.gc.count, c.gc.hold, c.gc.lastCorr, c.now)

theorem CountKept.trans {c d e : Core} (h : CountKept c d) (k : CountKept d e) : CountKept c e := Eq.trans k h

theorem Timed.countKept {c d : Core} (h : Timed c d) : CountKept c d := by rw [CountKept, h.gc, h.now]

theorem CountKept.ite {p : Prop} [Decidable p] {c d e : Core} (hd : CountKept c d) (he : CountKept c e) :
    CountKept c (if p then d else e) := by
  split
  · exact hd
  · exact he

section Parts
variable {c d : Core} (h : CountKept c d)
include h

theorem CountKept.count : d.gc.count = c.gc.count := congrArg Prod.fst h
theorem CountKept.hold : d.gc.hold = c.gc.hold := congrArg (fun x => x.2.1) h
theorem CountKept.lastCorr : d.gc.lastCorr = c.gc.lastCorr := congrArg (fun x => x.2.2.1) h
theorem CountKept.now : d.now = c.now := congrArg (fun x => x.2.2.2) h

end Parts

/-- Another parent drops the offsets of the one before, and keeps the count. -/
theorem countKept_chooseParent (c : Core) : CountKept c c.chooseParent := by
  unfold Core.chooseParent
  dsimp only
  refine .ite rfl ?_
  split
  · rfl
  · exact .ite rfl rfl

/-- What the beginning of a DCLK does after the count has moved leaves it. -/
theorem countKept_dclkBegin (c : Core) : CountKept c.countTick c.dclkBegin := by
  refine CountKept.trans (CountKept.trans (Timed.countKept ?_) (countKept_chooseParent _))
    (Timed.countKept ((timed_measureTick _).trans (timed_groupRise _)))
  refine Timed.trans (Timed.trans (Timed.trans ?_ (timed_manualGo _)) (timed_activateAll _)) (timed_settleAll _)
  exact (timed_sclkTick _).trans (timed_evictNow _)

theorem now_countTick (c : Core) : c.countTick.now = c.now := by
  unfold Core.countTick Core.countHeld Core.correct
  split
  · split <;> rfl
  · split
    · dsimp only
      split <;> rfl
    · rfl

section CountTick
variable {c : Core}

/-- A count that is neither held nor corrected goes up by one. -/
theorem countTick_up (hhold : c.gc.hold = 0) (hno : c.corrects = false) : c.countTick.gc.count = (c.gc.count + 1) % 2 ^ 64 := by
  rw [Core.countTick, if_neg (by omega), hno]
  rfl

/-- A count that is held stands still. -/
theorem countTick_held (hhold : 0 < c.gc.hold) : c.countTick.gc.count = c.gc.count ∧ c.countTick.gc.hold + 1 = c.gc.hold := by
  rw [Core.countTick, if_pos hhold, Core.countHeld]
  split
  next h => exact ⟨rfl, h.symm⟩
  next => exact ⟨rfl, Nat.sub_add_cancel hhold⟩

/-- A correction toward a domain that is ahead skips two. -/
theorem countTick_skips (hhold : c.gc.hold = 0) (hyes : c.corrects = true) (hahead : 0 < roundOffset c.gc.offsets) :
    c.countTick.gc.count = (c.gc.count + 3) % 2 ^ 64 ∧ c.countTick.gc.lastCorr = some c.now := by
  rw [Core.countTick, if_neg (by omega), if_pos hyes, Core.correct]
  dsimp only
  rw [if_pos hahead]
  exact ⟨rfl, rfl⟩

theorem corrects_aligned (h : c.gc.realign = false) : c.corrects = false := by rw [Core.corrects, h]; rfl

theorem corrects_ahead (h : c.gc.realign = true) (hahead : 2 < roundOffset c.gc.offsets) (hfirst : c.gc.lastCorr = none) :
    c.corrects = true := by
  have hfar : 2 < (roundOffset c.gc.offsets).natAbs := by omega
  simp only [Core.corrects, h, hfirst, decide_eq_true hfar, Bool.and_self]

end CountTick

/-! The cycle -/

/-- The core of RUN with the effect of the grant where an ECLK ends. -/
def Core.eclkEnd (c : Core) : Core := if (c.now + 1) % 2 = 0 then c.grantEffect else c

theorem timed_eclkEnd (c : Core) : Timed c c.eclkEnd := .ite (fun _ => timed_grantEffect c) fun _ => .refl c

theorem runTick_between {c : Core} (h : (c.now + 1) % 3 ≠ 0) : c.runTick = { c.eclkEnd with now := c.now + 1 } := if_neg h

theorem runTick_edge {c : Core} (h : (c.now + 1) % 3 = 0) :
    c.runTick = Core.dclkBegin { c.eclkEnd.dclkEnd with now := c.now + 1 } := if_pos h

theorem gc_withNow (c : Core) (now : Nat) : ({ c with now := now } : Core).gc = c.gc := rfl

/-- A DCLK edge in RUN moves the count of a core that has the count of before and the time of the edge. -/
theorem runTick_counts {c : Core} (h : (c.now + 1) % 3 = 0) :
    ∃ d : Core, d.gc = c.gc ∧ d.now = c.now + 1 ∧ CountKept d.countTick c.runTick := by
  have hgc := ((timed_eclkEnd c).trans (timed_dclkEnd _)).gc
  rw [runTick_edge h]
  generalize c.eclkEnd.dclkEnd = d at hgc ⊢
  exact ⟨_, (gc_withNow d _).trans hgc, rfl, countKept_dclkBegin _⟩

section Tick
variable {s : State}

/-- On an empty queue, and with no rise of TS_SCAN_MODE that waits, a step is the cycle. -/
theorem step_idle (hempty : s.pending = []) (hscan : s.sys.scanRise = none) {d : Core}
    (h : d = if (s.sys.phase = .boot ∨ s.sys.phase = .run)
        ∧ (if s.sys.phase = .run then s.core.runTick else { s.core with now := s.core.now + 1 }).now % 4 = 0 then
        (if s.sys.phase = .run then s.core.runTick else { s.core with now := s.core.now + 1 }).answerRead
      else if s.sys.phase = .run then s.core.runTick else { s.core with now := s.core.now + 1 }) :
    step s = .next (s.withCore d) := by
  have htick : step s = .next (tick s) := by rw [step, hempty]
  refine htick.trans (congrArg Host.Outcome.next ?_)
  rw [tick, State.scanLate, if_neg (by rintro ⟨-, hrise, -⟩; exact nomatch hscan.symm.trans hrise), h]
  rfl

theorem step_idle_early (hempty : s.pending = []) (hscan : s.sys.scanRise = none) (hrun : s.sys.phase ≠ .run)
    (hboot : s.sys.phase ≠ .boot) : step s = .next (s.withCore { s.core with now := s.core.now + 1 }) :=
  step_idle hempty hscan (by rw [if_neg (not_and_of_not_left _ (not_or.mpr ⟨hboot, hrun⟩)), if_neg hrun])

theorem step_idle_boot (hempty : s.pending = []) (hscan : s.sys.scanRise = none) (hboot : s.sys.phase = .boot) :
    step s = .next (s.withCore (if (s.core.now + 1) % 4 = 0 then ({ s.core with now := s.core.now + 1 } : Core).answerRead
      else { s.core with now := s.core.now + 1 })) := by
  have hrun : s.sys.phase ≠ .run := by rw [hboot]; decide
  exact step_idle hempty hscan (by simp only [hboot, if_neg (hboot ▸ hrun), true_or, true_and])

theorem step_idle_run (hempty : s.pending = []) (hscan : s.sys.scanRise = none) (hrun : s.sys.phase = .run) :
    step s = .next (s.withCore (if s.core.runTick.now % 4 = 0 then s.core.runTick.answerRead else s.core.runTick)) :=
  step_idle hempty hscan (by simp only [hrun, if_true, or_true, true_and])

/-- The answer to a register read leaves the count and the time of the cycle. -/
theorem timed_answered (c : Core) : Timed c (if c.now % 4 = 0 then c.answerRead else c) :=
  .ite (fun _ => timed_answerRead c) fun _ => .refl c

end Tick

/-! The obligation -/

/-- Settles O2: the cycle by the phase and the edges it ends at, and the count by how it is held and corrected. -/
theorem idleStepAdvancesTime : Obligations.IdleStepAdvancesTime := by
  unfold Obligations.IdleStepAdvancesTime
  intro s hempty hscan
  refine ⟨step_idle_early hempty hscan, step_idle_boot hempty hscan, fun hrun hdclk heclk => ?_, fun hrun hdclk => ?_,
    fun hrun hdclk => ?_⟩
  · have hquiet : s.core.runTick = { s.core with now := s.core.now + 1 } := by
      rw [runTick_between hdclk, Core.eclkEnd, if_neg heclk]
    rw [step_idle_run hempty hscan hrun, hquiet, if_neg (show ¬(s.core.now + 1) % 4 = 0 by omega)]
  · have hanswered := timed_answered s.core.runTick
    refine ⟨_, step_idle_run hempty hscan hrun, hanswered.now.trans ?_, hanswered.gc.trans ?_, rfl, hempty⟩
    · rw [runTick_between hdclk]
    · rw [runTick_between hdclk]
      exact (timed_eclkEnd s.core).gc
  · obtain ⟨d, hgc, hnow, hkept⟩ := runTick_counts hdclk
    have hcount := hkept.trans (timed_answered s.core.runTick).countKept
    refine ⟨_, step_idle_run hempty hscan hrun, (hcount.now.trans (now_countTick d)).trans hnow, rfl, hempty, fun hhold haligned => ?_,
      fun hhold => ?_, fun hhold haligned hahead hfirst => ?_⟩
    · rw [← hgc] at hhold haligned ⊢
      exact hcount.count.trans (countTick_up hhold (corrects_aligned haligned))
    · rw [← hgc] at hhold ⊢
      obtain ⟨hsame, hless⟩ := countTick_held hhold
      exact ⟨hcount.count.trans hsame, (congrArg (· + 1) hcount.hold).trans hless⟩
    · rw [← hgc] at hhold haligned hahead hfirst ⊢
      obtain ⟨hskip, hlast⟩ := countTick_skips hhold (corrects_ahead haligned hahead hfirst) (by omega)
      exact ⟨hcount.count.trans hskip, (hcount.lastCorr.trans hlast).trans (congrArg some hnow)⟩

end Sys2Proof.Machine
end
